-- ==== Sys2Proof/Word.lean ====
section
/-!
DEFINITION. The word types of the device and their plainest arithmetic (R4, R5, R9).
-/
namespace Sys2Proof

/-- A byte of memory (R5). -/
abbrev Byte := BitVec 8
/-- A 32-bit register or instruction word. -/
abbrev Word := BitVec 32
/-- A 64-bit register pair, address or memory word. -/
abbrev Dword := BitVec 64
/-- The 4-bit tag of a 64-bit word (R24, R144). -/
abbrev Tag := BitVec 4
/-- A scalar register number, s0 to s63 (R50). -/
abbrev SReg := BitVec 6
/-- A vector register number, v0 to v2047 (R54). -/
abbrev VReg := BitVec 11
/-- A predicate number, q0 to q15 (R26). -/
abbrev PReg := BitVec 4
/-- A guard slot, shape register or mask register number (R51, R225, R224). -/
abbrev Slot := BitVec 4

/-- Two 32-bit halves as one 64-bit value: the even register holds the low half (R5). -/
def pairOf (lo hi : Word) : Dword := hi ++ lo

/-- Bits [31:0] of a pair. -/
def loHalf (d : Dword) : Word := d.setWidth 32

/-- Bits [63:32] of a pair. -/
def hiHalf (d : Dword) : Word := (d >>> 32).setWidth 32

/-- A number with only bit `n` set, as a truth value turned into a bit. -/
def bitOf (b : Bool) : Nat := if b then 1 else 0

end Sys2Proof
end

