-- ==== Sys2Proof/Syntax.lean ====
section
/-!
DEFINITION. The operations and events of the device, one constructor per row of the opcode table. Scalar instructions
carry the fields R53 gives them; lane instructions of the layout of R54 carry that layout's fields; events carry what
the event names (a group, a request, a value written by the host).
-/
namespace Sys2Proof

/-- The fields of a lane instruction in the layout of R54 and R55, less its opcode. -/
structure LaneOps where
  /-- [87:80], the variant. -/
  fn : BitVec 8
  /-- [79:69], destination register. -/
  vd : VReg
  /-- [68:58], first source; a scalar register when `ska` is set. -/
  va : VReg
  /-- [57:47], second source. -/
  vb : VReg
  /-- [46:36], third source. -/
  vc : VReg
  /-- [35:32], the predicate (R26). -/
  q : PReg
  /-- [31], the predicate's negate bit. -/
  neg : Bool
  /-- [30], the uniform bit (R31). -/
  uni : Bool
  /-- [29], va names a scalar register (R55, R58). -/
  ska : Bool
  /-- [28:25], type code (R56). -/
  type : BitVec 4
  /-- [24:22], scope code (R20). -/
  scope : BitVec 3
  /-- [21:20], order code (R57). -/
  order : BitVec 2
  /-- [19:17], use code (R57). -/
  use : BitVec 3
  /-- [16:14], rounding code (R57). -/
  rnd : BitVec 3
  /-- [13:0], the instruction-specific immediate. -/
  imm : BitVec 14
deriving DecidableEq, Repr, Inhabited

/-- One of BRM's four slots (R59). -/
structure BrmSlot where
  /-- The slot's predicate. -/
  q : PReg
  /-- Its negate bit. -/
  neg : Bool
  /-- Signed offset in lane instructions. -/
  off : BitVec 17
deriving DecidableEq, Repr, Inhabited

/-- The three command queues of a group (R69). -/
inductive QueueKind where
  | lane
  | copy
  | fabric
deriving DecidableEq, Repr, Inhabited

/-- Where an error was detected: the points of R330. -/
inductive ErrorPoint where
  | l1Fill
  | hostEgress
  | fabricEgress
  | unifiedStore
  | accumulatorStore
  | l2Line
  | memoryStack
  | linkFlit
  | fabricComplex
deriving DecidableEq, Repr, Inhabited

/-- What an uncorrectable error hits (R204, R297, R357, R399). -/
inductive ErrorSite where
  /-- An 8-byte word of a core's register area, by its word index. -/
  | registerWord (core word : Nat)
  /-- An 8-byte word of a core's scratchpad area, by its word index. -/
  | scratchWord (core word : Nat)
  /-- An understudy pair of a group in handler mode. -/
  | understudyPair (group thread pair : Nat)
  /-- An accumulator element, by frame x 1024 + element. -/
  | element (core index : Nat)
  /-- A 64-byte block of an L2 line, a stack or a line on a link: all its words. -/
  | memoryBlock (point : ErrorPoint) (unit : Nat) (pa : BitVec 52)
  /-- A crossbar error on the CLUSTER access a group makes next (R275). -/
  | aperture (group : Nat)
  /-- A byte of memory changed without its check value, for a later check to find (R398, R399). -/
  | silent (pa : BitVec 52) (byte : Byte)
  /-- The same of a word's tag, and of the check value itself. -/
  | silentTag (pa : BitVec 52) (tag : BitVec 4)
  | silentCheck (pa : BitVec 52) (v : BitVec 16)
  /-- An entry of a thread's unify stack, which the unified store holds, counted from the top. -/
  | ustackEntry (group thread index : Nat)
deriving DecidableEq, Repr, Inhabited

/-- The limits a power controller moves (R353, R354). -/
inductive PowerLimit where
  | cap
  | thermal
  /-- The limit of a partition's cap. -/
  | partition (p : Nat)
  | row
  /-- The island clock, below dimmer level 0 (R274). -/
  | clock
deriving DecidableEq, Repr, Inhabited

/-- One step of a limit (R354): at most one step an update. -/
inductive PowerMove where
  | down
  | hold
  | up
deriving DecidableEq, Repr, Inhabited

/-- What the meters read in an interval (R356): the energy of the islands named, that of L2, network, memory and links, and leakage. -/
structure Meters where
  islands : List (Nat × Nat)
  traffic : Nat
  leakage : Nat
deriving DecidableEq, Repr, Inhabited

/-- A member's contribution to a collective as it arrives (R369): its bytes, and a tag for each 8 of them. -/
structure Contribution where
  bytes : List Byte
  tags : List Tag
deriving DecidableEq, Repr, Inhabited

/-- A packet of a fabric command as it arrives at this package (R358, R363). -/
structure Packet where
  /-- The sending package. -/
  source : BitVec 12
  /-- The landing region named. -/
  region : BitVec 12
  /-- Byte offset in the region of this packet's data. -/
  offset : Nat
  /-- Byte offset and number of bytes of the whole command: its checks are made on them before any element moves (R363). -/
  first : Nat
  total : Nat
  /-- Element size in bytes. -/
  esize : Nat
  /-- Data written into the region, with a tag per 8 bytes; empty for a read. -/
  bytes : List Byte
  tags : List Tag
  /-- Bytes read from the region, for an XGET. -/
  readLen : Nat
  /-- True for an XGET. -/
  get : Bool
  /-- The signal word's offset, if the XPUT names one. -/
  signal : Option Nat
  /-- Every other packet of the command has been performed: the signal follows this one. -/
  last : Bool
deriving DecidableEq, Repr, Inhabited

/-- What a remote package answers a fabric command (R361, R363). -/
structure FabricReply where
  /-- 0 DONE, 1 NACK, 2 ERROR. -/
  status : BitVec 2
  /-- The bytes an XGET brings, with a tag per 8 bytes. -/
  bytes : List Byte
  tags : List Tag
deriving DecidableEq, Repr, Inhabited

/-- The operations and events of the opcode table. -/
inductive Instr where
  /-- SADD (R74). -/
  | sadd (sd sa sb : SReg)
  /-- SSUB (R74). -/
  | ssub (sd sa sb : SReg)
  /-- SMUL (R74). -/
  | smul (sd sa sb : SReg)
  /-- SMULH (R74). -/
  | smulh (sd sa sb : SReg)
  /-- SDIV (R74). -/
  | sdiv (sd sa sb : SReg)
  /-- SREM (R74). -/
  | srem (sd sa sb : SReg)
  /-- SAND (R74). -/
  | sand (sd sa sb : SReg)
  /-- SOR (R74). -/
  | sor (sd sa sb : SReg)
  /-- SXOR (R74). -/
  | sxor (sd sa sb : SReg)
  /-- SSHL (R74). -/
  | sshl (sd sa sb : SReg)
  /-- SSHR (R74). -/
  | sshr (sd sa sb : SReg)
  /-- SSRA (R74). -/
  | ssra (sd sa sb : SReg)
  /-- SMIN (R74). -/
  | smin (sd sa sb : SReg)
  /-- SMAX (R74). -/
  | smax (sd sa sb : SReg)
  /-- SSLT (R74). -/
  | sslt (sd sa sb : SReg)
  /-- SADDP (R75). -/
  | saddp (sd sa sb : SReg)
  /-- SADDI (R74). -/
  | saddi (sd sa : SReg) (imm : BitVec 12)
  /-- SANDI (R74). -/
  | sandi (sd sa : SReg) (imm : BitVec 12)
  /-- SORI (R74). -/
  | sori (sd sa : SReg) (imm : BitVec 12)
  /-- SXORI (R74). -/
  | sxori (sd sa : SReg) (imm : BitVec 12)
  /-- SSHLI (R74). -/
  | sshli (sd sa : SReg) (n : BitVec 5)
  /-- SSHRI (R74). -/
  | sshri (sd sa : SReg) (n : BitVec 5)
  /-- SSRAI (R74). -/
  | ssrai (sd sa : SReg) (n : BitVec 5)
  /-- SSLTI (R74). -/
  | sslti (sd sa : SReg) (imm : BitVec 12)
  /-- SADDPI (R75). -/
  | saddpi (sd sa : SReg) (imm : BitVec 12)
  /-- SLUI (R52). -/
  | slui (sd : SReg) (imm : BitVec 18)
  /-- SPOPC (R74). -/
  | spopc (sd sa : SReg)
  /-- SCLZ (R74). -/
  | sclz (sd sa : SReg)
  /-- SBFX (R74). -/
  | sbfx (sd sa : SReg) (len pos : BitVec 5)
  /-- SBFI (R74). -/
  | sbfi (sd sa : SReg) (len pos : BitVec 5)
  /-- SSEL (R74). -/
  | ssel (sd sa sb sc : SReg)
  /-- SLD (R76). -/
  | sld (sd base : SReg) (off : BitVec 9)
  /-- SLDP (R76). -/
  | sldp (sd base : SReg) (off : BitVec 9)
  /-- SST (R76). -/
  | sst (ss base : SReg) (off : BitVec 9)
  /-- SSTP (R76). -/
  | sstp (ss base : SReg) (off : BitVec 9)
  /-- SLDAQ (R76). -/
  | sldaq (sd base : SReg) (scope : BitVec 3) (off : BitVec 9)
  /-- SSTRL (R78). -/
  | sstrl (ss base : SReg) (scope : BitVec 3) (off : BitVec 9)
  /-- SAMO (R79). -/
  | samo (sd sa sb : SReg) (op scope : BitVec 3)
  /-- SCAS (R79). -/
  | scas (sd sa sb : SReg) (scope : BitVec 3)
  /-- FENCE (R80). -/
  | fence (scope : BitVec 3) (order : BitVec 2)
  /-- RACQ (R81). -/
  | racq (ss : SReg) (scope : BitVec 3)
  /-- SBEQ (R82). -/
  | sbeq (sa sb : SReg) (off : BitVec 12)
  /-- SBNE (R82). -/
  | sbne (sa sb : SReg) (off : BitVec 12)
  /-- SBLT (R82). -/
  | sblt (sa sb : SReg) (off : BitVec 12)
  /-- SBGE (R82). -/
  | sbge (sa sb : SReg) (off : BitVec 12)
  /-- SBLO (R82). -/
  | sblo (sa sb : SReg) (off : BitVec 12)
  /-- SBHS (R82). -/
  | sbhs (sa sb : SReg) (off : BitVec 12)
  /-- SJ (R82). -/
  | sj (off : BitVec 24)
  /-- SJAL (R82). -/
  | sjal (sd : SReg) (off : BitVec 18)
  /-- SJR (R82). -/
  | sjr (sd sa : SReg) (imm : BitVec 12)
  /-- SLOOP (R82). -/
  | sloop (sa : SReg) (off : BitVec 12)
  /-- SBG (R82). -/
  | sbg (g : Slot) (neg : Bool) (off : BitVec 12)
  /-- LRUN (R83). -/
  | lrun (g : Slot) (neg : Bool) (entry : BitVec 19)
  /-- LRUNR (R83). -/
  | lrunr (g : Slot) (neg : Bool) (sa : SReg)
  /-- LSYNC (R71). -/
  | lsync
  /-- GNEW (R72). -/
  | gnew (g : Slot)
  /-- GSETS (R72). -/
  | gsets (g : Slot) (neg : Bool) (sa : SReg)
  /-- GWAIT (R72). -/
  | gwait (g : Slot)
  /-- WSPLIT (R138). -/
  | wsplit (sd : SReg) (ways : BitVec 18)
  /-- WFUSE (R139). -/
  | wfuse (sd sa : SReg) (tag : BitVec 12)
  /-- WGROW (R141). -/
  | wgrow (n : BitVec 18)
  /-- REGION (R85). -/
  | region (index : BitVec 18)
  /-- SEXIT (R86). -/
  | sexit
  /-- SYIELD (R86). -/
  | syield
  /-- CPY (R251). -/
  | cpy (g : Slot) (neg : Bool) (zd zs : Slot) (sa : SReg)
  /-- CPYQ (R251). -/
  | cpyq (g : Slot) (neg : Bool) (zd zs : Slot) (sa : SReg)
  /-- CPYS (R251). -/
  | cpys (g : Slot) (neg : Bool) (zd : Slot) (sa : SReg)
  /-- GATH (R251). -/
  | gath (g : Slot) (neg : Bool) (zd zs zi : Slot)
  /-- SCAT (R251). -/
  | scat (g : Slot) (neg : Bool) (zd zs zi : Slot)
  /-- MCAST (R271). -/
  | mcast (g : Slot) (neg : Bool) (zd zs : Slot) (sa : SReg)
  /-- QPUSH (R256). -/
  | qpush (sa : SReg) (scope : BitVec 3) (queue : BitVec 6)
  /-- QPOP (R256). -/
  | qpop (sd : SReg) (scope : BitVec 3) (queue : BitVec 6)
  /-- QTRY_POP (R256). -/
  | qtryPop (sd : SReg) (scope : BitVec 3) (queue : BitVec 6)
  /-- QTRY_PUSH (R256). -/
  | qtryPush (sd sa : SReg) (scope : BitVec 3) (queue : BitVec 6)
  /-- QTRY_COUNT (R256). -/
  | qtryCount (sd : SReg) (queue : BitVec 6)
  /-- QBIND (R255). -/
  | qbind (sa sb : SReg) (queue : BitVec 6)
  /-- ZLD (R247). -/
  | zld (z : Slot) (base : SReg) (off : BitVec 9)
  /-- ZST (R247). -/
  | zst (z : Slot) (base : SReg) (off : BitVec 9)
  /-- ZSET (R248). -/
  | zset (z : Slot) (sa : SReg) (w : BitVec 4)
  /-- ZGET (R248). -/
  | zget (sd : SReg) (z : Slot) (w : BitVec 4)
  /-- MKSET (R248). -/
  | mkset (mk : Slot) (sa : SReg) (w : BitVec 2)
  /-- MKSET_PRE (R248). -/
  | mksetPre (mk : Slot) (sa : SReg)
  /-- EWAIT (R254). -/
  | ewait (n : BitVec 18)
  /-- XPUT (R363). -/
  | xput (g : Slot) (neg : Bool) (zl : Slot) (sa : SReg)
  /-- XGET (R363). -/
  | xget (g : Slot) (neg : Bool) (zl : Slot) (sa : SReg)
  /-- XWAIT (R365). -/
  | xwait (sd : SReg) (n : BitVec 7)
  /-- COLL_ARED (R368). -/
  | collAred (g : Slot) (neg : Bool) (zd zs : Slot) (sa : SReg) (op : BitVec 2)
  /-- COLL_AGATH (R368). -/
  | collAgath (g : Slot) (neg : Bool) (zd zs : Slot) (sa : SReg)
  /-- COLL_RSCAT (R368). -/
  | collRscat (g : Slot) (neg : Bool) (zd zs : Slot) (sa : SReg) (op : BitVec 2)
  /-- CWAIT (R365). -/
  | cwait (sd : SReg) (n : BitVec 4)
  /-- SCSRR (R87). -/
  | scsrr (sd : SReg) (csr : BitVec 12)
  /-- SCSRW (R87). -/
  | scsrw (ss : SReg) (csr : BitVec 12)
  /-- STRAP (R87). -/
  | strap (code : BitVec 18)
  /-- STRET (R194). -/
  | stret
  /-- SNOP (R87). -/
  | snop
  /-- SBRK (R87). -/
  | sbrk (code : BitVec 18)
  /-- IADD (R98). -/
  | iadd (w : LaneOps)
  /-- ISUB (R98). -/
  | isub (w : LaneOps)
  /-- IMUL (R98). -/
  | imul (w : LaneOps)
  /-- IMULH (R98). -/
  | imulh (w : LaneOps)
  /-- IMAD (R98). -/
  | imad (w : LaneOps)
  /-- IMIN (R98). -/
  | imin (w : LaneOps)
  /-- IMAX (R98). -/
  | imax (w : LaneOps)
  /-- IABS (R98). -/
  | iabs (w : LaneOps)
  /-- AND (R98). -/
  | vand (w : LaneOps)
  /-- OR (R98). -/
  | vor (w : LaneOps)
  /-- XOR (R98). -/
  | vxor (w : LaneOps)
  /-- BLUT (R100). -/
  | blut (w : LaneOps)
  /-- SHL (R98). -/
  | shl (w : LaneOps)
  /-- SHR (R98). -/
  | shr (w : LaneOps)
  /-- SRA (R98). -/
  | sra (w : LaneOps)
  /-- ROTR (R98). -/
  | rotr (w : LaneOps)
  /-- POPC (R98). -/
  | popc (w : LaneOps)
  /-- CLZ (R98). -/
  | clz (w : LaneOps)
  /-- BREV (R98). -/
  | brev (w : LaneOps)
  /-- BFX (R99). -/
  | bfx (w : LaneOps)
  /-- BFI (R99). -/
  | bfi (w : LaneOps)
  /-- ICMP (R101). -/
  | icmp (w : LaneOps)
  /-- SEL (R101). -/
  | sel (w : LaneOps)
  /-- MOV (R98). -/
  | mov (w : LaneOps)
  /-- MOVI (R60). -/
  | movi (w : LaneOps)
  /-- MOVI_LONG32 (R60). -/
  | moviLong32 (vd : VReg) (q : PReg) (neg : Bool) (imm : BitVec 64)
  /-- MOVI_LONG64 (R60). -/
  | moviLong64 (vd : VReg) (q : PReg) (neg : Bool) (imm : BitVec 64)
  /-- SREGR (R102). -/
  | sregr (w : LaneOps)
  /-- FADD (R107). -/
  | fadd (w : LaneOps)
  /-- FSUB (R107). -/
  | fsub (w : LaneOps)
  /-- FMUL (R107). -/
  | fmul (w : LaneOps)
  /-- FFMA (R107). -/
  | ffma (w : LaneOps)
  /-- FMIN (R108). -/
  | fmin (w : LaneOps)
  /-- FMAX (R108). -/
  | fmax (w : LaneOps)
  /-- FCMP (R109). -/
  | fcmp (w : LaneOps)
  /-- FDIV (R107). -/
  | fdiv (w : LaneOps)
  /-- FSQRT (R107). -/
  | fsqrt (w : LaneOps)
  /-- FRCP (R110). -/
  | frcp (w : LaneOps)
  /-- FRSQ (R110). -/
  | frsq (w : LaneOps)
  /-- FEX2 (R110). -/
  | fex2 (w : LaneOps)
  /-- FLG2 (R110). -/
  | flg2 (w : LaneOps)
  /-- FSIN (R110). -/
  | fsin (w : LaneOps)
  /-- FCOS (R110). -/
  | fcos (w : LaneOps)
  /-- FSINPI (R110). -/
  | fsinpi (w : LaneOps)
  /-- FCOSPI (R110). -/
  | fcospi (w : LaneOps)
  /-- FTANH (R110). -/
  | ftanh (w : LaneOps)
  /-- FCLASS (R111). -/
  | fclass (w : LaneOps)
  /-- FRND (R112). -/
  | frnd (w : LaneOps)
  /-- CVT (R113). -/
  | cvt (w : LaneOps)
  /-- PACK (R115). -/
  | pack (w : LaneOps)
  /-- UNPACK (R116). -/
  | unpack (w : LaneOps)
  /-- BRM (R120). -/
  | brm (s0 s1 s2 s3 : BrmSlot)
  /-- RCV (R121). -/
  | rcv (w : LaneOps)
  /-- LEND (R124). -/
  | lend (w : LaneOps)
  /-- GSET (R127). -/
  | gset (w : LaneOps)
  /-- QLOP (R127). -/
  | qlop (w : LaneOps)
  /-- LNOP (R127). -/
  | lnop (w : LaneOps)
  /-- SHFL (R130). -/
  | shfl (w : LaneOps)
  /-- BALLOT (R131). -/
  | ballot (w : LaneOps)
  /-- VOTE (R132). -/
  | vote (w : LaneOps)
  /-- MATCH (R133). -/
  | vmatch (w : LaneOps)
  /-- REDUX (R134). -/
  | redux (w : LaneOps)
  /-- PSUM (R134). -/
  | psum (w : LaneOps)
  /-- VTOS (R135). -/
  | vtos (w : LaneOps)
  /-- XCHG (R269). -/
  | xchg (w : LaneOps)
  /-- LD (R178). -/
  | ld (w : LaneOps)
  /-- ST (R178). -/
  | st (w : LaneOps)
  /-- LDV (R181). -/
  | ldv (w : LaneOps)
  /-- STV (R181). -/
  | stv (w : LaneOps)
  /-- PREF (R182). -/
  | pref (w : LaneOps)
  /-- CWB (R183). -/
  | cwb (w : LaneOps)
  /-- ATOM (R302). -/
  | atom (w : LaneOps)
  /-- CAS (R302). -/
  | cas (w : LaneOps)
  /-- RED (R302). -/
  | red (w : LaneOps)
  /-- FATOM (R302). -/
  | fatom (w : LaneOps)
  /-- LRES (R309). -/
  | lres (w : LaneOps)
  /-- SCOND (R310). -/
  | scond (w : LaneOps)
  /-- TLD (R155). -/
  | tld (w : LaneOps)
  /-- TST (R155). -/
  | tst (w : LaneOps)
  /-- TMK (R156). -/
  | tmk (w : LaneOps)
  /-- TGET (R157). -/
  | tget (w : LaneOps)
  /-- TSET (R158). -/
  | tset (w : LaneOps)
  /-- TTEST (R159). -/
  | ttest (w : LaneOps)
  /-- FUNC (R159). -/
  | func (w : LaneOps)
  /-- DEREF (R160). -/
  | deref (w : LaneOps)
  /-- BIND (R161). -/
  | bind (w : LaneOps)
  /-- UNIFY (R162). -/
  | unify (w : LaneOps)
  /-- HALLOC (R163). -/
  | halloc (w : LaneOps)
  /-- CHOICE (R164). -/
  | choice (w : LaneOps)
  /-- NEXTALT (R165). -/
  | nextalt (w : LaneOps)
  /-- BACKTRACK (R167). -/
  | backtrack (w : LaneOps)
  /-- CUT (R166). -/
  | cut (w : LaneOps)
  /-- COMMIT (R168). -/
  | commit (w : LaneOps)
  /-- MMA (R235). -/
  | mma (w : LaneOps)
  /-- MMAI (R235). -/
  | mmai (w : LaneOps)
  /-- MZERO (R237). -/
  | mzero (w : LaneOps)
  /-- MLDA (R238). -/
  | mlda (w : LaneOps)
  /-- MSTA (R238). -/
  | msta (w : LaneOps)
  /-- MFLAG (R240). -/
  | mflag (w : LaneOps)
  /-- MFLAGC (R237). -/
  | mflagc (w : LaneOps)
  /-- MFENCE (R241). -/
  | mfence (w : LaneOps)
  /-- MWAIT (R245). -/
  | mwait (w : LaneOps)
  /-- MWAITN (R245). -/
  | mwaitn (w : LaneOps)
  /-- LANE_BLOCK_START (R63). -/
  | laneBlockStart (group : Nat)
  /-- GUARDED_ENTRY_DISCARD (R73). -/
  | guardedEntryDiscard (group : Nat) (queue : QueueKind)
  /-- COPY_COMMAND_START (R185). -/
  | copyCommandStart (group : Nat)
  /-- ENGINE_COMMAND_COMPLETE (R253). -/
  | engineCommandComplete (cmd : Nat)
  /-- CPYQ_PUSH (R257). -/
  | cpyqPush (cmd : Nat)
  /-- MCAST_DELIVERY (R271). -/
  | mcastDelivery (cmd cluster : Nat)
  /-- MCAST_COMPLETE (R272). -/
  | mcastComplete (cmd : Nat)
  /-- FABRIC_COMMAND_START (R363). -/
  | fabricCommandStart (group : Nat)
  /-- FABRIC_PACKET_RECEIVE (R363). -/
  | fabricPacketReceive (packet : Packet)
  /-- FABRIC_COMMAND_COMPLETE (R361). -/
  | fabricCommandComplete (cmd : Nat) (reply : FabricReply)
  /-- COLL_COMMAND_START (R368). -/
  | collCommandStart (group : Nat)
  /-- COLL_CONTRIBUTION_RECEIVE (R369). -/
  | collContributionReceive (set : Nat) (seq : BitVec 32) (rank : Nat) (data : Contribution)
  /-- COLL_INSTANCE_COMPLETE (R368). -/
  | collInstanceComplete (cmd : Nat)
  /-- COLL_ABORT_RECEIVE (R369). -/
  | collAbortReceive (set : Nat) (seq : BitVec 32) (nack : Bool)
  /-- MATRIX_OP_START (R233). -/
  | matrixOpStart (core unit : Nat)
  /-- MATRIX_OP_COMPLETE (R233). -/
  | matrixOpComplete (op : Nat)
  /-- BATCH_COMPLETE (R242). -/
  | batchComplete (group : Nat)
  /-- L1_WRITE_REQUEST_SEND (R279). -/
  | l1WriteRequestSend (l1 line group : Nat)
  /-- HOME_WRITE_MERGE (R280). -/
  | homeWriteMerge (slice req : Nat)
  /-- WRITE_ACK (R280). -/
  | writeAck (req : Nat)
  /-- HOME_READ (R277). -/
  | homeRead (slice req : Nat)
  /-- L1_FILL (R279). -/
  | l1Fill (req : Nat)
  /-- VISITOR_FILL (R281). -/
  | visitorFill (req : Nat)
  /-- HOME_ATOMIC (R298). -/
  | homeAtomic (slice req : Nat)
  /-- PIN_REGISTRATION (R285). -/
  | pinRegistration (slice req : Nat)
  /-- RETRY_RESEND (R287). -/
  | retryResend (req : Nat)
  /-- RACQ_DRAIN_ORDER (R289). -/
  | racqDrainOrder (group : Nat)
  /-- RACQ_DRAIN_REPLY (R289). -/
  | racqDrainReply (group : Nat)
  /-- SLICE_TOKEN_REFILL (R292). -/
  | sliceTokenRefill (slice : Nat)
  /-- SLICE_REQUEST_SERVICE (R293). -/
  | sliceRequestService (slice : Nat)
  /-- CORRECTED_ERROR (R296). -/
  | correctedError (point : ErrorPoint) (unit : Nat) (pa : BitVec 52)
  /-- ERROR_COUNT_INTERVAL (R296). -/
  | errorCountInterval (slice : Nat)
  /-- UNCORRECTABLE_ERROR (R204). -/
  | uncorrectableError (site : ErrorSite)
  /-- STACK_FAILURE (R357). -/
  | stackFailure (stack : Nat)
  /-- LINK_FAILURE (R297). -/
  | linkFailure
  /-- SECTOR_FAILURE (R297). -/
  | sectorFailure (sector : Nat)
  /-- ISLAND_FAULT (R275). -/
  | islandFault (cluster : Nat)
  /-- FLIT_RESEND (R359). -/
  | flitResend (port : Nat) (ok : Bool)
  /-- FABRIC_COMPLEX_FAILURE (R359). -/
  | fabricComplexFailure
  /-- HANDLER_ENTRY_DEFERRED (R195). -/
  | handlerEntryDeferred (group : Nat)
  /-- FRAGMENT_WATCHDOG (R126). -/
  | fragmentWatchdog (group : Nat)
  /-- FAIRNESS_SWITCH (R118). -/
  | fairnessSwitch (group : Nat)
  /-- PREEMPTION_REQUEST (R200). -/
  | preemptionRequest (group : Nat)
  /-- TENANT_TIMEOUT (R201). -/
  | tenantTimeout (group : Nat)
  /-- GROUP_RESTORE (R203). -/
  | groupRestore (group : Nat)
  /-- CAST_SAVE (R349). -/
  | castSave (launch core : Nat)
  /-- CAST_RESTORE (R349). -/
  | castRestore (launch core : Nat)
  /-- WGROW_GRANT (R141). -/
  | wgrowGrant (core : Nat)
  /-- WGROW_DEADLOCK_PREEMPT (R142). -/
  | wgrowDeadlockPreempt (core : Nat)
  /-- WFUSE_TIMEOUT (R139). -/
  | wfuseTimeout (group : Nat)
  /-- XCHG_TIMEOUT (R269). -/
  | xchgTimeout (group : Nat)
  /-- SYIELD_RESUME (R86). -/
  | syieldResume (group : Nat)
  /-- SCHEDULER_ROTATION (R345). -/
  | schedulerRotation (launch : Nat)
  /-- ADMISSION_PREEMPT (R344). -/
  | admissionPreempt (queue : Nat)
  /-- CALLBOARD_SLOT_RELEASE (R336). -/
  | callboardSlotRelease (slot : Nat)
  /-- LAUNCH_ADMIT (R343). -/
  | launchAdmit
  /-- GROUP_DISPATCH (R343). -/
  | groupDispatch (launch : Nat)
  /-- LAUNCH_COMPLETE (R341). -/
  | launchComplete (launch : Nat)
  /-- CONTEXT_TIME_SLICE (R348). -/
  | contextTimeSlice (partition : Nat)
  /-- POWER_LIMIT_UPDATE (R354). -/
  | powerLimitUpdate (cluster : Nat) (limit : PowerLimit) (move : PowerMove)
  /-- FADE_STEP (R355). -/
  | fadeStep (launch : Nat)
  /-- ENERGY_UPDATE (R356). -/
  | energyUpdate (meters : Meters)
  /-- ROUTER_POWER_DOWN (R373). -/
  | routerPowerDown (router : Nat)
  /-- ROUTER_WAKE (R373). -/
  | routerWake (router : Nat)
  /-- HOST_WRITE (R333). -/
  | hostWrite (pa : BitVec 52) (bytes : List Byte)
  /-- DEVICE_START (R393). -/
  | deviceStart (failures : List (Nat × Nat))
  /-- INVALIDATION_DONE (R329). -/
  | invalidationDone
  /-- NOTIFY_STORE (R335). -/
  | notifyStore (queue : Nat) (t : BitVec 32)
  /-- INVCTL_GO (R329). -/
  | invctlGo
  /-- FREPLY (R325). -/
  | freply (verdict : Bool)
  /-- FRCONS_WRITE (R328). -/
  | frconsWrite (v : BitVec 32)
  /-- FAULT_RING_CONFIG_WRITE (R328). -/
  | faultRingConfigWrite (size : Bool) (v : BitVec 64)
  /-- ERRCONS_WRITE (R330). -/
  | errconsWrite (v : BitVec 32)
  /-- CORERR_READ (R327). -/
  | corerrRead (core : Nat)
  /-- ENACC_READ (R356). -/
  | enaccRead (partition entry : Nat)
  /-- ERRLOST_READ (R330). -/
  | errlostRead
  /-- IMGCTL_GO (R396). -/
  | imgctlGo
  /-- ATTCTL_GO (R397). -/
  | attctlGo
  /-- FSRCLR (R394). -/
  | fsrclr
  /-- FEATEN_WRITE (R395). -/
  | featenWrite (mask : BitVec 128)
  /-- SLICE_RATE_WRITE (R290). -/
  | sliceRateWrite (slice context : Nat) (depthReg : Bool) (v : BitVec 32)
  /-- SLWAYS_WRITE (R295). -/
  | slwaysWrite (slice context : Nat) (v : BitVec 32)
  /-- DRIVER_REGISTER_WRITE (R326). -/
  | driverRegisterWrite (offset size : Nat) (v : BitVec 64)
  /-- HOST_LINK_REQUEST (R398). -/
  | hostLinkRequest (write : Bool) (pa : BitVec 52) (bytes : List Byte)
  /-- CONTEXT_TEARDOWN (R369). -/
  | contextTeardown (context : Nat)
  /-- LAUNCH_KILL (R342). -/
  | launchKill (launch : Nat)
  /-- SLICE_MOVE_COMPLETE (R296). -/
  | sliceMoveComplete (slice : Nat)
  /-- PARTITION_PAUSE (R352). -/
  | partitionPause (partition : Nat)
deriving DecidableEq, Repr, Inhabited

end Sys2Proof
end

