-- ==== Sys2Proof/WellFormed.lean ====
section
/-!
DEFINITION. The encoding checks of R62: reserved fields, illegal values, even pairs (R28) and the uniform bit (R31), for
every instruction. An instruction that fails them raises ILLOP. Checks that need the machine's state (R33, the kind of
a shape register, a CSR number) are made by the meanings.
-/
namespace Sys2Proof

/-- How a register field is used. -/
inductive Opd where
  /-- Not used: the field must be zero (R54). -/
  | unused
  /-- `n` consecutive vector registers from an `align`-aligned one (R28, R33). -/
  | regs (n align : Nat)
  /-- A predicate in bits [3:0], the others zero (R101). -/
  | pred
  /-- A scalar register in bits [5:0], the others zero, aligned (R55, R135, R230). -/
  | scalar (align : Nat)
  /-- Any value: checked by the meaning. -/
  | free
deriving DecidableEq, Repr, Inhabited

/-- The encoding of one lane instruction: the use of its register fields and whether each other field is legal. -/
structure Shape where
  d : Opd
  a : Opd
  b : Opd
  c : Opd
  /-- A scalar first source is accepted (R55). -/
  ska : Bool
  /-- The uniform bit is accepted (R31). -/
  uni : Bool
  /-- The predicate fields are used (R26). -/
  pq : Bool
  fn : Bool
  type : Bool
  scope : Bool
  order : Bool
  use : Bool
  rnd : Bool
  imm : Bool
  /-- Checks that join fields. -/
  joint : Bool
deriving DecidableEq, Repr, Inhabited

/-- The field suits its use. -/
def Opd.ok (o : Opd) (r : VReg) : Bool :=
  match o with
  | .unused => r == 0
  | .regs _ al => r.toNat % al == 0
  | .pred => decide (r.toNat < 16)
  | .scalar al => decide (r.toNat < 64) && r.toNat % al == 0
  | .free => true

/-- The first source with the source-kind bit (R55): a scalar register, even for a pair (R58). -/
def Opd.skaOk (o : Opd) (r : VReg) : Bool :=
  match o with
  | .regs _ al => decide (r.toNat < 64) && r.toNat % al == 0
  | _ => false

/-- All encoding checks of a lane instruction. -/
def Shape.ok (h : Shape) (w : LaneOps) : Bool :=
  h.d.ok w.vd && (if w.ska then h.ska && h.a.skaOk w.va else h.a.ok w.va) && h.b.ok w.vb && h.c.ok w.vc
    && (h.uni || !w.uni) && (h.pq || (w.q == 0 && !w.neg))
    && h.fn && h.type && h.scope && h.order && h.use && h.rnd && h.imm && h.joint

/-- Type codes (R56) of 64-bit width. -/
def wideType (t : BitVec 4) : Bool := t == 3 || t == 7 || t == 11
/-- .S32 .Z32 .S64 .Z64 (R97). -/
def intType (t : BitVec 4) : Bool := t == 2 || t == 3 || t == 6 || t == 7
/-- .F16 .B16 .F32 .F64 (R103). -/
def floatType (t : BitVec 4) : Bool := t == 8 || t == 9 || t == 10 || t == 11
/-- Integer type codes of any width (R56). -/
def integerCode (t : BitVec 4) : Bool := decide (t.toNat < 8) || t == 14 || t == 15
/-- One register or an even pair, by the type's width (R92). -/
def opdOf (t : BitVec 4) : Opd := if wideType t then .regs 2 2 else .regs 1 1

/-- A shape with no operand and every control subfield required to be zero, to be refined. -/
def Shape.base (w : LaneOps) : Shape :=
  { d := .unused, a := .unused, b := .unused, c := .unused, ska := false, uni := false, pq := true,
    fn := w.fn == 0, type := w.type == 0, scope := w.scope == 0, order := w.order == 0, use := w.use == 0,
    rnd := w.rnd == 0, imm := w.imm == 0, joint := true }

/-- Bits of fn outside `m` are zero. -/
def fnWithin (w : LaneOps) (m : BitVec 8) : Bool := w.fn &&& ~~~m == 0

/-- Immediate form of R97: fn[7]. -/
def LaneOps.immForm (w : LaneOps) : Bool := w.fn.getLsbD 7

/-! ### Lane arithmetic (R97 to R116) -/

/-- Lane arithmetic common part: ska and the uniform bit accepted (R93, R95). -/
def shapeArith (w : LaneOps) : Shape := { Shape.base w with ska := true, uni := true }

/-- Two-source integer instructions; `mask` names their fn bits beside I (R97). -/
def shapeInt2 (mask : BitVec 8) (hasImm shift : Bool) (w : LaneOps) : Shape :=
  let i := hasImm && w.immForm
  { shapeArith w with
    d := opdOf w.type, a := opdOf w.type, b := if i then .unused else opdOf w.type
    fn := fnWithin w (if hasImm then mask ||| 0x80 else mask), type := intType w.type
    imm := if i then !shift || decide (w.imm.toNat < 64) else w.imm == 0 }

def shapeImad (w : LaneOps) : Shape := { shapeInt2 0 false false w with c := opdOf w.type }
/-- IABS takes .S32 and .S64 only (R98). -/
def shapeIabs (w : LaneOps) : Shape :=
  { shapeInt2 1 false false w with b := .unused, type := w.type == 2 || w.type == 3 }
def shapeUnary (w : LaneOps) : Shape := { shapeInt2 0 false false w with b := .unused }
/-- POPC and CLZ write one register (R98). -/
def shapeCount (w : LaneOps) : Shape := { shapeUnary w with d := .regs 1 1 }
def shapeBlut (w : LaneOps) : Shape := { shapeImad w with imm := decide (w.imm.toNat < 256) }

/-- BFX and BFI (R99): immediate or register position and length. -/
def shapeField (insert : Bool) (w : LaneOps) : Shape :=
  let r := w.fn == 1
  let width := if wideType w.type then 64 else 32
  { shapeArith w with
    d := opdOf w.type, a := opdOf w.type, b := if insert then opdOf w.type else .unused
    c := if r then .regs 1 1 else .unused
    fn := fnWithin w 1, type := intType w.type
    imm := if r then w.imm == 0
      else decide (w.imm.toNat < 4096) && decide (w.imm.toNat % 64 + w.imm.toNat / 64 + 1 ≤ width) }

/-- ICMP (R101). -/
def shapeIcmp (w : LaneOps) : Shape :=
  { shapeInt2 7 true false w with d := .pred, joint := decide (w.fn.toNat % 8 < 6) }
/-- SEL (R101). -/
def shapeSel (w : LaneOps) : Shape := { shapeInt2 0 false false w with imm := decide (w.imm.toNat < 32) }
/-- MOVI, short form: ctl[19:0] is the immediate (R55, R60). -/
def shapeMovi (w : LaneOps) : Shape :=
  { Shape.base w with d := .regs 1 1, uni := true, use := true, rnd := true, imm := true }
/-- SREGR (R102). -/
def shapeSregr (w : LaneOps) : Shape :=
  { Shape.base w with d := .regs 1 1, uni := true, imm := decide (w.imm.toNat < 8) }

/-- Floating-point instructions; `mask` names their modifier bits (R106), `rounds` whether rnd is used (R104). -/
def shapeFloat (mask : BitVec 8) (sources : Nat) (rounds : Bool) (w : LaneOps) : Shape :=
  { shapeArith w with
    d := opdOf w.type, a := opdOf w.type
    b := if sources ≥ 2 then opdOf w.type else .unused, c := if sources ≥ 3 then opdOf w.type else .unused
    fn := fnWithin w mask, type := floatType w.type
    rnd := if rounds then decide (w.rnd.toNat < 6) else w.rnd == 0 }

/-- FCMP (R109). -/
def shapeFcmp (w : LaneOps) : Shape :=
  { shapeFloat 0x0F 2 false w with d := .pred, imm := decide (w.imm.toNat < 8) }
/-- The special functions refuse .F64 (R110). -/
def shapeSpecial (w : LaneOps) : Shape :=
  { shapeFloat 0 1 false w with type := w.type == 8 || w.type == 9 || w.type == 10 }
/-- FCLASS writes one register (R111). -/
def shapeFclass (w : LaneOps) : Shape := { shapeFloat 0 1 false w with d := .regs 1 1 }

/-- The second type, in imm14[3:0] (R55). -/
def LaneOps.src (w : LaneOps) : BitVec 4 := w.imm.setWidth 4

/-- CVT (R113). -/
def shapeCvt (w : LaneOps) : Shape :=
  { shapeArith w with
    d := opdOf w.type, a := opdOf w.src, fn := fnWithin w 1, type := w.type != w.src
    imm := decide (w.imm.toNat < 16)
    rnd := if integerCode w.type && integerCode w.src then w.rnd == 0 else decide (w.rnd.toNat < 6) }

/-- The pairs of R115, packed type and wide type; nibble, byte and half sizes. -/
def packPair (packed wide : BitVec 4) : Bool :=
  ((packed == 8 || packed == 9) && wide == 10)
    || ((packed == 1 || packed == 5) && (wide == 2 || wide == 6))
    || ((packed == 12 || packed == 13) && (wide == 8 || wide == 9))
    || ((packed == 0 || packed == 4) && (wide == 1 || wide == 5))
    || ((packed == 14 || packed == 15) && (wide == 0 || wide == 4))

/-- PACK (R115). -/
def shapePack (w : LaneOps) : Shape :=
  { shapeArith w with
    d := .regs 1 1, a := .regs 1 1, b := .regs 1 1, fn := fnWithin w 1, type := packPair w.type w.src
    imm := decide (w.imm.toNat < 16)
    rnd := if integerCode w.type then w.rnd == 0 else decide (w.rnd.toNat < 6) }
/-- UNPACK (R116). -/
def shapeUnpack (w : LaneOps) : Shape :=
  { shapeArith w with
    d := .regs 2 2, a := .regs 1 1, type := packPair w.src w.type, imm := decide (w.imm.toNat < 16) }

/-! ### Control and cross-lane (R121 to R135, R269) -/

/-- RCV (R121). -/
def shapeRcv (w : LaneOps) : Shape := { Shape.base w with pq := false, imm := w.imm != 0 }
/-- LEND and MFENCE: every field zero (R124, R241). -/
def shapeBare (w : LaneOps) : Shape := { Shape.base w with pq := false }
/-- LNOP (R127). -/
def shapeLnop (w : LaneOps) : Shape := Shape.base w
/-- GSET (R127); slot g0 is refused (R27). -/
def shapeGset (w : LaneOps) : Shape :=
  { Shape.base w with fn := decide (w.fn.toNat < 3), imm := decide (w.imm.toNat < 512) && w.imm.toNat % 16 != 0 }
/-- QLOP (R127). -/
def shapeQlop (w : LaneOps) : Shape :=
  { Shape.base w with d := .pred, a := .pred, b := .pred, imm := decide (w.imm.toNat < 16) }

/-- Types used for their width alone (R129). -/
def widthType (t : BitVec 4) : Bool := t == 2 || t == 6 || t == 10 || wideType t

/-- SHFL (R130). -/
def shapeShfl (w : LaneOps) : Shape :=
  { Shape.base w with
    d := opdOf w.type, a := opdOf w.type, b := if w.immForm then .unused else .regs 1 1
    fn := fnWithin w 0x83, type := widthType w.type
    imm := if w.immForm then decide (w.imm.toNat < 128) else w.imm == 0 }
/-- BALLOT (R131). -/
def shapeBallot (w : LaneOps) : Shape :=
  { Shape.base w with d := .regs 1 1, imm := decide (w.imm.toNat < 32) }
/-- VOTE (R132). -/
def shapeVote (w : LaneOps) : Shape :=
  { Shape.base w with d := .pred, fn := fnWithin w 3, imm := decide (w.imm.toNat < 32) }
/-- MATCH (R133). -/
def shapeMatch (w : LaneOps) : Shape :=
  { Shape.base w with d := .regs 1 1, a := opdOf w.type, type := widthType w.type }

/-- Operations and types of REDUX and PSUM (R134). -/
def reduceOk (op : Nat) (t : BitVec 4) : Bool :=
  match op with
  | 0 | 1 | 2 => intType t || t == 10
  | 3 | 4 | 5 => intType t
  | 6 => t == 2 || t == 6
  | _ => false

/-- REDUX and PSUM (R134). -/
def shapeReduce (mask : BitVec 8) (w : LaneOps) : Shape :=
  { Shape.base w with
    d := opdOf w.type, a := opdOf w.type, fn := fnWithin w mask, type := reduceOk (w.fn.toNat % 8) w.type }
/-- VTOS (R135). -/
def shapeVtos (w : LaneOps) : Shape :=
  { Shape.base w with
    d := .scalar (if wideType w.type then 2 else 1), a := opdOf w.type, type := widthType w.type }
/-- XCHG (R269): 2^fn[7:6] registers, the status register outside the destinations. -/
def shapeXchg (w : LaneOps) : Shape :=
  let n := 2 ^ (w.fn.toNat / 64)
  { Shape.base w with
    d := .regs n 1, a := .regs n 1, c := .regs 1 1, fn := fnWithin w 0xC0, imm := true
    joint := !(decide (w.vd.toNat ≤ w.vc.toNat) && decide (w.vc.toNat < w.vd.toNat + n)) }

/-! ### Memory (R177 to R183, R299 to R307) -/

/-- Space code, fn[1:0] (R176). -/
def LaneOps.space (w : LaneOps) : Nat := w.fn.toNat % 4
/-- Scale code, fn[3:2]. -/
def LaneOps.scale (w : LaneOps) : Nat := w.fn.toNat / 4 % 4
/-- Index bit, fn[4]. -/
def LaneOps.ix (w : LaneOps) : Bool := w.fn.getLsbD 4
/-- Narrow-base bit, fn[5]. -/
def LaneOps.nb (w : LaneOps) : Bool := w.fn.getLsbD 5

/-- The memory operand's fields and its scope: codes 6 and 7 illegal (R21), no scope wider than company in SCRATCH and
CLUSTER space (R177). -/
def shapeMem (w : LaneOps) : Shape :=
  { Shape.base w with
    a := if w.nb then .regs 1 1 else .regs 2 2, b := if w.ix then .regs 1 1 else .unused
    ska := true, uni := true, fn := true, imm := true
    joint := (w.ix || w.scale == 0)
      && decide (w.scope.toNat < (if w.space = 1 ∨ w.space = 3 then 3 else 6)) }

/-- LD and ST: relaxed with scope 0, or the order `o` outside WINDOW space (R177). -/
def shapeLdSt (o : BitVec 2) (w : LaneOps) : Shape :=
  { shapeMem w with
    fn := fnWithin w 0x3F, type := decide (w.type.toNat < 8), scope := true
    order := (w.order == 0 && w.scope == 0) || (w.order == o && w.space != 2) }
def shapeLd (w : LaneOps) : Shape := { shapeLdSt 1 w with d := opdOf w.type }
def shapeSt (w : LaneOps) : Shape := { shapeLdSt 2 w with c := opdOf w.type }

/-- Registers moved by LDV and STV (R181). -/
def LaneOps.vcount (w : LaneOps) : Nat := 2 * 2 ^ (w.fn.toNat / 64)
def shapeLdv (w : LaneOps) : Shape := { shapeMem w with d := .regs w.vcount 2 }
def shapeStv (w : LaneOps) : Shape := { shapeMem w with c := .regs w.vcount 2 }
/-- PREF and CWB reach GLOBAL only; fn[7:6] is 0 or `m` (R182, R183). -/
def shapePref (w : LaneOps) : Shape := { shapeMem w with fn := fnWithin w 0x7F && w.space == 0 }

/-- Size-8 types of atomics, the float ones included (R300). -/
def atomOpd (w : LaneOps) : Opd := opdOf w.type
/-- Operation code of an atomic, imm14[13:10] (R299). -/
def LaneOps.atomOp (w : LaneOps) : Nat := w.imm.toNat / 1024

/-- Fields common to the atomics: WINDOW refused (R300), uses only with relaxed order (R57), accepted uses (R307). -/
def shapeAtomic (uses : List Nat) (orders : List Nat) (ops : Bool) (types : Bool) (w : LaneOps) : Shape :=
  let m := shapeMem w
  { m with
    fn := fnWithin w 0x3F && w.space != 2, type := types, scope := true
    order := orders.contains w.order.toNat, use := w.use == 0 || (w.order == 0 && uses.contains w.use.toNat)
    joint := m.joint && ops }

def shapeAtom (w : LaneOps) : Shape :=
  { shapeAtomic [1, 3, 4, 5] [0, 1, 2, 3] (decide (w.atomOp < 7) && !(w.use == 4 && w.atomOp == 6)) (intType w.type) w with
    d := atomOpd w, c := atomOpd w }
def shapeCas (w : LaneOps) : Shape :=
  { shapeAtomic [1, 3, 5] [0, 1, 2, 3] (w.atomOp == 0) (intType w.type) w with d := atomOpd w, c := atomOpd w }
def shapeRed (w : LaneOps) : Shape :=
  { shapeAtomic [1, 2, 3, 4, 5] [0, 2]
      (if intType w.type then decide (w.atomOp < 6) else decide (8 ≤ w.atomOp ∧ w.atomOp ≤ 10))
      (intType w.type || w.type == 10 || w.type == 11) w with c := atomOpd w }
def shapeFatom (w : LaneOps) : Shape :=
  { shapeAtomic [1, 3, 4, 5] [0, 1, 2, 3] (decide (w.atomOp < 3)) (w.type == 10 || w.type == 11) w with
    d := atomOpd w, c := atomOpd w }
/-- LRES and SCOND: GLOBAL only, no uniform bit (R299, R300). -/
def shapeLres (w : LaneOps) : Shape :=
  { shapeAtomic [] [0, 1] (w.atomOp == 0 && w.space == 0) (intType w.type) w with d := atomOpd w, uni := false }
def shapeScond (w : LaneOps) : Shape :=
  { shapeAtomic [] [0, 2] (w.atomOp == 0 && w.space == 0) (intType w.type) w with
    d := .regs 1 1, c := atomOpd w, uni := false }

/-! ### Terms (R152 to R168) -/

/-- TLD and TST: a pair base, fn[4:0] (R152, R155). R177 makes a scale without an index illegal for LD and ST, and R152 does not say so
of these: any scale is accepted (log 76). -/
def shapeTagged (w : LaneOps) : Shape :=
  { Shape.base w with
    a := .regs 2 2, b := if w.ix then .regs 1 1 else .unused, ska := true, fn := fnWithin w 0x1F, imm := true }
def shapeTld (w : LaneOps) : Shape := { shapeTagged w with d := .regs 2 2 }
def shapeTst (w : LaneOps) : Shape := { shapeTagged w with c := .regs 2 2 }
/-- TMK (R156). -/
def shapeTmk (w : LaneOps) : Shape :=
  { Shape.base w with
    d := .regs 2 2, a := if w.immForm then .unused else .regs 2 2, ska := true, fn := fnWithin w 0x80
    imm := w.immForm || decide (w.imm.toNat < 16) }
/-- TGET (R157). -/
def shapeTget (w : LaneOps) : Shape :=
  { Shape.base w with
    d := if w.fn == 0 || w.fn == 4 then .regs 1 1 else .regs 2 2
    a := if w.fn == 0 then .regs 2 2 else .unused, fn := decide (w.fn.toNat < 9) }
/-- TSET (R158). -/
def shapeTset (w : LaneOps) : Shape :=
  { Shape.base w with
    d := if w.fn == 0 then .regs 2 2 else .unused, a := if w.fn == 0 then .regs 1 1 else .regs 2 2
    b := if w.fn == 0 then .unused else .regs 2 2, fn := fnWithin w 3 }
/-- TTEST (R159). -/
def shapeTtest (w : LaneOps) : Shape :=
  { Shape.base w with d := .pred, a := .regs 2 2, imm := decide (w.imm.toNat < 16) }
/-- FUNC (R159). -/
def shapeFunc (w : LaneOps) : Shape :=
  { Shape.base w with
    d := if w.fn == 2 then .regs 1 1 else .regs 2 2, a := if w.fn == 0 then .regs 1 1 else .regs 2 2
    b := if w.fn == 0 || w.fn == 3 then .regs 1 1 else .unused, fn := fnWithin w 3 }
def shapeDeref (w : LaneOps) : Shape := { Shape.base w with d := .regs 2 2, a := .regs 2 2, imm := true }
def shapeBind (w : LaneOps) : Shape := { Shape.base w with d := .regs 1 1, a := .regs 2 2, b := .regs 2 2 }
def shapeUnify (w : LaneOps) : Shape := { shapeBind w with fn := fnWithin w 1, imm := w.imm != 0 }
def shapeHalloc (w : LaneOps) : Shape :=
  { Shape.base w with d := .regs 2 2, fn := fnWithin w 1, imm := w.imm != 0 }
/-- CHOICE (R164): the mask's pairs from va; mask 0 needs va 0 (R152). -/
def shapeChoice (w : LaneOps) : Shape :=
  { Shape.base w with
    a := if w.fn == 0 then .unused else .regs (2 * w.fn.toNat.log2 + 2) 2, fn := true, imm := true }
def shapeNextalt (w : LaneOps) : Shape := { Shape.base w with imm := true }
def shapeBacktrack (w : LaneOps) : Shape := { Shape.base w with d := .pred }
def shapeCut (w : LaneOps) : Shape :=
  { Shape.base w with a := if w.fn == 1 then .unused else .regs 2 2, fn := fnWithin w 1 }
def shapeCommit (w : LaneOps) : Shape :=
  { Shape.base w with d := .regs 1 1, scope := decide (w.scope.toNat < 6) }

/-! ### Matrix (R216, R224, R229 to R245) -/

/-- A matrix operand: an even scalar pair for a tile, a first register otherwise (R229, R230). -/
def opdTile (tile : Bool) (n : Nat) : Opd := if tile then .scalar 2 else .regs n 1

/-- MMA and MMAI; the register ranges depend on the format block and are checked by the meaning (R229). -/
def shapeMma (integer : Bool) (w : LaneOps) : Shape :=
  { Shape.base w with
    d := .free, a := opdTile (w.fn.getLsbD 7) 1, b := opdTile (w.fn.getLsbD 6) 1, c := .free, fn := fnWithin w 0xEF
    imm := decide (w.imm.toNat < 8192) && (integer || decide (w.imm.toNat % 64 < 16))
    joint := decide (w.vc.toNat < 14) }

/-- The count field imm14[3:0] (R236); the frames are checked by the meaning, whose trap names f (R223, R339). -/
def countOk (w : LaneOps) : Bool := decide (w.imm.toNat < 16)

def shapeFrames (w : LaneOps) : Shape := { Shape.base w with d := .free, imm := countOk w }

/-- Element types of MLDA and MSTA (R236). -/
def frameType (t : BitVec 4) : Bool := t == 8 || t == 9 || t == 10 || t == 12 || t == 13
/-- Bytes of one element of a type code of at least 8 bits (R56). -/
def elemBytes (t : BitVec 4) : Nat :=
  match t.toNat with
  | 0 | 4 | 12 | 13 => 1
  | 1 | 5 | 8 | 9 => 2
  | 2 | 6 | 10 => 4
  | 3 | 7 | 11 => 8
  | _ => 0

/-- MLDA and MSTA (R236, R238): 8 × size registers in the register form, whose count is 1. -/
def shapeMlda (w : LaneOps) : Shape :=
  let tile := w.fn.getLsbD 7
  { Shape.base w with
    d := .free, a := opdTile tile (8 * elemBytes w.type), fn := fnWithin w 0x80, type := frameType w.type
    imm := countOk w && (tile || w.imm == 0) }
def shapeMsta (w : LaneOps) : Shape :=
  let tile := w.fn.getLsbD 7
  { Shape.base w with
    a := .free, d := opdTile tile (8 * elemBytes w.type), fn := fnWithin w 0xC0, type := frameType w.type
    imm := countOk w && (tile || w.imm == 0) }
/-- MFLAG (R236, R240). -/
def shapeMflag (w : LaneOps) : Shape :=
  { Shape.base w with
    a := .free, d := if w.fn == 1 then .pred else .regs 1 1, fn := fnWithin w 1
    imm := countOk w && (w.fn == 1 || w.imm == 0) }
/-- MWAIT and MWAITN (R245). -/
def shapeMwait (w : LaneOps) : Shape := { Shape.base w with pq := false, imm := decide (w.imm.toNat < 16) }

/-- The shape of each lane instruction in the layout of R54. -/
def Instr.shape? : Instr → Option (Shape × LaneOps)
  | .iadd w => some (shapeInt2 1 true false w, w)
  | .isub w => some (shapeInt2 1 true false w, w)
  | .imul w => some (shapeInt2 0 true false w, w)
  | .imulh w => some (shapeInt2 0 false false w, w)
  | .imad w => some (shapeImad w, w)
  | .imin w => some (shapeInt2 0 true false w, w)
  | .imax w => some (shapeInt2 0 true false w, w)
  | .iabs w => some (shapeIabs w, w)
  | .vand w => some (shapeInt2 0 true false w, w)
  | .vor w => some (shapeInt2 0 true false w, w)
  | .vxor w => some (shapeInt2 0 true false w, w)
  | .blut w => some (shapeBlut w, w)
  | .shl w => some (shapeInt2 0 true true w, w)
  | .shr w => some (shapeInt2 0 true true w, w)
  | .sra w => some (shapeInt2 0 true true w, w)
  | .rotr w => some (shapeInt2 0 true true w, w)
  | .popc w => some (shapeCount w, w)
  | .clz w => some (shapeCount w, w)
  | .brev w => some (shapeUnary w, w)
  | .bfx w => some (shapeField false w, w)
  | .bfi w => some (shapeField true w, w)
  | .icmp w => some (shapeIcmp w, w)
  | .sel w => some (shapeSel w, w)
  | .mov w => some (shapeUnary w, w)
  | .movi w => some (shapeMovi w, w)
  | .sregr w => some (shapeSregr w, w)
  | .fadd w => some (shapeFloat 0x0F 2 true w, w)
  | .fsub w => some (shapeFloat 0x0F 2 true w, w)
  | .fmul w => some (shapeFloat 0x0F 2 true w, w)
  | .ffma w => some (shapeFloat 0x3F 3 true w, w)
  | .fmin w => some (shapeFloat 0x0F 2 false w, w)
  | .fmax w => some (shapeFloat 0x0F 2 false w, w)
  | .fcmp w => some (shapeFcmp w, w)
  | .fdiv w => some (shapeFloat 0 2 true w, w)
  | .fsqrt w => some (shapeFloat 0 1 true w, w)
  | .frcp w => some (shapeSpecial w, w)
  | .frsq w => some (shapeSpecial w, w)
  | .fex2 w => some (shapeSpecial w, w)
  | .flg2 w => some (shapeSpecial w, w)
  | .fsin w => some (shapeSpecial w, w)
  | .fcos w => some (shapeSpecial w, w)
  | .fsinpi w => some (shapeSpecial w, w)
  | .fcospi w => some (shapeSpecial w, w)
  | .ftanh w => some (shapeSpecial w, w)
  | .fclass w => some (shapeFclass w, w)
  | .frnd w => some (shapeFloat 0 1 true w, w)
  | .cvt w => some (shapeCvt w, w)
  | .pack w => some (shapePack w, w)
  | .unpack w => some (shapeUnpack w, w)
  | .rcv w => some (shapeRcv w, w)
  | .lend w => some (shapeBare w, w)
  | .gset w => some (shapeGset w, w)
  | .qlop w => some (shapeQlop w, w)
  | .lnop w => some (shapeLnop w, w)
  | .shfl w => some (shapeShfl w, w)
  | .ballot w => some (shapeBallot w, w)
  | .vote w => some (shapeVote w, w)
  | .vmatch w => some (shapeMatch w, w)
  | .redux w => some (shapeReduce 7 w, w)
  | .psum w => some (shapeReduce 15 w, w)
  | .vtos w => some (shapeVtos w, w)
  | .xchg w => some (shapeXchg w, w)
  | .ld w => some (shapeLd w, w)
  | .st w => some (shapeSt w, w)
  | .ldv w => some (shapeLdv w, w)
  | .stv w => some (shapeStv w, w)
  | .pref w => some (shapePref w, w)
  | .cwb w => some (shapePref w, w)
  | .atom w => some (shapeAtom w, w)
  | .cas w => some (shapeCas w, w)
  | .red w => some (shapeRed w, w)
  | .fatom w => some (shapeFatom w, w)
  | .lres w => some (shapeLres w, w)
  | .scond w => some (shapeScond w, w)
  | .tld w => some (shapeTld w, w)
  | .tst w => some (shapeTst w, w)
  | .tmk w => some (shapeTmk w, w)
  | .tget w => some (shapeTget w, w)
  | .tset w => some (shapeTset w, w)
  | .ttest w => some (shapeTtest w, w)
  | .func w => some (shapeFunc w, w)
  | .deref w => some (shapeDeref w, w)
  | .bind w => some (shapeBind w, w)
  | .unify w => some (shapeUnify w, w)
  | .halloc w => some (shapeHalloc w, w)
  | .choice w => some (shapeChoice w, w)
  | .nextalt w => some (shapeNextalt w, w)
  | .backtrack w => some (shapeBacktrack w, w)
  | .cut w => some (shapeCut w, w)
  | .commit w => some (shapeCommit w, w)
  | .mma w => some (shapeMma false w, w)
  | .mmai w => some (shapeMma true w, w)
  | .mzero w => some (shapeFrames w, w)
  | .mlda w => some (shapeMlda w, w)
  | .msta w => some (shapeMsta w, w)
  | .mflag w => some (shapeMflag w, w)
  | .mflagc w => some (shapeFrames w, w)
  | .mfence w => some (shapeBare w, w)
  | .mwait w => some (shapeMwait w, w)
  | .mwaitn w => some (shapeMwait w, w)
  | _ => none

/-! ### Scalar instructions and the two lane layouts of R59 and R60 -/

/-- An even register of a pair (R28). -/
def evenReg (r : SReg) : Bool := r.toNat % 2 == 0
/-- Scope codes 0 to 5 (R20, R21). -/
def scopeOk (c : BitVec 3) : Bool := decide (c.toNat < 6)
/-- A guard: g0 with negate 1 is illegal (R51). -/
def guardOk (g : Slot) (neg : Bool) : Bool := !(g == 0 && neg)
/-- A BRM slot that is never taken has offset zero (R59). -/
def BrmSlot.ok (s : BrmSlot) : Bool := !(s.q == 0 && s.neg) || s.off == 0

/-- The encoding checks of R62 for every instruction; events have none. -/
def Instr.wf (i : Instr) : Bool :=
  match i.shape? with
  | some (h, w) => h.ok w
  | none =>
    match i with
    | .saddp sd sa _ => evenReg sd && evenReg sa
    | .saddpi sd sa _ => evenReg sd && evenReg sa
    | .sbfx _ _ len pos => decide (pos.toNat + len.toNat + 1 ≤ 32)
    | .sbfi _ _ len pos => decide (pos.toNat + len.toNat + 1 ≤ 32)
    | .sld _ base _ => evenReg base
    | .sldp sd base _ => evenReg sd && evenReg base
    | .sst _ base _ => evenReg base
    | .sstp ss base _ => evenReg ss && evenReg base
    | .sldaq _ base scope _ => evenReg base && scopeOk scope
    | .sstrl _ base scope _ => evenReg base && scopeOk scope
    | .samo _ sa _ op scope => evenReg sa && op != 7 && scopeOk scope
    | .scas _ sa _ scope => evenReg sa && scopeOk scope
    | .fence scope order => scopeOk scope && order != 0
    | .racq _ scope => scopeOk scope && decide (2 ≤ scope.toNat)
    | .sjal sd _ => evenReg sd
    | .sjr sd sa _ => evenReg sd && evenReg sa
    | .sloop sa _ => sa != 0
    | .sbg g neg _ => guardOk g neg
    | .lrun g neg _ => guardOk g neg
    | .lrunr g neg _ => guardOk g neg
    | .gnew g => g != 0
    | .gsets g _ _ => g != 0
    | .wsplit _ ways => ways == 2 || ways == 4
    | .wgrow n => n != 0 && decide (n.toNat ≤ 2048)
    | .cpy g neg _ _ _ => guardOk g neg
    | .cpyq g neg _ _ sa => guardOk g neg && evenReg sa
    | .cpys g neg _ _ => guardOk g neg
    | .gath g neg _ _ _ => guardOk g neg
    | .scat g neg _ _ _ => guardOk g neg
    | .mcast g neg _ _ sa => guardOk g neg && sa.toNat % 4 == 0
    | .qpush _ scope _ => decide (scope.toNat < 3)
    | .qpop _ scope _ => decide (scope.toNat < 3)
    | .qtryPop sd scope _ => decide (scope.toNat < 3) && evenReg sd && sd != 0
    | .qtryPush _ _ scope _ => decide (scope.toNat < 3)
    | .qtryCount sd _ => evenReg sd && sd != 0
    | .zld _ base _ => evenReg base
    | .zst _ base _ => evenReg base
    | .xput g neg _ sa => guardOk g neg && sa.toNat % 4 == 0
    | .xget g neg _ sa => guardOk g neg && sa.toNat % 4 == 0
    | .collAred g neg _ _ sa op => guardOk g neg && evenReg sa && op != 3
    | .collAgath g neg _ _ sa => guardOk g neg && evenReg sa
    | .collRscat g neg _ _ sa op => guardOk g neg && evenReg sa && op != 3
    | .brm s0 s1 s2 s3 => s0.ok && s1.ok && s2.ok && s3.ok
    | .moviLong32 _ _ _ imm => decide (imm.toNat < 2 ^ 32)
    | .moviLong64 vd _ _ _ => vd.toNat % 2 == 0
    | _ => true

end Sys2Proof
end

