-- ==== Sys2Proof/Decode.lean ====
section
/-!
DEFINITION. Decoding and encoding of instruction words (R48 to R62): fields are taken out once, reserved bits and illegal
values are refused by name. The encoder is written from the same tables.
-/
namespace Sys2Proof

/-- Field of width `n` at bit `lo`. -/
def fld {k : Nat} (w : BitVec k) (lo n : Nat) : BitVec n := BitVec.ofNat n (w.toNat / 2 ^ lo)

/-- The field of width `n` at bit `lo` holds `v`. -/
def has {k : Nat} (w : BitVec k) (lo n v : Nat) : Bool := w.toNat / 2 ^ lo % 2 ^ n == v

/-- Why a word is no instruction (R62). -/
inductive DecodeError where
  /-- The opcode is unassigned (R53, R61), or a reserved bit that tells its variants apart is set. -/
  | unassigned
  /-- A reserved field or subfield is nonzero, or a field holds an illegal value. -/
  | illegal
deriving DecidableEq, Repr, Inhabited

/-- A scalar word taken apart by its opcode's row of R53, reserved fields required to be zero. -/
def unpackScalar (w : Word) : Option Instr :=
  match w.toNat / 2 ^ 24 with
  | 0x00 =>
    if has w 0 6 0 then some (.sadd (fld w 18 6) (fld w 12 6) (fld w 6 6))
    else none
  | 0x01 =>
    if has w 0 6 0 then some (.ssub (fld w 18 6) (fld w 12 6) (fld w 6 6))
    else none
  | 0x02 =>
    if has w 0 6 0 then some (.smul (fld w 18 6) (fld w 12 6) (fld w 6 6))
    else none
  | 0x03 =>
    if has w 0 6 0 then some (.smulh (fld w 18 6) (fld w 12 6) (fld w 6 6))
    else none
  | 0x04 =>
    if has w 0 6 0 then some (.sdiv (fld w 18 6) (fld w 12 6) (fld w 6 6))
    else none
  | 0x05 =>
    if has w 0 6 0 then some (.srem (fld w 18 6) (fld w 12 6) (fld w 6 6))
    else none
  | 0x06 =>
    if has w 0 6 0 then some (.sand (fld w 18 6) (fld w 12 6) (fld w 6 6))
    else none
  | 0x07 =>
    if has w 0 6 0 then some (.sor (fld w 18 6) (fld w 12 6) (fld w 6 6))
    else none
  | 0x08 =>
    if has w 0 6 0 then some (.sxor (fld w 18 6) (fld w 12 6) (fld w 6 6))
    else none
  | 0x09 =>
    if has w 0 6 0 then some (.sshl (fld w 18 6) (fld w 12 6) (fld w 6 6))
    else none
  | 0x0A =>
    if has w 0 6 0 then some (.sshr (fld w 18 6) (fld w 12 6) (fld w 6 6))
    else none
  | 0x0B =>
    if has w 0 6 0 then some (.ssra (fld w 18 6) (fld w 12 6) (fld w 6 6))
    else none
  | 0x0C =>
    if has w 0 6 0 then some (.smin (fld w 18 6) (fld w 12 6) (fld w 6 6))
    else none
  | 0x0D =>
    if has w 0 6 0 then some (.smax (fld w 18 6) (fld w 12 6) (fld w 6 6))
    else none
  | 0x0E =>
    if has w 0 6 0 then some (.sslt (fld w 18 6) (fld w 12 6) (fld w 6 6))
    else none
  | 0x0F =>
    if has w 0 6 0 then some (.saddp (fld w 18 6) (fld w 12 6) (fld w 6 6))
    else none
  | 0x10 => some (.saddi (fld w 18 6) (fld w 12 6) (fld w 0 12))
  | 0x11 => some (.sandi (fld w 18 6) (fld w 12 6) (fld w 0 12))
  | 0x12 => some (.sori (fld w 18 6) (fld w 12 6) (fld w 0 12))
  | 0x13 => some (.sxori (fld w 18 6) (fld w 12 6) (fld w 0 12))
  | 0x14 =>
    if has w 5 7 0 then some (.sshli (fld w 18 6) (fld w 12 6) (fld w 0 5))
    else none
  | 0x15 =>
    if has w 5 7 0 then some (.sshri (fld w 18 6) (fld w 12 6) (fld w 0 5))
    else none
  | 0x16 =>
    if has w 5 7 0 then some (.ssrai (fld w 18 6) (fld w 12 6) (fld w 0 5))
    else none
  | 0x17 => some (.sslti (fld w 18 6) (fld w 12 6) (fld w 0 12))
  | 0x18 => some (.saddpi (fld w 18 6) (fld w 12 6) (fld w 0 12))
  | 0x19 => some (.slui (fld w 18 6) (fld w 0 18))
  | 0x1A =>
    if has w 0 12 0 then some (.spopc (fld w 18 6) (fld w 12 6))
    else none
  | 0x1B =>
    if has w 0 12 0 then some (.sclz (fld w 18 6) (fld w 12 6))
    else none
  | 0x1C =>
    if has w 10 2 0 then some (.sbfx (fld w 18 6) (fld w 12 6) (fld w 5 5) (fld w 0 5))
    else none
  | 0x1D =>
    if has w 10 2 0 then some (.sbfi (fld w 18 6) (fld w 12 6) (fld w 5 5) (fld w 0 5))
    else none
  | 0x1E => some (.ssel (fld w 18 6) (fld w 12 6) (fld w 6 6) (fld w 0 6))
  | 0x20 =>
    if has w 9 3 0 then some (.sld (fld w 18 6) (fld w 12 6) (fld w 0 9))
    else none
  | 0x21 =>
    if has w 9 3 0 then some (.sldp (fld w 18 6) (fld w 12 6) (fld w 0 9))
    else none
  | 0x22 =>
    if has w 9 3 0 then some (.sst (fld w 18 6) (fld w 12 6) (fld w 0 9))
    else none
  | 0x23 =>
    if has w 9 3 0 then some (.sstp (fld w 18 6) (fld w 12 6) (fld w 0 9))
    else none
  | 0x24 => some (.sldaq (fld w 18 6) (fld w 12 6) (fld w 9 3) (fld w 0 9))
  | 0x25 => some (.sstrl (fld w 18 6) (fld w 12 6) (fld w 9 3) (fld w 0 9))
  | 0x26 => some (.samo (fld w 18 6) (fld w 12 6) (fld w 6 6) (fld w 3 3) (fld w 0 3))
  | 0x27 =>
    if has w 3 3 0 then some (.scas (fld w 18 6) (fld w 12 6) (fld w 6 6) (fld w 0 3))
    else none
  | 0x28 =>
    if has w 12 12 0 && has w 0 7 0 then some (.fence (fld w 9 3) (fld w 7 2))
    else none
  | 0x29 =>
    if has w 12 6 0 && has w 0 9 0 then some (.racq (fld w 18 6) (fld w 9 3))
    else none
  | 0x30 => some (.sbeq (fld w 18 6) (fld w 12 6) (fld w 0 12))
  | 0x31 => some (.sbne (fld w 18 6) (fld w 12 6) (fld w 0 12))
  | 0x32 => some (.sblt (fld w 18 6) (fld w 12 6) (fld w 0 12))
  | 0x33 => some (.sbge (fld w 18 6) (fld w 12 6) (fld w 0 12))
  | 0x34 => some (.sblo (fld w 18 6) (fld w 12 6) (fld w 0 12))
  | 0x35 => some (.sbhs (fld w 18 6) (fld w 12 6) (fld w 0 12))
  | 0x36 => some (.sj (fld w 0 24))
  | 0x37 => some (.sjal (fld w 18 6) (fld w 0 18))
  | 0x38 => some (.sjr (fld w 18 6) (fld w 12 6) (fld w 0 12))
  | 0x39 =>
    if has w 12 6 0 then some (.sloop (fld w 18 6) (fld w 0 12))
    else none
  | 0x3A =>
    if has w 12 7 0 then some (.sbg (fld w 20 4) (fld w 19 1 == 1) (fld w 0 12))
    else none
  | 0x40 => some (.lrun (fld w 20 4) (fld w 19 1 == 1) (fld w 0 19))
  | 0x41 =>
    if has w 0 13 0 then some (.lrunr (fld w 20 4) (fld w 19 1 == 1) (fld w 13 6))
    else none
  | 0x42 =>
    if has w 0 24 0 then some (.lsync)
    else none
  | 0x43 =>
    if has w 0 20 0 then some (.gnew (fld w 20 4))
    else none
  | 0x44 =>
    if has w 0 13 0 then some (.gsets (fld w 20 4) (fld w 19 1 == 1) (fld w 13 6))
    else none
  | 0x45 =>
    if has w 0 20 0 then some (.gwait (fld w 20 4))
    else none
  | 0x46 => some (.wsplit (fld w 18 6) (fld w 0 18))
  | 0x47 => some (.wfuse (fld w 18 6) (fld w 12 6) (fld w 0 12))
  | 0x48 =>
    if has w 18 6 0 then some (.wgrow (fld w 0 18))
    else none
  | 0x49 =>
    if has w 18 6 0 then some (.region (fld w 0 18))
    else none
  | 0x4A =>
    if has w 0 24 0 then some (.sexit)
    else none
  | 0x4B =>
    if has w 0 24 0 then some (.syield)
    else none
  | 0x50 =>
    if has w 0 5 0 then some (.cpy (fld w 20 4) (fld w 19 1 == 1) (fld w 15 4) (fld w 11 4) (fld w 5 6))
    else none
  | 0x51 =>
    if has w 0 5 0 then some (.cpyq (fld w 20 4) (fld w 19 1 == 1) (fld w 15 4) (fld w 11 4) (fld w 5 6))
    else none
  | 0x52 =>
    if has w 0 9 0 then some (.cpys (fld w 20 4) (fld w 19 1 == 1) (fld w 15 4) (fld w 9 6))
    else none
  | 0x53 =>
    if has w 0 7 0 then some (.gath (fld w 20 4) (fld w 19 1 == 1) (fld w 15 4) (fld w 11 4) (fld w 7 4))
    else none
  | 0x54 =>
    if has w 0 7 0 then some (.scat (fld w 20 4) (fld w 19 1 == 1) (fld w 15 4) (fld w 11 4) (fld w 7 4))
    else none
  | 0x55 =>
    if has w 0 5 0 then some (.mcast (fld w 20 4) (fld w 19 1 == 1) (fld w 15 4) (fld w 11 4) (fld w 5 6))
    else none
  | 0x56 =>
    if has w 18 6 0 && has w 9 3 0 then some (.qpush (fld w 12 6) (fld w 6 3) (fld w 0 6))
    else none
  | 0x57 =>
    if has w 12 6 0 && has w 9 3 0 then some (.qpop (fld w 18 6) (fld w 6 3) (fld w 0 6))
    else none
  | 0x58 =>
    if has w 12 6 0 && has w 9 3 0 then some (.qtryPop (fld w 18 6) (fld w 6 3) (fld w 0 6))
    else if has w 9 3 1 then some (.qtryPush (fld w 18 6) (fld w 12 6) (fld w 6 3) (fld w 0 6))
    else if has w 12 6 0 && has w 6 3 0 && has w 9 3 2 then some (.qtryCount (fld w 18 6) (fld w 0 6))
    else none
  | 0x59 =>
    if has w 18 6 0 then some (.qbind (fld w 12 6) (fld w 6 6) (fld w 0 6))
    else none
  | 0x5A =>
    if has w 22 2 0 && has w 9 3 0 then some (.zld (fld w 18 4) (fld w 12 6) (fld w 0 9))
    else none
  | 0x5B =>
    if has w 22 2 0 && has w 9 3 0 then some (.zst (fld w 18 4) (fld w 12 6) (fld w 0 9))
    else none
  | 0x5C =>
    if has w 22 2 0 && has w 4 8 0 then some (.zset (fld w 18 4) (fld w 12 6) (fld w 0 4))
    else none
  | 0x5D =>
    if has w 16 2 0 && has w 4 8 0 then some (.zget (fld w 18 6) (fld w 12 4) (fld w 0 4))
    else none
  | 0x5E =>
    if has w 22 2 0 && has w 2 10 0 then some (.mkset (fld w 18 4) (fld w 12 6) (fld w 0 2))
    else if has w 22 2 0 && has w 0 12 16 then some (.mksetPre (fld w 18 4) (fld w 12 6))
    else none
  | 0x5F =>
    if has w 18 6 0 then some (.ewait (fld w 0 18))
    else none
  | 0x60 =>
    if has w 11 4 0 && has w 0 5 0 then some (.xput (fld w 20 4) (fld w 19 1 == 1) (fld w 15 4) (fld w 5 6))
    else none
  | 0x61 =>
    if has w 11 4 0 && has w 0 5 0 then some (.xget (fld w 20 4) (fld w 19 1 == 1) (fld w 15 4) (fld w 5 6))
    else none
  | 0x62 =>
    if has w 7 11 0 then some (.xwait (fld w 18 6) (fld w 0 7))
    else none
  | 0x63 =>
    if has w 3 2 0 && has w 0 1 0 then some (.collAred (fld w 20 4) (fld w 19 1 == 1) (fld w 15 4) (fld w 11 4) (fld w 5 6) (fld w 1 2))
    else if has w 0 5 8 then some (.collAgath (fld w 20 4) (fld w 19 1 == 1) (fld w 15 4) (fld w 11 4) (fld w 5 6))
    else if has w 3 2 2 && has w 0 1 0 then some (.collRscat (fld w 20 4) (fld w 19 1 == 1) (fld w 15 4) (fld w 11 4) (fld w 5 6) (fld w 1 2))
    else none
  | 0x64 =>
    if has w 4 14 0 then some (.cwait (fld w 18 6) (fld w 0 4))
    else none
  | 0x70 =>
    if has w 12 6 0 then some (.scsrr (fld w 18 6) (fld w 0 12))
    else none
  | 0x71 =>
    if has w 12 6 0 then some (.scsrw (fld w 18 6) (fld w 0 12))
    else none
  | 0x72 =>
    if has w 18 6 0 then some (.strap (fld w 0 18))
    else none
  | 0x73 =>
    if has w 0 24 0 then some (.stret)
    else none
  | 0x74 =>
    if has w 0 24 0 then some (.snop)
    else none
  | 0x75 =>
    if has w 18 6 0 then some (.sbrk (fld w 0 18))
    else none
  | _ => none

/-- The fields of the layout of R54 and R55. -/
def unpackLane (w : BitVec 96) : LaneOps :=
  { fn := fld w 80 8, vd := fld w 69 11, va := fld w 58 11, vb := fld w 47 11, vc := fld w 36 11
    q := fld w 32 4, neg := fld w 31 1 == 1, uni := fld w 30 1 == 1, ska := fld w 29 1 == 1
    type := fld w 25 4, scope := fld w 22 3, order := fld w 20 2, use := fld w 17 3, rnd := fld w 14 3
    imm := fld w 0 14 }

/-- One slot of BRM at the bit of its offset (R59). -/
def unpackSlot (w : BitVec 96) (lo : Nat) : BrmSlot :=
  { q := fld w (lo + 18) 4, neg := fld w (lo + 17) 1 == 1, off := fld w lo 17 }

/-- The lane opcodes in the layout of R54 (R61). -/
def laneOf (op : Nat) (w : LaneOps) : Option Instr :=
  match op with
  | 0x00 => some (.iadd w)
  | 0x01 => some (.isub w)
  | 0x02 => some (.imul w)
  | 0x03 => some (.imulh w)
  | 0x04 => some (.imad w)
  | 0x05 => some (.imin w)
  | 0x06 => some (.imax w)
  | 0x07 => some (.iabs w)
  | 0x08 => some (.vand w)
  | 0x09 => some (.vor w)
  | 0x0A => some (.vxor w)
  | 0x0B => some (.blut w)
  | 0x0C => some (.shl w)
  | 0x0D => some (.shr w)
  | 0x0E => some (.sra w)
  | 0x0F => some (.rotr w)
  | 0x10 => some (.popc w)
  | 0x11 => some (.clz w)
  | 0x12 => some (.brev w)
  | 0x13 => some (.bfx w)
  | 0x14 => some (.bfi w)
  | 0x15 => some (.icmp w)
  | 0x16 => some (.sel w)
  | 0x17 => some (.mov w)
  | 0x18 => some (.movi w)
  | 0x19 => some (.sregr w)
  | 0x20 => some (.fadd w)
  | 0x21 => some (.fsub w)
  | 0x22 => some (.fmul w)
  | 0x23 => some (.ffma w)
  | 0x24 => some (.fmin w)
  | 0x25 => some (.fmax w)
  | 0x26 => some (.fcmp w)
  | 0x27 => some (.fdiv w)
  | 0x28 => some (.fsqrt w)
  | 0x29 => some (.frcp w)
  | 0x2A => some (.frsq w)
  | 0x2B => some (.fex2 w)
  | 0x2C => some (.flg2 w)
  | 0x2D => some (.fsin w)
  | 0x2E => some (.fcos w)
  | 0x2F => some (.fsinpi w)
  | 0x30 => some (.fcospi w)
  | 0x31 => some (.ftanh w)
  | 0x32 => some (.fclass w)
  | 0x33 => some (.frnd w)
  | 0x40 => some (.cvt w)
  | 0x41 => some (.pack w)
  | 0x42 => some (.unpack w)
  | 0x51 => some (.rcv w)
  | 0x52 => some (.lend w)
  | 0x53 => some (.gset w)
  | 0x54 => some (.qlop w)
  | 0x55 => some (.lnop w)
  | 0x60 => some (.shfl w)
  | 0x61 => some (.ballot w)
  | 0x62 => some (.vote w)
  | 0x63 => some (.vmatch w)
  | 0x64 => some (.redux w)
  | 0x65 => some (.psum w)
  | 0x66 => some (.vtos w)
  | 0x67 => some (.xchg w)
  | 0x70 => some (.ld w)
  | 0x71 => some (.st w)
  | 0x72 => some (.ldv w)
  | 0x73 => some (.stv w)
  | 0x74 => some (.pref w)
  | 0x75 => some (.cwb w)
  | 0x80 => some (.atom w)
  | 0x81 => some (.cas w)
  | 0x82 => some (.red w)
  | 0x83 => some (.fatom w)
  | 0x84 => some (.lres w)
  | 0x85 => some (.scond w)
  | 0x90 => some (.tld w)
  | 0x91 => some (.tst w)
  | 0x92 => some (.tmk w)
  | 0x93 => some (.tget w)
  | 0x94 => some (.tset w)
  | 0x95 => some (.ttest w)
  | 0x96 => some (.deref w)
  | 0x97 => some (.unify w)
  | 0x98 => some (.bind w)
  | 0x99 => some (.halloc w)
  | 0x9A => some (.choice w)
  | 0x9B => some (.nextalt w)
  | 0x9C => some (.backtrack w)
  | 0x9D => some (.cut w)
  | 0x9E => some (.commit w)
  | 0x9F => some (.func w)
  | 0xA0 => some (.mma w)
  | 0xA1 => some (.mmai w)
  | 0xA2 => some (.mzero w)
  | 0xA3 => some (.mlda w)
  | 0xA4 => some (.msta w)
  | 0xA5 => some (.mflag w)
  | 0xA6 => some (.mflagc w)
  | 0xA7 => some (.mfence w)
  | 0xA8 => some (.mwait w)
  | 0xA9 => some (.mwaitn w)
  | _ => none

/-- A lane word taken apart: BRM (R59), the long forms of MOVI (R60), or the layout of R54. -/
def unpackLaneWord (w : BitVec 96) : Option Instr :=
  let op := w.toNat / 2 ^ 88
  if op = 0x50 then some (.brm (unpackSlot w 66) (unpackSlot w 44) (unpackSlot w 22) (unpackSlot w 0))
  else if op = 0x18 ∧ has w 80 8 1 then
    some (.moviLong32 (fld w 69 11) (fld w 65 4) (fld w 64 1 == 1) (fld w 0 64))
  else if op = 0x18 ∧ has w 80 8 2 then
    some (.moviLong64 (fld w 69 11) (fld w 65 4) (fld w 64 1 == 1) (fld w 0 64))
  else laneOf op (unpackLane w)

/-- The instruction of an unpacked word, if it passes the checks of R62. -/
def checked (i : Option Instr) : Except DecodeError Instr :=
  match i with
  | none => .error .unassigned
  | some i => if i.wf then .ok i else .error .illegal

/-- Decoding of a scalar word (R53). -/
def decodeScalar (w : Word) : Except DecodeError Instr := checked (unpackScalar w)

/-- Decoding of a lane word (R54, R59, R60). -/
def decodeLane (w : BitVec 96) : Except DecodeError Instr := checked (unpackLaneWord w)

/-- Little-endian value of a byte list (R5, R48). -/
def leNat : List Byte → Nat
  | [] => 0
  | b :: bs => b.toNat + 256 * leNat bs

/-- The `n` low bytes of a number, lowest first (R5, R48). -/
def leBytes : Nat → Nat → List Byte
  | 0, _ => []
  | n + 1, v => BitVec.ofNat 8 v :: leBytes n (v / 256)

/-- Decoding of the bytes of an instruction: 4 for the scalar stream, 12 for the lane stream (R48). -/
def decodeBytes (lane : Bool) (bytes : List Byte) : Except DecodeError Instr :=
  if lane then decodeLane (BitVec.ofNat 96 (leNat bytes)) else decodeScalar (BitVec.ofNat 32 (leNat bytes))

/-- The instruction the decoder reads from `w`, numbered as the opcode table numbers its bits: a row of at most 32 bits is
a scalar word, a longer one a lane word; bits above `nbits` are zero. -/
def decodeTableWord (nbits w : Nat) : Option Instr :=
  let v := w % 2 ^ nbits
  match decodeBytes (decide (nbits > 32)) (leBytes (if nbits > 32 then 12 else 4) v) with
  | .ok i => some i
  | .error _ => none

/-! ### The encoder -/

/-- The layout of R54 and R55 put together under an opcode. -/
def packLane (op : Nat) (w : LaneOps) : BitVec 96 :=
  BitVec.ofNat 96 (op * 2 ^ 88 + w.fn.toNat * 2 ^ 80 + w.vd.toNat * 2 ^ 69 + w.va.toNat * 2 ^ 58 + w.vb.toNat * 2 ^ 47
    + w.vc.toNat * 2 ^ 36 + w.q.toNat * 2 ^ 32 + bitOf w.neg * 2 ^ 31 + bitOf w.uni * 2 ^ 30 + bitOf w.ska * 2 ^ 29
    + w.type.toNat * 2 ^ 25 + w.scope.toNat * 2 ^ 22 + w.order.toNat * 2 ^ 20 + w.use.toNat * 2 ^ 17
    + w.rnd.toNat * 2 ^ 14 + w.imm.toNat)

/-- A BRM slot's 22 bits (R59). -/
def BrmSlot.bits (s : BrmSlot) : Nat := s.q.toNat * 2 ^ 18 + bitOf s.neg * 2 ^ 17 + s.off.toNat

/-- The word of a scalar instruction (R53). -/
def encodeScalar : Instr → Option Word
  | .sadd sd sa sb => some (BitVec.ofNat 32 (0x00000000 + sd.toNat * 262144 + sa.toNat * 4096 + sb.toNat * 64))
  | .ssub sd sa sb => some (BitVec.ofNat 32 (0x01000000 + sd.toNat * 262144 + sa.toNat * 4096 + sb.toNat * 64))
  | .smul sd sa sb => some (BitVec.ofNat 32 (0x02000000 + sd.toNat * 262144 + sa.toNat * 4096 + sb.toNat * 64))
  | .smulh sd sa sb => some (BitVec.ofNat 32 (0x03000000 + sd.toNat * 262144 + sa.toNat * 4096 + sb.toNat * 64))
  | .sdiv sd sa sb => some (BitVec.ofNat 32 (0x04000000 + sd.toNat * 262144 + sa.toNat * 4096 + sb.toNat * 64))
  | .srem sd sa sb => some (BitVec.ofNat 32 (0x05000000 + sd.toNat * 262144 + sa.toNat * 4096 + sb.toNat * 64))
  | .sand sd sa sb => some (BitVec.ofNat 32 (0x06000000 + sd.toNat * 262144 + sa.toNat * 4096 + sb.toNat * 64))
  | .sor sd sa sb => some (BitVec.ofNat 32 (0x07000000 + sd.toNat * 262144 + sa.toNat * 4096 + sb.toNat * 64))
  | .sxor sd sa sb => some (BitVec.ofNat 32 (0x08000000 + sd.toNat * 262144 + sa.toNat * 4096 + sb.toNat * 64))
  | .sshl sd sa sb => some (BitVec.ofNat 32 (0x09000000 + sd.toNat * 262144 + sa.toNat * 4096 + sb.toNat * 64))
  | .sshr sd sa sb => some (BitVec.ofNat 32 (0x0A000000 + sd.toNat * 262144 + sa.toNat * 4096 + sb.toNat * 64))
  | .ssra sd sa sb => some (BitVec.ofNat 32 (0x0B000000 + sd.toNat * 262144 + sa.toNat * 4096 + sb.toNat * 64))
  | .smin sd sa sb => some (BitVec.ofNat 32 (0x0C000000 + sd.toNat * 262144 + sa.toNat * 4096 + sb.toNat * 64))
  | .smax sd sa sb => some (BitVec.ofNat 32 (0x0D000000 + sd.toNat * 262144 + sa.toNat * 4096 + sb.toNat * 64))
  | .sslt sd sa sb => some (BitVec.ofNat 32 (0x0E000000 + sd.toNat * 262144 + sa.toNat * 4096 + sb.toNat * 64))
  | .saddp sd sa sb => some (BitVec.ofNat 32 (0x0F000000 + sd.toNat * 262144 + sa.toNat * 4096 + sb.toNat * 64))
  | .saddi sd sa imm => some (BitVec.ofNat 32 (0x10000000 + sd.toNat * 262144 + sa.toNat * 4096 + imm.toNat))
  | .sandi sd sa imm => some (BitVec.ofNat 32 (0x11000000 + sd.toNat * 262144 + sa.toNat * 4096 + imm.toNat))
  | .sori sd sa imm => some (BitVec.ofNat 32 (0x12000000 + sd.toNat * 262144 + sa.toNat * 4096 + imm.toNat))
  | .sxori sd sa imm => some (BitVec.ofNat 32 (0x13000000 + sd.toNat * 262144 + sa.toNat * 4096 + imm.toNat))
  | .sshli sd sa n => some (BitVec.ofNat 32 (0x14000000 + sd.toNat * 262144 + sa.toNat * 4096 + n.toNat))
  | .sshri sd sa n => some (BitVec.ofNat 32 (0x15000000 + sd.toNat * 262144 + sa.toNat * 4096 + n.toNat))
  | .ssrai sd sa n => some (BitVec.ofNat 32 (0x16000000 + sd.toNat * 262144 + sa.toNat * 4096 + n.toNat))
  | .sslti sd sa imm => some (BitVec.ofNat 32 (0x17000000 + sd.toNat * 262144 + sa.toNat * 4096 + imm.toNat))
  | .saddpi sd sa imm => some (BitVec.ofNat 32 (0x18000000 + sd.toNat * 262144 + sa.toNat * 4096 + imm.toNat))
  | .slui sd imm => some (BitVec.ofNat 32 (0x19000000 + sd.toNat * 262144 + imm.toNat))
  | .spopc sd sa => some (BitVec.ofNat 32 (0x1A000000 + sd.toNat * 262144 + sa.toNat * 4096))
  | .sclz sd sa => some (BitVec.ofNat 32 (0x1B000000 + sd.toNat * 262144 + sa.toNat * 4096))
  | .sbfx sd sa len pos => some (BitVec.ofNat 32 (0x1C000000 + sd.toNat * 262144 + sa.toNat * 4096 + len.toNat * 32 + pos.toNat))
  | .sbfi sd sa len pos => some (BitVec.ofNat 32 (0x1D000000 + sd.toNat * 262144 + sa.toNat * 4096 + len.toNat * 32 + pos.toNat))
  | .ssel sd sa sb sc => some (BitVec.ofNat 32 (0x1E000000 + sd.toNat * 262144 + sa.toNat * 4096 + sb.toNat * 64 + sc.toNat))
  | .sld sd base off => some (BitVec.ofNat 32 (0x20000000 + sd.toNat * 262144 + base.toNat * 4096 + off.toNat))
  | .sldp sd base off => some (BitVec.ofNat 32 (0x21000000 + sd.toNat * 262144 + base.toNat * 4096 + off.toNat))
  | .sst ss base off => some (BitVec.ofNat 32 (0x22000000 + ss.toNat * 262144 + base.toNat * 4096 + off.toNat))
  | .sstp ss base off => some (BitVec.ofNat 32 (0x23000000 + ss.toNat * 262144 + base.toNat * 4096 + off.toNat))
  | .sldaq sd base scope off => some (BitVec.ofNat 32 (0x24000000 + sd.toNat * 262144 + base.toNat * 4096 + scope.toNat * 512 + off.toNat))
  | .sstrl ss base scope off => some (BitVec.ofNat 32 (0x25000000 + ss.toNat * 262144 + base.toNat * 4096 + scope.toNat * 512 + off.toNat))
  | .samo sd sa sb op scope => some (BitVec.ofNat 32 (0x26000000 + sd.toNat * 262144 + sa.toNat * 4096 + sb.toNat * 64 + op.toNat * 8 + scope.toNat))
  | .scas sd sa sb scope => some (BitVec.ofNat 32 (0x27000000 + sd.toNat * 262144 + sa.toNat * 4096 + sb.toNat * 64 + scope.toNat))
  | .fence scope order => some (BitVec.ofNat 32 (0x28000000 + scope.toNat * 512 + order.toNat * 128))
  | .racq ss scope => some (BitVec.ofNat 32 (0x29000000 + ss.toNat * 262144 + scope.toNat * 512))
  | .sbeq sa sb off => some (BitVec.ofNat 32 (0x30000000 + sa.toNat * 262144 + sb.toNat * 4096 + off.toNat))
  | .sbne sa sb off => some (BitVec.ofNat 32 (0x31000000 + sa.toNat * 262144 + sb.toNat * 4096 + off.toNat))
  | .sblt sa sb off => some (BitVec.ofNat 32 (0x32000000 + sa.toNat * 262144 + sb.toNat * 4096 + off.toNat))
  | .sbge sa sb off => some (BitVec.ofNat 32 (0x33000000 + sa.toNat * 262144 + sb.toNat * 4096 + off.toNat))
  | .sblo sa sb off => some (BitVec.ofNat 32 (0x34000000 + sa.toNat * 262144 + sb.toNat * 4096 + off.toNat))
  | .sbhs sa sb off => some (BitVec.ofNat 32 (0x35000000 + sa.toNat * 262144 + sb.toNat * 4096 + off.toNat))
  | .sj off => some (BitVec.ofNat 32 (0x36000000 + off.toNat))
  | .sjal sd off => some (BitVec.ofNat 32 (0x37000000 + sd.toNat * 262144 + off.toNat))
  | .sjr sd sa imm => some (BitVec.ofNat 32 (0x38000000 + sd.toNat * 262144 + sa.toNat * 4096 + imm.toNat))
  | .sloop sa off => some (BitVec.ofNat 32 (0x39000000 + sa.toNat * 262144 + off.toNat))
  | .sbg g neg off => some (BitVec.ofNat 32 (0x3A000000 + g.toNat * 1048576 + bitOf neg * 524288 + off.toNat))
  | .lrun g neg entry => some (BitVec.ofNat 32 (0x40000000 + g.toNat * 1048576 + bitOf neg * 524288 + entry.toNat))
  | .lrunr g neg sa => some (BitVec.ofNat 32 (0x41000000 + g.toNat * 1048576 + bitOf neg * 524288 + sa.toNat * 8192))
  | .lsync => some (BitVec.ofNat 32 (0x42000000))
  | .gnew g => some (BitVec.ofNat 32 (0x43000000 + g.toNat * 1048576))
  | .gsets g neg sa => some (BitVec.ofNat 32 (0x44000000 + g.toNat * 1048576 + bitOf neg * 524288 + sa.toNat * 8192))
  | .gwait g => some (BitVec.ofNat 32 (0x45000000 + g.toNat * 1048576))
  | .wsplit sd ways => some (BitVec.ofNat 32 (0x46000000 + sd.toNat * 262144 + ways.toNat))
  | .wfuse sd sa tag => some (BitVec.ofNat 32 (0x47000000 + sd.toNat * 262144 + sa.toNat * 4096 + tag.toNat))
  | .wgrow n => some (BitVec.ofNat 32 (0x48000000 + n.toNat))
  | .region index => some (BitVec.ofNat 32 (0x49000000 + index.toNat))
  | .sexit => some (BitVec.ofNat 32 (0x4A000000))
  | .syield => some (BitVec.ofNat 32 (0x4B000000))
  | .cpy g neg zd zs sa => some (BitVec.ofNat 32 (0x50000000 + g.toNat * 1048576 + bitOf neg * 524288 + zd.toNat * 32768 + zs.toNat * 2048 + sa.toNat * 32))
  | .cpyq g neg zd zs sa => some (BitVec.ofNat 32 (0x51000000 + g.toNat * 1048576 + bitOf neg * 524288 + zd.toNat * 32768 + zs.toNat * 2048 + sa.toNat * 32))
  | .cpys g neg zd sa => some (BitVec.ofNat 32 (0x52000000 + g.toNat * 1048576 + bitOf neg * 524288 + zd.toNat * 32768 + sa.toNat * 512))
  | .gath g neg zd zs zi => some (BitVec.ofNat 32 (0x53000000 + g.toNat * 1048576 + bitOf neg * 524288 + zd.toNat * 32768 + zs.toNat * 2048 + zi.toNat * 128))
  | .scat g neg zd zs zi => some (BitVec.ofNat 32 (0x54000000 + g.toNat * 1048576 + bitOf neg * 524288 + zd.toNat * 32768 + zs.toNat * 2048 + zi.toNat * 128))
  | .mcast g neg zd zs sa => some (BitVec.ofNat 32 (0x55000000 + g.toNat * 1048576 + bitOf neg * 524288 + zd.toNat * 32768 + zs.toNat * 2048 + sa.toNat * 32))
  | .qpush sa scope queue => some (BitVec.ofNat 32 (0x56000000 + sa.toNat * 4096 + scope.toNat * 64 + queue.toNat))
  | .qpop sd scope queue => some (BitVec.ofNat 32 (0x57000000 + sd.toNat * 262144 + scope.toNat * 64 + queue.toNat))
  | .qtryPop sd scope queue => some (BitVec.ofNat 32 (0x58000000 + sd.toNat * 262144 + scope.toNat * 64 + queue.toNat))
  | .qtryPush sd sa scope queue => some (BitVec.ofNat 32 (0x58000200 + sd.toNat * 262144 + sa.toNat * 4096 + scope.toNat * 64 + queue.toNat))
  | .qtryCount sd queue => some (BitVec.ofNat 32 (0x58000400 + sd.toNat * 262144 + queue.toNat))
  | .qbind sa sb queue => some (BitVec.ofNat 32 (0x59000000 + sa.toNat * 4096 + sb.toNat * 64 + queue.toNat))
  | .zld z base off => some (BitVec.ofNat 32 (0x5A000000 + z.toNat * 262144 + base.toNat * 4096 + off.toNat))
  | .zst z base off => some (BitVec.ofNat 32 (0x5B000000 + z.toNat * 262144 + base.toNat * 4096 + off.toNat))
  | .zset z sa w => some (BitVec.ofNat 32 (0x5C000000 + z.toNat * 262144 + sa.toNat * 4096 + w.toNat))
  | .zget sd z w => some (BitVec.ofNat 32 (0x5D000000 + sd.toNat * 262144 + z.toNat * 4096 + w.toNat))
  | .mkset mk sa w => some (BitVec.ofNat 32 (0x5E000000 + mk.toNat * 262144 + sa.toNat * 4096 + w.toNat))
  | .mksetPre mk sa => some (BitVec.ofNat 32 (0x5E000010 + mk.toNat * 262144 + sa.toNat * 4096))
  | .ewait n => some (BitVec.ofNat 32 (0x5F000000 + n.toNat))
  | .xput g neg zl sa => some (BitVec.ofNat 32 (0x60000000 + g.toNat * 1048576 + bitOf neg * 524288 + zl.toNat * 32768 + sa.toNat * 32))
  | .xget g neg zl sa => some (BitVec.ofNat 32 (0x61000000 + g.toNat * 1048576 + bitOf neg * 524288 + zl.toNat * 32768 + sa.toNat * 32))
  | .xwait sd n => some (BitVec.ofNat 32 (0x62000000 + sd.toNat * 262144 + n.toNat))
  | .collAred g neg zd zs sa op => some (BitVec.ofNat 32 (0x63000000 + g.toNat * 1048576 + bitOf neg * 524288 + zd.toNat * 32768 + zs.toNat * 2048 + sa.toNat * 32 + op.toNat * 2))
  | .collAgath g neg zd zs sa => some (BitVec.ofNat 32 (0x63000008 + g.toNat * 1048576 + bitOf neg * 524288 + zd.toNat * 32768 + zs.toNat * 2048 + sa.toNat * 32))
  | .collRscat g neg zd zs sa op => some (BitVec.ofNat 32 (0x63000010 + g.toNat * 1048576 + bitOf neg * 524288 + zd.toNat * 32768 + zs.toNat * 2048 + sa.toNat * 32 + op.toNat * 2))
  | .cwait sd n => some (BitVec.ofNat 32 (0x64000000 + sd.toNat * 262144 + n.toNat))
  | .scsrr sd csr => some (BitVec.ofNat 32 (0x70000000 + sd.toNat * 262144 + csr.toNat))
  | .scsrw ss csr => some (BitVec.ofNat 32 (0x71000000 + ss.toNat * 262144 + csr.toNat))
  | .strap code => some (BitVec.ofNat 32 (0x72000000 + code.toNat))
  | .stret => some (BitVec.ofNat 32 (0x73000000))
  | .snop => some (BitVec.ofNat 32 (0x74000000))
  | .sbrk code => some (BitVec.ofNat 32 (0x75000000 + code.toNat))
  | _ => none

/-- The word of a lane instruction (R54, R59 to R61). -/
def encodeLane : Instr → Option (BitVec 96)
  | .brm s0 s1 s2 s3 =>
    some (BitVec.ofNat 96 (0x50 * 2 ^ 88 + s0.bits * 2 ^ 66 + s1.bits * 2 ^ 44 + s2.bits * 2 ^ 22 + s3.bits))
  | .moviLong32 vd q neg imm =>
    some (BitVec.ofNat 96 (0x1801 * 2 ^ 80 + vd.toNat * 2 ^ 69 + q.toNat * 2 ^ 65 + bitOf neg * 2 ^ 64 + imm.toNat))
  | .moviLong64 vd q neg imm =>
    some (BitVec.ofNat 96 (0x1802 * 2 ^ 80 + vd.toNat * 2 ^ 69 + q.toNat * 2 ^ 65 + bitOf neg * 2 ^ 64 + imm.toNat))
  | .iadd w => some (packLane 0x00 w)
  | .isub w => some (packLane 0x01 w)
  | .imul w => some (packLane 0x02 w)
  | .imulh w => some (packLane 0x03 w)
  | .imad w => some (packLane 0x04 w)
  | .imin w => some (packLane 0x05 w)
  | .imax w => some (packLane 0x06 w)
  | .iabs w => some (packLane 0x07 w)
  | .vand w => some (packLane 0x08 w)
  | .vor w => some (packLane 0x09 w)
  | .vxor w => some (packLane 0x0A w)
  | .blut w => some (packLane 0x0B w)
  | .shl w => some (packLane 0x0C w)
  | .shr w => some (packLane 0x0D w)
  | .sra w => some (packLane 0x0E w)
  | .rotr w => some (packLane 0x0F w)
  | .popc w => some (packLane 0x10 w)
  | .clz w => some (packLane 0x11 w)
  | .brev w => some (packLane 0x12 w)
  | .bfx w => some (packLane 0x13 w)
  | .bfi w => some (packLane 0x14 w)
  | .icmp w => some (packLane 0x15 w)
  | .sel w => some (packLane 0x16 w)
  | .mov w => some (packLane 0x17 w)
  | .movi w => some (packLane 0x18 w)
  | .sregr w => some (packLane 0x19 w)
  | .fadd w => some (packLane 0x20 w)
  | .fsub w => some (packLane 0x21 w)
  | .fmul w => some (packLane 0x22 w)
  | .ffma w => some (packLane 0x23 w)
  | .fmin w => some (packLane 0x24 w)
  | .fmax w => some (packLane 0x25 w)
  | .fcmp w => some (packLane 0x26 w)
  | .fdiv w => some (packLane 0x27 w)
  | .fsqrt w => some (packLane 0x28 w)
  | .frcp w => some (packLane 0x29 w)
  | .frsq w => some (packLane 0x2A w)
  | .fex2 w => some (packLane 0x2B w)
  | .flg2 w => some (packLane 0x2C w)
  | .fsin w => some (packLane 0x2D w)
  | .fcos w => some (packLane 0x2E w)
  | .fsinpi w => some (packLane 0x2F w)
  | .fcospi w => some (packLane 0x30 w)
  | .ftanh w => some (packLane 0x31 w)
  | .fclass w => some (packLane 0x32 w)
  | .frnd w => some (packLane 0x33 w)
  | .cvt w => some (packLane 0x40 w)
  | .pack w => some (packLane 0x41 w)
  | .unpack w => some (packLane 0x42 w)
  | .rcv w => some (packLane 0x51 w)
  | .lend w => some (packLane 0x52 w)
  | .gset w => some (packLane 0x53 w)
  | .qlop w => some (packLane 0x54 w)
  | .lnop w => some (packLane 0x55 w)
  | .shfl w => some (packLane 0x60 w)
  | .ballot w => some (packLane 0x61 w)
  | .vote w => some (packLane 0x62 w)
  | .vmatch w => some (packLane 0x63 w)
  | .redux w => some (packLane 0x64 w)
  | .psum w => some (packLane 0x65 w)
  | .vtos w => some (packLane 0x66 w)
  | .xchg w => some (packLane 0x67 w)
  | .ld w => some (packLane 0x70 w)
  | .st w => some (packLane 0x71 w)
  | .ldv w => some (packLane 0x72 w)
  | .stv w => some (packLane 0x73 w)
  | .pref w => some (packLane 0x74 w)
  | .cwb w => some (packLane 0x75 w)
  | .atom w => some (packLane 0x80 w)
  | .cas w => some (packLane 0x81 w)
  | .red w => some (packLane 0x82 w)
  | .fatom w => some (packLane 0x83 w)
  | .lres w => some (packLane 0x84 w)
  | .scond w => some (packLane 0x85 w)
  | .tld w => some (packLane 0x90 w)
  | .tst w => some (packLane 0x91 w)
  | .tmk w => some (packLane 0x92 w)
  | .tget w => some (packLane 0x93 w)
  | .tset w => some (packLane 0x94 w)
  | .ttest w => some (packLane 0x95 w)
  | .deref w => some (packLane 0x96 w)
  | .unify w => some (packLane 0x97 w)
  | .bind w => some (packLane 0x98 w)
  | .halloc w => some (packLane 0x99 w)
  | .choice w => some (packLane 0x9A w)
  | .nextalt w => some (packLane 0x9B w)
  | .backtrack w => some (packLane 0x9C w)
  | .cut w => some (packLane 0x9D w)
  | .commit w => some (packLane 0x9E w)
  | .func w => some (packLane 0x9F w)
  | .mma w => some (packLane 0xA0 w)
  | .mmai w => some (packLane 0xA1 w)
  | .mzero w => some (packLane 0xA2 w)
  | .mlda w => some (packLane 0xA3 w)
  | .msta w => some (packLane 0xA4 w)
  | .mflag w => some (packLane 0xA5 w)
  | .mflagc w => some (packLane 0xA6 w)
  | .mfence w => some (packLane 0xA7 w)
  | .mwait w => some (packLane 0xA8 w)
  | .mwaitn w => some (packLane 0xA9 w)
  | _ => none

/-- The bytes of an instruction as memory holds them (R48); none for an event. -/
def encode (i : Instr) : Option (List Byte) :=
  match encodeScalar i with
  | some w => some (leBytes 4 w.toNat)
  | none => (encodeLane i).map fun w => leBytes 12 w.toNat

/-- The opcode byte of an instruction, as ILLOP reports it (R188); 0 for an event. -/
def Instr.opcode : Instr → Nat
  | .sadd _ _ _ => 0x00
  | .ssub _ _ _ => 0x01
  | .smul _ _ _ => 0x02
  | .smulh _ _ _ => 0x03
  | .sdiv _ _ _ => 0x04
  | .srem _ _ _ => 0x05
  | .sand _ _ _ => 0x06
  | .sor _ _ _ => 0x07
  | .sxor _ _ _ => 0x08
  | .sshl _ _ _ => 0x09
  | .sshr _ _ _ => 0x0A
  | .ssra _ _ _ => 0x0B
  | .smin _ _ _ => 0x0C
  | .smax _ _ _ => 0x0D
  | .sslt _ _ _ => 0x0E
  | .saddp _ _ _ => 0x0F
  | .saddi _ _ _ => 0x10
  | .sandi _ _ _ => 0x11
  | .sori _ _ _ => 0x12
  | .sxori _ _ _ => 0x13
  | .sshli _ _ _ => 0x14
  | .sshri _ _ _ => 0x15
  | .ssrai _ _ _ => 0x16
  | .sslti _ _ _ => 0x17
  | .saddpi _ _ _ => 0x18
  | .slui _ _ => 0x19
  | .spopc _ _ => 0x1A
  | .sclz _ _ => 0x1B
  | .sbfx _ _ _ _ => 0x1C
  | .sbfi _ _ _ _ => 0x1D
  | .ssel _ _ _ _ => 0x1E
  | .sld _ _ _ => 0x20
  | .sldp _ _ _ => 0x21
  | .sst _ _ _ => 0x22
  | .sstp _ _ _ => 0x23
  | .sldaq _ _ _ _ => 0x24
  | .sstrl _ _ _ _ => 0x25
  | .samo _ _ _ _ _ => 0x26
  | .scas _ _ _ _ => 0x27
  | .fence _ _ => 0x28
  | .racq _ _ => 0x29
  | .sbeq _ _ _ => 0x30
  | .sbne _ _ _ => 0x31
  | .sblt _ _ _ => 0x32
  | .sbge _ _ _ => 0x33
  | .sblo _ _ _ => 0x34
  | .sbhs _ _ _ => 0x35
  | .sj _ => 0x36
  | .sjal _ _ => 0x37
  | .sjr _ _ _ => 0x38
  | .sloop _ _ => 0x39
  | .sbg _ _ _ => 0x3A
  | .lrun _ _ _ => 0x40
  | .lrunr _ _ _ => 0x41
  | .lsync => 0x42
  | .gnew _ => 0x43
  | .gsets _ _ _ => 0x44
  | .gwait _ => 0x45
  | .wsplit _ _ => 0x46
  | .wfuse _ _ _ => 0x47
  | .wgrow _ => 0x48
  | .region _ => 0x49
  | .sexit => 0x4A
  | .syield => 0x4B
  | .cpy _ _ _ _ _ => 0x50
  | .cpyq _ _ _ _ _ => 0x51
  | .cpys _ _ _ _ => 0x52
  | .gath _ _ _ _ _ => 0x53
  | .scat _ _ _ _ _ => 0x54
  | .mcast _ _ _ _ _ => 0x55
  | .qpush _ _ _ => 0x56
  | .qpop _ _ _ => 0x57
  | .qtryPop _ _ _ => 0x58
  | .qtryPush _ _ _ _ => 0x58
  | .qtryCount _ _ => 0x58
  | .qbind _ _ _ => 0x59
  | .zld _ _ _ => 0x5A
  | .zst _ _ _ => 0x5B
  | .zset _ _ _ => 0x5C
  | .zget _ _ _ => 0x5D
  | .mkset _ _ _ => 0x5E
  | .mksetPre _ _ => 0x5E
  | .ewait _ => 0x5F
  | .xput _ _ _ _ => 0x60
  | .xget _ _ _ _ => 0x61
  | .xwait _ _ => 0x62
  | .collAred _ _ _ _ _ _ => 0x63
  | .collAgath _ _ _ _ _ => 0x63
  | .collRscat _ _ _ _ _ _ => 0x63
  | .cwait _ _ => 0x64
  | .scsrr _ _ => 0x70
  | .scsrw _ _ => 0x71
  | .strap _ => 0x72
  | .stret => 0x73
  | .snop => 0x74
  | .sbrk _ => 0x75
  | .iadd _ => 0x00
  | .isub _ => 0x01
  | .imul _ => 0x02
  | .imulh _ => 0x03
  | .imad _ => 0x04
  | .imin _ => 0x05
  | .imax _ => 0x06
  | .iabs _ => 0x07
  | .vand _ => 0x08
  | .vor _ => 0x09
  | .vxor _ => 0x0A
  | .blut _ => 0x0B
  | .shl _ => 0x0C
  | .shr _ => 0x0D
  | .sra _ => 0x0E
  | .rotr _ => 0x0F
  | .popc _ => 0x10
  | .clz _ => 0x11
  | .brev _ => 0x12
  | .bfx _ => 0x13
  | .bfi _ => 0x14
  | .icmp _ => 0x15
  | .sel _ => 0x16
  | .mov _ => 0x17
  | .movi _ => 0x18
  | .sregr _ => 0x19
  | .fadd _ => 0x20
  | .fsub _ => 0x21
  | .fmul _ => 0x22
  | .ffma _ => 0x23
  | .fmin _ => 0x24
  | .fmax _ => 0x25
  | .fcmp _ => 0x26
  | .fdiv _ => 0x27
  | .fsqrt _ => 0x28
  | .frcp _ => 0x29
  | .frsq _ => 0x2A
  | .fex2 _ => 0x2B
  | .flg2 _ => 0x2C
  | .fsin _ => 0x2D
  | .fcos _ => 0x2E
  | .fsinpi _ => 0x2F
  | .fcospi _ => 0x30
  | .ftanh _ => 0x31
  | .fclass _ => 0x32
  | .frnd _ => 0x33
  | .cvt _ => 0x40
  | .pack _ => 0x41
  | .unpack _ => 0x42
  | .rcv _ => 0x51
  | .lend _ => 0x52
  | .gset _ => 0x53
  | .qlop _ => 0x54
  | .lnop _ => 0x55
  | .shfl _ => 0x60
  | .ballot _ => 0x61
  | .vote _ => 0x62
  | .vmatch _ => 0x63
  | .redux _ => 0x64
  | .psum _ => 0x65
  | .vtos _ => 0x66
  | .xchg _ => 0x67
  | .ld _ => 0x70
  | .st _ => 0x71
  | .ldv _ => 0x72
  | .stv _ => 0x73
  | .pref _ => 0x74
  | .cwb _ => 0x75
  | .atom _ => 0x80
  | .cas _ => 0x81
  | .red _ => 0x82
  | .fatom _ => 0x83
  | .lres _ => 0x84
  | .scond _ => 0x85
  | .tld _ => 0x90
  | .tst _ => 0x91
  | .tmk _ => 0x92
  | .tget _ => 0x93
  | .tset _ => 0x94
  | .ttest _ => 0x95
  | .deref _ => 0x96
  | .unify _ => 0x97
  | .bind _ => 0x98
  | .halloc _ => 0x99
  | .choice _ => 0x9A
  | .nextalt _ => 0x9B
  | .backtrack _ => 0x9C
  | .cut _ => 0x9D
  | .commit _ => 0x9E
  | .func _ => 0x9F
  | .mma _ => 0xA0
  | .mmai _ => 0xA1
  | .mzero _ => 0xA2
  | .mlda _ => 0xA3
  | .msta _ => 0xA4
  | .mflag _ => 0xA5
  | .mflagc _ => 0xA6
  | .mfence _ => 0xA7
  | .mwait _ => 0xA8
  | .mwaitn _ => 0xA9
  | .brm _ _ _ _ => 0x50
  | .moviLong32 _ _ _ _ => 0x18
  | .moviLong64 _ _ _ _ => 0x18
  | _ => 0

/-- Whether an instruction is fetched by the lane stream (R48). -/
def Instr.isLane (i : Instr) : Bool := (encodeLane i).isSome

/-- Whether an instruction is fetched by the scalar stream (R48). -/
def Instr.isScalar (i : Instr) : Bool := (encodeScalar i).isSome

end Sys2Proof
end

