-- ==== Sys2Proof/Machine/Table.lean ====
section
/-!
DEFINITION. Sparse tables of plain data in one canonical form: keys strictly rising, no entry that holds the default.
Memory and every numbered register file are such tables.
-/
namespace Sys2Proof.Machine

/-- Entries by key. Unlisted keys hold a default that the operations take as an argument. -/
abbrev Table (β : Type) := List (Nat × β)

/-- The value at a key. -/
def Table.get {β : Type} (d : β) : Table β → Nat → β
  | [], _ => d
  | (k, v) :: t, i => if i = k then v else Table.get d t i

/-- An entry put at its place among rising keys. -/
def Table.put {β : Type} : Table β → Nat → β → Table β
  | [], i, v => [(i, v)]
  | (k, w) :: t, i, v => if i < k then (i, v) :: (k, w) :: t else (k, w) :: Table.put t i v

/-- The table without a key. -/
def Table.erase {β : Type} (t : Table β) (i : Nat) : Table β := t.filter fun kv => !decide (kv.1 = i)

/-- The table with `v` at key `i`; the default is not listed. -/
def Table.set {β : Type} [DecidableEq β] (d : β) (t : Table β) (i : Nat) (v : β) : Table β :=
  if v = d then t.erase i else (t.erase i).put i v

/-- Every key of the table is above `lo`, keys rise strictly, and no entry holds the default. -/
def Table.wfFrom {β : Type} [DecidableEq β] (d : β) : Nat → Table β → Bool
  | _, [] => true
  | lo, (k, v) :: t => decide (lo ≤ k) && !decide (v = d) && Table.wfFrom d (k + 1) t

/-- The canonical form. -/
def Table.wf {β : Type} [DecidableEq β] (d : β) (t : Table β) : Bool := Table.wfFrom d 0 t

/-- Several keys set in turn. -/
def Table.setAll {β : Type} [DecidableEq β] (d : β) (t : Table β) (kvs : List (Nat × β)) : Table β :=
  kvs.foldl (fun t kv => Table.set d t kv.1 kv.2) t

/-- The table without the keys from `lo` up to `hi`, `hi` excluded. -/
def Table.clear {β : Type} (t : Table β) (lo hi : Nat) : Table β :=
  t.filter fun kv => decide (kv.1 < lo) || decide (hi ≤ kv.1)

/-- The entries of the keys from `lo` up to `hi`, `hi` excluded, renumbered from 0. -/
def Table.slice {β : Type} (t : Table β) (lo hi : Nat) : Table β :=
  (t.filter fun kv => decide (lo ≤ kv.1) && decide (kv.1 < hi)).map fun kv => (kv.1 - lo, kv.2)

/-- The entries moved up by `by_` keys. -/
def Table.shift {β : Type} (t : Table β) (by_ : Nat) : Table β := t.map fun kv => (kv.1 + by_, kv.2)

end Sys2Proof.Machine
end

