-- ==== Sys2Proof/Machine/State.lean ====
section
/-!
DEFINITION. The state of one package (R13): its groups and threads, cores, L1s, slices, memory, the package's
registers and engines, and the agenda that says which agent moves next (log 2). All of it is plain data.
-/
namespace Sys2Proof.Machine

/-! ### Threads (R25, R147, R153, R162) -/

/-- A 64-bit word with its tag (R24). -/
structure TWord where
  value : Dword
  tag : Tag
deriving DecidableEq, Repr, Inhabited

/-- An entry of a unify stack (R162). -/
inductive UEntry where
  /-- The root pair of words. -/
  | root (x y : TWord)
  /-- A range of argument pairs: two addresses and a remaining count. -/
  | range (x y : Dword) (count : Nat)
  /-- An entry that an uncorrectable error has poisoned (R204). -/
  | poisoned
deriving DecidableEq, Repr, Inhabited

/-- The state of a thread beside its registers, which the core's store holds (R25, R147). -/
structure Thread where
  /-- q1 to q15 in bits 1 to 15; q0 is always true and bit 0 is not read. -/
  preds : BitVec 16
  htop : Dword
  ttop : Dword
  ctop : Dword
  /-- Live wings entries, 0 to 2^k. -/
  wtop : Nat
  hlim : Dword
  tlim : Dword
  cbase : Dword
  clim : Dword
  /-- Unify stack, top first. -/
  ustack : List UEntry
  /-- The resumption mark of R153, R184: the thread has finished the instruction being reissued. -/
  mark : Bool
  /-- Counts carried over a reissue (R153): UNIFY steps, COMMIT conflicts. -/
  carry : Nat
  /-- How far the instruction being reissued has come (R153): words of HALLOC, the stack of UNIFY made ready, the place a BACKTRACK
  leads to, half entries of COMMIT. -/
  progress : Nat
  /-- What the completed steps of the instruction being reissued have brought, in order (R153): none is made again. -/
  done : List TWord
deriving DecidableEq, Repr, Inhabited

/-- A thread at launch start (R25, R147). -/
def Thread.start : Thread :=
  { preds := 0, htop := 0, ttop := 0, ctop := 0, wtop := 0, hlim := 0, tlim := 0, cbase := 0, clim := 0
    ustack := [], mark := false, carry := 0, progress := 0, done := [] }

/-! ### Atomics (R298 to R311) -/

/-- A RED.COM request that was merged into another (R308): its number, L1 and group, its thread, fragment and instruction, and its
own operand. -/
structure Joined where
  id : Nat
  l1 : Nat
  group : Nat
  thread : Nat
  frag : Nat
  pc : Dword
  va : Dword
  inHandler : Bool
  operand : TWord
deriving DecidableEq, Repr, Inhabited

/-- An atomic at its home slice (R298, R302, R309, R310, R79, R168). -/
structure AtomReq where
  thread : Nat
  /-- Physical address and size in bytes. -/
  pa : Nat
  size : Nat
  /-- 0 ATOM and the like, 1 CAS, 2 LRES, 3 SCOND, 4 COMMIT's compare-and-swap. -/
  form : Nat
  /-- Operation code of R301. -/
  op : Nat
  /-- Type code (R56). -/
  type : BitVec 4
  /-- The operand, with those of the requests merged into this one (R308), and its own. -/
  operand : TWord
  own : TWord
  expect : TWord
  /-- Destination: vector register (or scalar for the scalar stream); none for RED. -/
  dest : Option Nat
  scalar : Bool
  /-- Threads that receive the result: of a uniform atomic every one its fragment had at issue (R31). -/
  takers : BitVec 128
  /-- Counted by R45. -/
  counted : Bool
  /-- Declared use (R307). -/
  use : Nat
  /-- The page keeps tags (R333). -/
  tagged : Bool
  /-- The instruction does not wait for the step (R307, R308). -/
  late : Bool
  /-- Its fragment's table entry, the instruction's address and whether it was issued in handler mode, for a trap that a late step
  meets. -/
  frag : Nat
  pc : Dword
  va : Dword
  inHandler : Bool
  /-- Values that the word has held since the request reached its site (R307); of a host word the value that device parties last gave
  it (R332). -/
  seen : List Nat
  /-- Requests merged into this one (R308). -/
  joined : List Joined := []
deriving DecidableEq, Repr, Inhabited

/-! ### Accesses on their way (R65, R71, R118) -/

/-- One access that its instruction has issued and that has not been performed. -/
structure Acc where
  thread : Nat
  space : Nat
  core : Nat
  /-- Physical address, or byte of the core's scratchpad area. -/
  at_ : Nat
  /-- Effective value. -/
  e : Dword
  /-- The page keeps tags (R333). -/
  tagged : Bool
  /-- Threads that receive the value: of a uniform load every one its fragment had at issue (R31). -/
  takers : BitVec 128
  /-- What a store writes. -/
  value : Nat
  /-- The step of an atomic. -/
  atom : Option AtomReq
deriving DecidableEq, Repr, Inhabited

/-- The accesses of an instruction that are on their way while its stream goes on (R65, R71, R118); the registers they bring are held
until then. -/
structure Access where
  id : Nat
  scalar : Bool
  inHandler : Bool
  instr : Instr
  pc : Dword
  /-- Its fragment's table entry. -/
  frag : Nat
  accs : List Acc
  /-- The request of a scalar atomic that has left (R79). -/
  sent : Option Nat
deriving DecidableEq, Repr, Inhabited

/-- An access, or the step of an atomic, that its instruction did not wait for and that met a poisoned word (R184). -/
inductive Again where
  | step (a : AtomReq)
  | access (a : Access)
deriving DecidableEq, Repr, Inhabited

/-- It traps with its instruction's address and its TRAPINFO, and is taken again after the trap (log 61). -/
structure Late where
  scalar : Bool
  frag : Nat
  pc : Dword
  info : Dword
  again : Again
deriving DecidableEq, Repr, Inhabited

/-! ### Lane stream, queues and guards (R47, R63, R69, R72, R117 to R125) -/

/-- A guard slot (R72). -/
inductive Guard where
  | pending
  | resolved (v : Bool)
deriving DecidableEq, Repr, Inhabited

/-- The guard of a queued entry (R73). -/
inductive EntryGuard where
  /-- Bound to the slot's next resolution. -/
  | bound (slot : Nat) (neg : Bool)
  /-- Decided: performed if true, discarded otherwise. -/
  | decided (run : Bool)
deriving DecidableEq, Repr, Inhabited

/-- Values a lane block reads as they stood at its LRUN (R58, R68, R249). -/
structure Captured where
  scalars : Table Word
  zs : Table (BitVec 512)
  mks : Table (BitVec 128)
  rndMode : Word
  termBase : Dword
  termLim : Dword
  wingBase : Word
  wingSize : Word
deriving DecidableEq, Repr, Inhabited

/-- Nothing captured. -/
def Captured.none : Captured :=
  { scalars := [], zs := [], mks := [], rndMode := 0, termBase := 0, termLim := 0, wingBase := 0, wingSize := 0 }

/-- The state of a fragment (R47). -/
inductive FragState where
  | ready
  | waiting
  /-- Parked under the reconvergence entry with this number (R122). -/
  | parked (entry : Nat)
  /-- Parked at LEND (R124). -/
  | ended
deriving DecidableEq, Repr, Inhabited

/-- A fragment (R47, R125). -/
structure Fragment where
  mask : BitVec 128
  pc : Dword
  state : FragState
  /-- Watchdog count. -/
  count : Nat
  /-- Atomics after the instruction it stands at that it has issued already (R307). -/
  ahead : Nat := 0
  /-- The instruction it stands at has accesses on their way, or has completed steps (R153, R180, R190). -/
  issued : Bool := false
deriving DecidableEq, Repr, Inhabited

/-- An entry of the reconvergence stack (R121); `id` tells entries apart. -/
structure RecEntry where
  id : Nat
  addr : Dword
  mask : BitVec 128
deriving DecidableEq, Repr, Inhabited

/-- The lane stream of a group (R47, R63, R117 to R125). -/
structure LaneStream where
  /-- A block has started and not retired. -/
  running : Bool
  /-- The split table, entries 0 to 15; an absent entry is free. -/
  frags : Table Fragment
  /-- The current fragment's entry. -/
  cur : Nat
  /-- Issue slots used since the current fragment was selected (R118). -/
  slots : Nat
  /-- Reconvergence stack, top first. -/
  stack : List RecEntry
  nextId : Nat
  cap : Captured
deriving DecidableEq, Repr, Inhabited

/-- The split table of a group of width W outside a block: one fragment over all threads (R27, R124). -/
def LaneStream.idle (w : Nat) : LaneStream :=
  { running := false, frags := [(0, { mask := BitVec.ofNat 128 (2 ^ w - 1), pc := 0, state := .ready, count := 0 })], cur := 0, slots := 0, stack := []
    nextId := 0, cap := .none }

/-- A lane-queue entry (R63). -/
structure LaneEntry where
  guard : EntryGuard
  entry : Nat
  cap : Captured
deriving DecidableEq, Repr, Inhabited

/-- What a copy-queue entry asks for, with the values captured at enqueue (R249 to R251, R271). -/
inductive CopyOp where
  /-- With the byte limit that a register other than s0 gives (R251). -/
  | cpy (limit : Option Word)
  | cpyq (handle : Word) (queue : Nat)
  | cpys (fill : Dword)
  | gath (zi : BitVec 512)
  | scat (zi : BitVec 512)
  | mcast (handle : Word) (core : Nat) (clusters : BitVec 12) (queue : Nat) (completion : Word)
deriving DecidableEq, Repr, Inhabited

/-- A copy-queue entry (R69). -/
structure CopyEntry where
  guard : EntryGuard
  op : CopyOp
  zd : BitVec 512
  zs : BitVec 512
deriving DecidableEq, Repr, Inhabited

/-- What a fabric-queue entry asks for (R363, R368). -/
inductive FabOp where
  /-- XPUT or XGET: s(sa), s(sa + 1), s(sa + 2). -/
  | transfer (get : Bool) (target offset signal : Word)
  /-- COLL: kind 0 ARED, 1 AGATH, 2 RSCAT; s(sa), s(sa + 1). -/
  | coll (kind op : Nat) (zd : BitVec 512) (set seq : Word)
deriving DecidableEq, Repr, Inhabited

/-- A fabric-queue entry (R69). -/
structure FabEntry where
  guard : EntryGuard
  op : FabOp
  /-- The local tensor: zl of a transfer, zs of a collective. -/
  z : BitVec 512
deriving DecidableEq, Repr, Inhabited

/-! ### Cores (R172, R185, R222, R255) -/

/-- A range-lock entry (R185). -/
structure Lock where
  /-- The engine command that holds it. -/
  cmd : Nat
  /-- Space code: 0 GLOBAL virtual addresses of `context`, 1 scratch of this core. -/
  space : Nat
  context : Nat
  /-- First 256-byte unit and the unit after the last. -/
  lo : Nat
  hi : Nat
  /-- A write lock blocks reads as well. -/
  write : Bool
deriving DecidableEq, Repr, Inhabited

/-- A scratch queue (R255, R273). -/
structure Queue where
  /-- Number of the binding (R255 code 4). -/
  id : Nat
  launch : Nat
  offset : Nat
  slots : Nat
  head : Nat
  tail : Nat
  filled : Nat
  free : Nat
  lost : Bool
  /-- The binding has ended; its counters stand as it left them (R259, R260). -/
  ended : Bool
deriving DecidableEq, Repr, Inhabited

/-- A core's stores. -/
structure Core where
  /-- The partition, in 64 KiB units, set by the first admitted launch (R172, R173); absent when nothing is resident. -/
  partition : Option (Nat × Nat)
  /-- Register area words, by 4-byte index. -/
  regs : Table Word
  /-- Their tags, by 8-byte index. -/
  regTags : Table Tag
  /-- Scratchpad area bytes. -/
  scratch : Table Byte
  /-- Their tags, by 8-byte index. -/
  scratchTags : Table Tag
  /-- Accumulator elements, by frame × 1024 + element (R222). -/
  acc : Table Word
  lost : Table Bool
  accPoison : Table Bool
  locks : Table (Option Lock)
  queues : Table (Option Queue)
  /-- Array cycles of dot products that its units have spent (R234, R355). -/
  array : Nat
  corerr : Nat
  /-- Groups waiting in WGROW with the size asked for, oldest first (R141). -/
  growers : List (Nat × Nat)
deriving DecidableEq, Repr, Inhabited

/-- A core at device start; scratch and register contents are a choice of the model (log 13). -/
def Core.start : Core :=
  { partition := none, regs := [], regTags := [], scratch := [], scratchTags := [], acc := [], lost := [], accPoison := []
    locks := [], queues := [], array := 0, corerr := 0, growers := [] }

/-! ### Matrix operations (R229 to R245) -/

/-- What runs of a matrix operation, with the values it captured at issue. -/
structure MatRun where
  id : Nat
  instr : Instr
  cap : Captured
  /-- Register operand words captured at issue: key thread × 2^12 + register. -/
  regs : Table Word
  /-- Poisoned register words among them. -/
  poison : List Nat
  /-- The cores' stores at issue: a byte written since may be read as it was (R246). -/
  old : Table Core
  /-- Issued in handler mode: its registers are the understudy's (R191). -/
  inHandler : Bool
deriving DecidableEq, Repr, Inhabited

/-- Another operation that wrote frames of this one while it was outstanding (R246): its group, when it was published, the cores' stores
before that, and the frames whose flags an MFLAGC has cleared since. -/
structure Rival where
  group : Nat
  op : MatRun
  at_ : Nat
  cores : Table Core
  cleared : List (Nat × Nat)
deriving DecidableEq, Repr, Inhabited

/-- A core's accumulators with their flags and poison (R222). -/
structure Accs where
  acc : Table Word
  lost : Table Bool
  poison : Table Bool
deriving DecidableEq, Repr, Inhabited

/-- A matrix operation taken from the lane stream and not yet published. -/
structure MatOp extends MatRun where
  /-- Its unit has started it; it has completed (R233). -/
  started : Bool
  done : Bool
  /-- The frames that it reads, as its unit reads them when it starts it (R233, R246). -/
  view : Option Accs := none
  /-- Operations that wrote its frames meanwhile (R246). -/
  rivals : List Rival
deriving DecidableEq, Repr, Inhabited

/-- A closed batch (R241). -/
structure Batch where
  id : Nat
  ops : List MatOp
deriving DecidableEq, Repr, Inhabited

/-! ### Waits, traps, regions, pre-emption -/

/-- What a stream waits for (R70, R345): the model's record of a stalled instruction. -/
inductive Wait where
  | none
  | queueFull
  | counter
  /-- A store or an atomic: the limit of unacknowledged writes (R27), or a wrap sweep (R284). -/
  | store
  | guard
  | lsync
  | ewait
  | xwait
  | cwait
  | qpush
  | qpop
  | width
  | region
  | exit
  | release
  | mwait
  | mfence
  | xchg
  | scoreboard
  | acquire
  | load
  | unitFull
  | handlerBlock
  | yield
deriving DecidableEq, Repr, Inhabited

/-- A trap to be taken: cause (R188), PC, information, and the stream it arose in. -/
structure TrapInfo where
  cause : Nat
  pc : Dword
  info : Dword
  lane : Bool
  /-- The trapping fragment's table entry. -/
  frag : Nat
  /-- A step that its instruction did not wait for met it (R184, R307): the fragment may stand elsewhere. -/
  late : Bool
deriving DecidableEq, Repr, Inhabited

/-- The current region (R85, R137, R198). -/
inductive Region where
  | start
  | at (index : Nat) (entry : Dword)
  | absent
deriving DecidableEq, Repr, Inhabited

/-- Handler mode (R89, R191, R192, R194). -/
structure Handler where
  /-- Understudy v0-v63, key thread × 64 + register. -/
  regs : Table Word
  /-- Understudy pair tags, key thread × 32 + pair. -/
  tags : Table Tag
  /-- Understudy q8-q15 of each thread, in bits 8 to 15. -/
  preds : Table (BitVec 16)
  /-- Understudy s48-s63, key the register number. -/
  scalars : Table Word
  readLatch : Word
  writeLatch : Word
  lane : LaneStream
  /-- The resumption marks, carried counts, progress and completed steps of the group's threads at entry (R153). -/
  marks : Table (Bool × Nat × Nat × List TWord)
  /-- The queue wait of a scalar stream held by a lane trap. -/
  waitQueue : Option Nat
  /-- The trap that was taken. -/
  trap : TrapInfo
  /-- The scalar PC to resume at when the trap arose in the lane stream. -/
  scalarPc : Dword
deriving DecidableEq, Repr, Inhabited

/-- A group parked on a translation fault (R196). -/
structure Parked where
  /-- The fault record waited for; none while the ring was full (R325). -/
  fault : Option Nat
  va : Dword
  kind : Nat
  access : Nat
  lane : Bool
  frag : Nat
  pc : Dword
deriving DecidableEq, Repr, Inhabited

/-- A group waiting in WFUSE (R139). -/
structure FuseWait where
  tag : BitVec 12
  arrival : Nat
  sd : SReg
deriving DecidableEq, Repr, Inhabited

/-- A group waiting in XCHG (R269). -/
structure XchgWait where
  tag : BitVec 12
  arrival : Nat
  frag : Nat
  ops : LaneOps
deriving DecidableEq, Repr, Inhabited

/-- A pre-emption request (R200). -/
structure Preempt where
  /-- The tenant's timeout has expired. -/
  full : Bool
  /-- Dispatch again behind every undispatched group (R345). -/
  behind : Bool
deriving DecidableEq, Repr, Inhabited

/-- A saved group's registers (R200, R201): window words key thread × 2048 + register, tags key thread × 1024 + pair,
wings bytes of the group's tables, and whether the save was full. -/
structure Saved where
  full : Bool
  regs : Table Word
  tags : Table Tag
  wings : Table Byte
  wingTags : Table Tag
deriving DecidableEq, Repr, Inhabited

/-- Where a group stands in its life (R200, R343, R86). -/
inductive Life where
  | resident
  | saved
  | ended
deriving DecidableEq, Repr, Inhabited

/-! ### Groups (R27, R44 to R46, R88 to R90, R362) -/

/-- A group. -/
structure Group where
  life : Life
  /-- The launch it belongs to. -/
  launch : Nat
  /-- Package core index n (R13). -/
  core : Nat
  /-- Datapath of the core, 0 to 15. -/
  datapath : Nat
  /-- Resident-group place, 0 to 63 (R14). -/
  place : Nat
  /-- Order in which groups became resident (R142). -/
  admitted : Nat
  groupId : Nat
  castId : Nat
  companyId : Nat
  houseId : Nat
  groupCount : Nat
  w : Nat
  n : Nat
  /-- Register window base, a byte offset in the register area (R32). -/
  rwb : Nat
  /-- Bytes of unify-stack area held (R174). -/
  area : Nat
  /-- The declared groups its threads come from, in lane order: group index, first thread, number of threads (R42). -/
  origin : List (Nat × Nat × Nat)
  threads : Table Thread
  scalars : Table Word
  pc : Dword
  guards : Table Guard
  zs : Table (BitVec 512)
  mks : Table (BitVec 128)
  lane : LaneStream
  laneQ : List LaneEntry
  copyQ : List CopyEntry
  fabQ : List FabEntry
  batchCtr : BitVec 4
  openOps : List MatOp
  batches : List Batch
  engOut : Nat
  unack : Nat
  fabOut : Nat
  collOut : Nat
  fabStat : BitVec 2
  collStat : BitVec 2
  effect : Bool
  region : Region
  sticky : Word
  termBase : Dword
  termLim : Dword
  wingBase : Word
  wingSize : Word
  rndMode : Word
  trapCause : Word
  trapPc : Dword
  trapInfo : Dword
  readLatch : Word
  writeLatch : Word
  handler : Option Handler
  /-- A trap waiting for its handler: for the understudy window (R195), or for the other stream's instruction (R190). -/
  deferred : Option TrapInfo
  /-- Deferred POISONs of matrix operations, oldest first (R239): the lowest poisoned index of each. -/
  poisonDue : List Nat
  /-- Accesses that their instructions have issued and that are not performed, in the order of issue (R65, R71, R118). -/
  accesses : List Access
  /-- Accesses and steps that their instructions did not wait for and that met a poisoned word (R184). -/
  lates : List Late
  parked : Option Parked
  waitS : Wait
  waitL : Wait
  /-- When the group last became blocked, by the model's arrival counter (R345). -/
  blockedAt : Nat
  /-- The yield of SYIELD is running (R86). -/
  yielding : Bool
  fuse : Option FuseWait
  xchg : Option XchgWait
  /-- The binding of the queue a queue instruction began to wait on (R255). -/
  waitQueue : Option Nat
  /-- An acquire of the scalar or the lane stream that has not completed: its scope, and whether its own wrap sweep runs; until
  then it waits for another's sweep (R284). -/
  acqS : Option (Nat × Bool)
  acqL : Option (Nat × Bool)
  /-- A release of each stream that takes its place in the fence order: the first request number after its L1's bytes have left
  (R387). -/
  relS : Option Nat
  relL : Option Nat
  /-- Ordered reads of each stream's running instruction on their way (R287, R288). -/
  readsS : List Nat
  readsL : List Nat
  /-- The access of the stream's running instruction was performed by the retry fall-back (R288). -/
  fellS : Bool
  fellL : Bool
  /-- An atomic of the lane stream's running instruction could not reach its home: its acquire is not performed (R313). -/
  lostL : Bool
  /-- What an instruction of the scalar stream has brought and not yet written (SLDAQ, QPOP, QTRY.POP). -/
  answer : Option Dword
  /-- Atomics of the lane stream's running instructions on their way to the homes, with their threads. -/
  reqs : List (Nat × Nat)
  /-- Threads whose atomic of the running instruction met a word tagged POI (R184, R302). -/
  poisoned : List Nat
  /-- RACQ in progress (R289): 0 none, 1 order sent, 2 drained, 3 replied; and its victim core. -/
  racq : Nat
  racqCore : Nat
  /-- Since the last energy update (R356): issue slots, array cycles and store accesses on its island, bytes that L2 and memory
  served to it, and the die clock from which its residence counts. -/
  work : Nat
  served : Nat
  since : Nat
  preempt : Option Preempt
  saved : Option Saved
  /-- Handler mode is not entered while the watchdog's TRAPPC is unchanged (R126): the PC of the last watchdog trap. -/
  watchdogPc : Option Dword
deriving DecidableEq, Repr, Inhabited

/-- A group at launch start, before placement (R25, R27, R40, R90, R362). -/
def Group.start : Group :=
  { life := .resident, launch := 0, core := 0, datapath := 0, place := 0, admitted := 0, groupId := 0, castId := 0, companyId := 0
    houseId := 0, groupCount := 1, w := 32, n := 2, rwb := 0, area := 0, origin := [], threads := [], scalars := [], pc := 0
    guards := [], zs := [], mks := [], lane := .idle 32, laneQ := [], copyQ := [], fabQ := [], batchCtr := 0
    openOps := [], batches := [], engOut := 0, unack := 0, fabOut := 0, collOut := 0, fabStat := 0, collStat := 0
    effect := false, region := .start, sticky := 0, termBase := 0, termLim := 0, wingBase := 0, wingSize := 0
    rndMode := 0, trapCause := 0, trapPc := 0, trapInfo := 0, readLatch := 0, writeLatch := 0, handler := none
    deferred := none, poisonDue := [], accesses := [], lates := [], parked := none, waitS := .none, waitL := .none, blockedAt := 0
    yielding := false, fuse := none, xchg := none, waitQueue := none, acqS := none, acqL := none, relS := none, relL := none
    readsS := [], readsL := [], fellS := false, fellL := false, lostL := false, answer := none, reqs := [], poisoned := [], racq := 0, racqCore := 0, work := 0, served := 0, since := 0, preempt := none, saved := none, watchdogPc := none }

/-! ### L1 (R279 to R289) -/

/-- An L1 line: bytes and tags held, and the groups' bytes not yet sent (R279, R283, R285). -/
structure Line where
  data : BitVec 1024
  valid : BitVec 128
  dirty : BitVec 128
  tags : BitVec 64
  tagKnown : BitVec 16
  tagDirty : BitVec 16
  c : Nat
  h : Nat
  p : Nat
  s : Nat
  pinned : Bool
  /-- Bytes and tags of pinning releases, which stay until the line is unpinned (R285). -/
  held : BitVec 128
  heldTags : BitVec 16
  /-- Bytes of each group that no write request carries yet. -/
  unsent : Table (BitVec 128)
  /-- Words whose tag a group's unsent stores carry. -/
  unsentTags : Table (BitVec 16)
deriving DecidableEq, Repr, Inhabited

/-- The L1 of a core, or of a cluster when fused (R267). -/
structure L1 where
  c : Nat
  h : Nat
  p : Nat
  s : Nat
  lines : Table (Option Line)
  /-- Pinned lines, oldest first (R285). -/
  pins : List Nat
  /-- A wrap sweep is running (R284). -/
  sweeping : Bool
  /-- That sweep is the one of a RACQ drain (R289). -/
  drainSweep : Bool
  /-- A RACQ drain is running for this requester (R289). -/
  draining : Option Nat
  /-- First request number after the drain order's arrival. -/
  drainFrom : Nat
deriving DecidableEq, Repr, Inhabited

def L1.start : L1 := { c := 0, h := 0, p := 0, s := 0, lines := [], pins := [], sweeping := false, drainSweep := false, draining := none, drainFrom := 0 }

/-! ### Requests to the homes (R278 to R289, R298 to R311) -/

/-- What a request asks of a home. -/
inductive ReqKind where
  /-- A line read that fills the L1. -/
  | read
  /-- A write request: bytes, mask, tags, tag mask, whether it unpins (R279, R286). -/
  | write (data : BitVec 1024) (mask : BitVec 128) (tags : BitVec 64) (tagMask : BitVec 16) (unpin : Bool)
  | atomic (a : AtomReq)
  /-- A pin registration (R285). -/
  | pin
  /-- A prefetch into the home slice (R182). -/
  | prefetch
deriving DecidableEq, Repr, Inhabited

/-- Where a request stands. -/
inductive ReqStage where
  /-- Waiting at the slice for its turn (R293). -/
  | waiting
  /-- Selected by the slice, to be performed. -/
  | granted
  /-- Performed; its reply is on the way. -/
  | replied
  /-- Refused by a pin, to be sent again (R287). -/
  | refused
deriving DecidableEq, Repr, Inhabited

/-- A request. -/
structure Req where
  kind : ReqKind
  stage : ReqStage
  /-- The L1 it comes from. -/
  l1 : Nat
  /-- The group, and its context. -/
  group : Nat
  context : Nat
  /-- Physical line number, PA / 128. -/
  line : Nat
  /-- The slice it waits at, and the order in which requests reached their slices (R277). -/
  slice : Nat
  arrived : Nat
  /-- It serves the lane stream. -/
  lane : Bool
  /-- Acquire or release semantics, which a pin refuses (R287), and their scope. -/
  ordered : Bool
  scope : Nat
  tries : Nat
  /-- Reply: the line as the home or the visitor copy gave it. -/
  data : BitVec 1024
  tags : BitVec 64
  /-- Counter values of the L1 when the fill was requested (R283). -/
  c : Nat
  h : Nat
  p : Nat
  s : Nat
  /-- The visitor version when the fill was requested (R281). -/
  visitor : Nat
  /-- Whether the fall-back of R288 performed it. -/
  fellBack : Bool
  /-- Only a PREF asked for it (R182). -/
  prefetch : Bool
deriving DecidableEq, Repr, Inhabited

/-! ### Slices and sectors (R276, R281, R290 to R296) -/

/-- A slice's record of a context (R290, R292). -/
structure SliceContext where
  rate : BitVec 16
  depth : BitVec 16
  borrow : BitVec 16
  wayMask : BitVec 16
  tokens : BitVec 16
  debt : BitVec 16
  wait : BitVec 32
  /-- Fractional refill, below 256. -/
  credit : Nat
deriving DecidableEq, Repr, Inhabited

/-- Reset values of R290. -/
def SliceContext.start : SliceContext :=
  { rate := 0, depth := 0, borrow := 0, wayMask := 0xFFFF, tokens := 0, debt := 0, wait := 0, credit := 0 }

/-- A visitor copy (R281). -/
structure Visitor where
  data : BitVec 1024
  tags : BitVec 64
  version : Nat
deriving DecidableEq, Repr, Inhabited

/-- A way of a set: the line and the context that filled it (R294). -/
structure Way where
  line : Nat
  context : Nat
  visitor : Bool
deriving DecidableEq, Repr, Inhabited

/-- An L2 slice. -/
structure Slice where
  dark : Bool
  /-- Its buckets are being moved away (R296); requests that arrive meanwhile are held. -/
  moving : Bool
  held : List Nat
  errors : Nat
  contexts : Table SliceContext
  /-- Round-robin pointers of the two steps of R293. -/
  payNext : Nat
  borrowNext : Nat
  /-- Requests waiting, oldest first, as identifiers. -/
  queue : List Nat
  /-- Cycles of the die clock that the slice has passed, and whether it has served its requests in the present one (R291). -/
  cycle : Nat
  served : Bool
  /-- Ways, by set × 16 + way. -/
  ways : Table (Option Way)
  /-- Ways of each set, least recently used first. -/
  lru : Table (List Nat)
  visitors : Table (Option Visitor)
  /-- Pins recorded: line and L1 (R285). -/
  pins : List (Nat × Nat)
deriving DecidableEq, Repr, Inhabited

def Slice.start : Slice :=
  { dark := false, moving := false, held := [], errors := 0, contexts := [], payNext := 0, borrowNext := 0, queue := [], cycle := 0, served := false
    ways := [], lru := [], visitors := [], pins := [] }

/-- A sector: its visitor version, and where its bucket table departs from the start assignment (R276, R282). -/
structure Sector where
  visitor : Nat
  /-- Slice of a moved bucket. -/
  buckets : Table (Option Nat)
  failed : Bool
deriving DecidableEq, Repr, Inhabited

def Sector.start : Sector := { visitor := 0, buckets := [], failed := false }

/-- A reservation (R309): group, thread, 128-byte granule. -/
structure Resv where
  group : Nat
  thread : Nat
  granule : Nat
deriving DecidableEq, Repr, Inhabited

/-- A cached translation (R323): context, 64 KiB page of the virtual address, leaf entry and page size. -/
structure TlbEntry where
  context : Nat
  page : Nat
  pte : Dword
  big : Bool
deriving DecidableEq, Repr, Inhabited

/-! ### Engine, fabric and collective commands (R250 to R254, R271, R363, R368) -/

/-- The stores as a command found them when it left its queue: a source byte written since may be read as it was (R246, R253,
R366). -/
structure Past where
  command : Nat
  mem : Table Byte
  tags : Table Tag
  check : Table (BitVec 16)
  cores : Table Core
  l1s : Table L1
deriving DecidableEq, Repr, Inhabited

/-- Of a command still in its queue. -/
def Past.none : Past := { command := 0, mem := [], tags := [], check := [], cores := [], l1s := [] }

/-- A delivery of a multicast at one cluster (R271). -/
inductive Delivery where
  | pending
  /-- Its range is locked and elements are written (R253), into the cast of this binding: how many. -/
  | arriving (binding moved : Nat)
  /-- Data landed; the push waits on a full ring, that of this binding. -/
  | landed (binding : Nat)
  | done
  | nacked
  | failed
deriving DecidableEq, Repr, Inhabited

/-- A copy-engine command that has left its queue (R185, R253). -/
structure CopyCmd where
  group : Nat
  launch : Nat
  core : Nat
  context : Nat
  op : CopyOp
  zd : BitVec 512
  zs : BitVec 512
  past : Past
  /-- The copy is made and only the CPYQ push is due, into this binding (R257). -/
  pushing : Option Nat
  /-- A multicast's elements with their tags, once read (R271). -/
  data : Option (List (Nat × Tag))
  /-- By cluster. -/
  deliveries : List (Nat × Delivery)
  /-- Elements moved before the command's completion, the first of the destination's order (R251, R253). -/
  moved : Nat
deriving DecidableEq, Repr, Inhabited

/-- A fabric transfer that has left its queue (R363). -/
structure FabCmd where
  group : Nat
  launch : Nat
  core : Nat
  context : Nat
  get : Bool
  z : BitVec 512
  target : Word
  offset : Word
  signal : Word
  past : Past
deriving DecidableEq, Repr, Inhabited

/-- An open collective instance of this package's rank (R368). -/
structure CollCmd where
  group : Nat
  launch : Nat
  core : Nat
  context : Nat
  kind : Nat
  op : Nat
  zd : BitVec 512
  zs : BitVec 512
  set : Word
  seq : Word
  past : Past
  /-- Ended by an Abort: NACK or ERROR (R369). -/
  aborted : Option Bool
deriving DecidableEq, Repr, Inhabited

/-- A word that a packet of a transfer on its way has poisoned and that other packets of it write too (R363): who sends it, its region
and bytes there, and the word's address / 8. -/
structure Brought where
  source : BitVec 12
  region : BitVec 12
  first : Nat
  total : Nat
  word : Nat
deriving DecidableEq, Repr, Inhabited

/-- Contributions landed in a staging buffer: set, sequence, rank (R368). -/
structure Landed where
  set : Nat
  seq : BitVec 32
  rank : Nat
deriving DecidableEq, Repr, Inhabited

/-! ### Launches (R335 to R345, R355, R356) -/

/-- A launch record's fields (R337). -/
structure LaunchRecord where
  scode : Dword
  lcode : Dword
  rtab : Dword
  qtab : Dword
  slen : Nat
  llen : Nat
  params : Table Word
  width : Nat
  n : Nat
  groups : Nat
  casts : Nat
  cscr : Nat
  sarea : Nat
  rarea : Nat
  fused : Bool
  cores : Bool
  prio : Nat
  place : BitVec 12
  chain : Nat
  first : Nat
  count : Nat
  trapent : Nat
  watchdog : Nat
  udepth : Nat
  enid : Nat
  ftarget : Nat
  ramp : Bool
  steplen : Nat
  rtlen : Nat
  qcount : Nat
  aframes : Nat
  deps : List Nat
  doneEvent : Nat
  /-- Every field lies in its range and every reserved bit is zero (R339). -/
  valid : Bool
deriving DecidableEq, Repr, Inhabited

/-- The fields of no record. -/
def LaunchRecord.none : LaunchRecord :=
  { scode := 0, lcode := 0, rtab := 0, qtab := 0, slen := 0, llen := 0, params := [], width := 8, n := 1, groups := 1
    casts := 1, cscr := 8, sarea := 8, rarea := 0, fused := false, cores := false, prio := 0, place := 0, chain := 0
    first := 0, count := 0, trapent := 0, watchdog := 0, udepth := 1, enid := 0, ftarget := 7, ramp := false
    steplen := 0, rtlen := 0, qcount := 0, aframes := 768, deps := [], doneEvent := 0, valid := true }

/-- A cast saved with its scratch, frames and queue bindings (R349). -/
structure SavedCast where
  scratch : Table Byte
  scratchTags : Table Tag
  acc : Table Word
  lost : Table Bool
  accPoison : Table Bool
  queues : Table (Option Queue)
deriving DecidableEq, Repr, Inhabited

/-- A cast of a launch on a core (R19, R343). -/
structure Cast where
  core : Nat
  castId : Nat
  companyId : Nat
  /-- Base of its scratch in the scratchpad area, and its size in bytes. -/
  scratch : Nat
  scratchSize : Nat
  /-- First accumulator frame. -/
  frame : Nat
  saved : Option SavedCast
deriving DecidableEq, Repr, Inhabited

/-- The fade of a launch (R90, R355). -/
structure Fade where
  phase : Nat
  step : Nat
  /-- Array cycles of each core when the step of a ramp-down began. -/
  used : Table Nat
deriving DecidableEq, Repr, Inhabited

/-- An admitted launch that has not completed. -/
structure Launch where
  launchId : Word
  record : LaunchRecord
  queue : Nat
  context : Nat
  partition : Nat
  casts : List Cast
  /-- Groups still to be dispatched: cast index and group index, or a saved group. -/
  todo : List (Nat × Nat)
  requeued : List Nat
  /-- Saved groups that stand behind every undispatched one (R345). -/
  behind : List Nat
  /-- Groups of the launch that have not exited. -/
  left : Nat
  fade : Fade
  /-- Energy in 2^-16 J (R90). -/
  energy : Dword
  /-- Order of admission. -/
  order : Nat
  /-- Status and trap values once it must end (R342). -/
  ending : Option (Nat × TrapInfo)
  /-- A group of the launch has been dispatched (R355). -/
  started : Bool
  /-- Since the last energy update (R356): filler of its ramp-down by cluster (R355), bytes served to its engine and fabric commands,
  and cycles of groups that are no longer resident. -/
  filler : Table Nat
  served : Nat
  cycles : Nat
deriving DecidableEq, Repr, Inhabited

/-- Register contents a chained launch inherits (R42): chain, geometry, and each group's registers. -/
structure ChainImage where
  chain : Nat
  width : Nat
  n : Nat
  groups : Nat
  first : Nat
  count : Nat
  /-- PLACE of the record, and the cores of the casts in cast order. -/
  place : BitVec 12
  cores : List Nat
  /-- By core × 64 + group index: registers (key thread × 2048 + register) and tags (thread × 1024 + pair). -/
  regs : Table (Table Word)
  tags : Table (Table Tag)
deriving DecidableEq, Repr, Inhabited

/-- A queue of launch records (R334 to R336). -/
structure WorkQueue where
  head : Nat
  announced : Nat
  /-- Notify stores of records that the head has not passed, oldest first (R343): the index each announced up to, and its arrival. -/
  notified : List (Nat × Nat)
deriving DecidableEq, Repr, Inhabited

/-- An open fault record (R324). -/
structure FaultRecord where
  id : Nat
  context : Nat
  range : Nat
deriving DecidableEq, Repr, Inhabited

/-! ### Package registers (R327) -/

/-- The driver registers that hold a value. -/
structure Driver where
  localSel : BitVec 4
  domainId : BitVec 12
  htime : Dword
  retryLim : BitVec 16
  darkThr : BitVec 16
  tagBase : Dword
  landBase : Dword
  collBase : Dword
  qdBase : Dword
  routeBase : Dword
  /-- Partition descriptors, by 8-byte unit: 16 × p + unit (R346). -/
  parts : Table Dword
  /-- ROOT x (R327). -/
  roots : Table Dword
  invCtx : Word
  invVa : Dword
  invLen : Dword
  invDone : Bool
  invBusy : Bool
  frBase : Dword
  frSize : BitVec 4
  frProd : Word
  frCons : Word
  freplyId : Dword
  badId : Bool
  badSet : Bool
  errBase : Dword
  errSize : BitVec 4
  errProd : Word
  errCons : Word
  errLost : Word
  featEn : BitVec 128
  featSt : BitVec 2
  imgBase : Dword
  imgLen : Word
  imgDone : Bool
  imgFail : Bool
  attDone : Bool
  attLen : BitVec 6
  attBuf : Dword
  /-- Nonce, by 8-byte unit. -/
  attNonce : Table Dword
  /-- Low halves of 8-byte registers written as two halves, and low units of wider ones (R326), by offset. -/
  latches : Table Dword
deriving DecidableEq, Repr, Inhabited

/-- Driver registers at device start: reset values of R327 and R395 where given, otherwise zero (log 13). -/
def Driver.start : Driver :=
  { localSel := 2, domainId := 0, htime := 0, retryLim := 0, darkThr := 0, tagBase := 0, landBase := 0, collBase := 0
    qdBase := 0, routeBase := 0, parts := [], roots := [], invCtx := 0, invVa := 0, invLen := 0, invDone := false
    invBusy := false, frBase := 0, frSize := 0, frProd := 0, frCons := 0, freplyId := 0, badId := false, badSet := false
    errBase := 0, errSize := 0, errProd := 0, errCons := 0, errLost := 0, featEn := 0, featSt := 0, imgBase := 0
    imgLen := 0, imgDone := false, imgFail := false, attDone := false, attLen := 0, attBuf := 0, attNonce := [], latches := [] }

/-- An entry of the failed-step record (R394). -/
structure FailedStep where
  step : Nat
  unit : Nat
  attempts : Nat
  action : Nat
deriving DecidableEq, Repr, Inhabited

/-- Start and trust (R393 to R397). -/
structure Boot where
  /-- Boot step running or last completed; 0 before the start. -/
  step : Nat
  ready : Bool
  halted : Bool
  /-- A launch has been admitted since the start: FEATEN is fixed (R395). -/
  fixed : Bool
  /-- The failed-step record, in non-volatile store. -/
  record : List FailedStep
  /-- The record as this start took it: which units are mapped out until the next (R393). -/
  applied : List FailedStep
  /-- The stored firmware image. -/
  image : List Byte
  /-- Digests of step 3. -/
  imageDigest : BitVec 256
  recordDigest : BitVec 256
deriving DecidableEq, Repr, Inhabited

/-- An island's power limits and clock (R274, R353). -/
structure Island where
  cap : Nat
  thermal : Nat
  /-- Of each partition (R347); 7 where a partition's cap sets none. -/
  part : Table Nat
  row : Nat
  /-- Clock steps below 3.0 GHz: 0, 1, 2. -/
  slow : Nat
  /-- Cycles counted so far (R90). -/
  cycles : Nat
  failed : Bool
deriving DecidableEq, Repr, Inhabited

/-- Levels at their highest (log 18). -/
def Island.start : Island := { cap := 7, thermal := 7, part := [], row := 7, slow := 0, cycles := 0, failed := false }

/-- A fabric router's power (R373). -/
structure Router where
  down : Bool
  /-- The die clock when it last had work. -/
  last : Nat
deriving DecidableEq, Repr, Inhabited

def Router.start : Router := ⟨false, 0⟩

/-- A fabric port (R359). -/
structure Port where
  down : Bool
  resends : Nat
deriving DecidableEq, Repr, Inhabited

/-- A partition's running state (R351, R352, R356). -/
structure PartState where
  floor : Dword
  /-- A pause is under way: no group is made resident. -/
  pausing : Bool
  paused : Bool
  /-- Host time at the pause. -/
  pausedAt : Nat
  energy : Table Dword
  /-- The context running (R348). -/
  context : Nat
deriving DecidableEq, Repr, Inhabited

def PartState.start : PartState :=
  { floor := 0, pausing := false, paused := false, pausedAt := 0, energy := [], context := 0 }

/-! ### The whole -/

/-- Which agent moves next, and what comes from outside (log 2). -/
inductive Turn where
  /-- The scalar stream of a group issues. -/
  | scalar (group : Nat)
  /-- The lane stream of a group issues. -/
  | lane (group : Nat)
  /-- The lane stream of a group issues an atomic ahead of the instruction it stands at (R307). -/
  | ahead (group : Nat)
  /-- Two RED.COM requests that meet become one (R308). -/
  | merge (req other : Nat)
  /-- Device writes of a 64-byte block become visible to the host (R332). -/
  | hostDeliver (block : Nat)
  /-- An event of the opcode table. -/
  | event (i : Instr)
  /-- A translation cache takes up the entry the tables now hold for a page (R323). -/
  | tlbFill (context page : Nat)
  /-- A cached translation is dropped (R323). -/
  | tlbDrop (context page : Nat)
  /-- An L1 evicts a line (R286). -/
  | evict (l1 line : Nat)
  /-- The host reads a driver register (R326). -/
  | driverRead (offset size : Nat)
  /-- The host reads its own memory (R332). -/
  | hostRead (pa size : Nat)
  /-- The driver resumes a paused partition, at a migration with the FLOOR of the source package (R352). -/
  | resume (partition : Nat) (floor : Option Dword)
  /-- Time passes, in nanoseconds (R351). -/
  | tick (ns : Nat)
  /-- An access on its way is performed, as far as it can be (R65, R118). -/
  | access (group id : Nat)
  /-- A copy command moves its next element before its completion, a multicast one of its delivery at a cluster (R253). -/
  | engineMove (cmd cluster : Nat)
  /-- Nothing moves. -/
  | idle
deriving DecidableEq, Repr, Inhabited

/-- The package. -/
structure State where
  /-- Package and host memory bytes, by physical address (R5, R319, R331). -/
  mem : Table Byte
  /-- Word tags, by physical address / 8 (R24). -/
  tags : Table Tag
  /-- Difference of each 64-byte block's check value from the CRC of its contents (R398): 0 where they agree. -/
  check : Table (BitVec 16)
  /-- Bytes of host memory as the host still sees them, where a device write is not yet visible to it (R332). -/
  hostView : Table (Option Byte)
  /-- Blocks of host memory that the link handed to the host with its poison indication (R399). -/
  hostBad : List Nat
  groups : Table Group
  cores : Table Core
  l1s : Table L1
  /-- Fused setting of each cluster while a group is resident (R266). -/
  fused : Table (Option Bool)
  slices : Table Slice
  sectors : Table Sector
  reqs : Table (Option Req)
  resvs : List Resv
  tlb : List TlbEntry
  copyCmds : Table (Option CopyCmd)
  fabCmds : Table (Option FabCmd)
  collCmds : Table (Option CollCmd)
  landed : List Landed
  brought : List Brought
  /-- Aborts of instances not yet opened here: set, sequence, whether with NACK (R369). -/
  aborts : List (Nat × BitVec 32 × Bool)
  /-- The instance that ended last in each staging buffer, by 2 × set + buffer (R368). -/
  collEnded : Table (Option (BitVec 32))
  launches : Table (Option Launch)
  chains : List ChainImage
  workQueues : Table WorkQueue
  /-- Queues in the 32 active slots (R336). -/
  slots : Table (Option Nat)
  pendingQueues : List Nat
  faults : List FaultRecord
  nextFault : Nat
  driver : Driver
  boot : Boot
  islands : Table Island
  routers : Table Router
  /-- The die clock when the fabric complex last had work (R373). -/
  fabricUse : Nat
  ports : Table Port
  partitions : Table PartState
  /-- Memory stacks that have failed, and the corrected errors that each has counted (R357). -/
  deadStacks : List Nat
  stackErrors : Table Nat
  /-- Corrected errors in flits of the ring and the links (R297). -/
  linkErrors : Table Nat
  /-- Links that have failed (R297): k of a die's ring joins its sectors k and k + 1 modulo 3, numbered 3 × die + k; 6 is the
  die-to-die link. -/
  linksDown : List Nat
  /-- The fabric complex works no more (R359). -/
  fabricDown : Bool
  /-- Host time H in nanoseconds (R351). -/
  hostTime : Nat
  /-- Cycles of the die clock since power-on, 3 to a nanosecond (R291). -/
  clock : Nat
  /-- Interrupts sent on vectors 0 and 1 (R328, R330). -/
  irqs : Nat × Nat
  /-- The last value a host read returned (R326, R331), and whether the link marked it poisoned (R399). -/
  hostData : Dword
  hostPoison : Bool
  /-- Units that have logged a corrected error in the current interval: point and unit (R330). -/
  logged : List (Nat × Nat)
  /-- A crossbar error due on a group's next CLUSTER access (R275). -/
  apertureErrors : List Nat
  /-- The group whose instruction executes. -/
  cur : Nat
  /-- Numbers for new requests, commands, operations and arrivals. -/
  fresh : Nat
  /-- Counter of the free values (log 9). -/
  free : Nat
  /-- Place of the last stream that issued, while the agenda is empty (log 2). -/
  rr : Nat
  agenda : List Turn
deriving DecidableEq, Repr, Inhabited

/-- Why the machine stops with a fault. -/
inductive Fault where
  /-- A turn of the agenda presents an instruction of a stream as an event: raised by `step`. Safe. -/
  | badTurn
deriving DecidableEq, Repr, Inhabited

/-- Why an instruction has no meaning here. -/
inductive Refusal where
  /-- An instruction without a meaning yet: raised by its arm of `exec`. Safe. -/
  | notModelled (mnemonic : String)
deriving DecidableEq, Repr, Inhabited

/-- The outcomes of a step on this machine. -/
abbrev Ans := Host.Outcome State Fault Refusal

/-- The package before its start (R393): boot step 0, every store empty, every register at the value the spec gives or
the log names (log 13). -/
def State.reset : State :=
  { mem := [], tags := [], check := [], hostView := [], hostBad := [], groups := [], cores := [], l1s := [], fused := [], slices := [], sectors := []
    reqs := [], resvs := [], tlb := [], copyCmds := [], fabCmds := [], collCmds := [], landed := [], brought := [], aborts := [], collEnded := [], launches := []
    chains := [], workQueues := [], slots := [], pendingQueues := [], faults := [], nextFault := 1, driver := .start
    boot := { step := 0, ready := false, halted := false, fixed := false, record := [], applied := [], image := [], imageDigest := 0, recordDigest := 0 }
    islands := [], routers := [], fabricUse := 0, ports := [], partitions := [], deadStacks := [], stackErrors := [], linkErrors := [], linksDown := [], fabricDown := false
    hostTime := 0, clock := 0, irqs := (0, 0), hostData := 0, hostPoison := false, logged := [], apertureErrors := [], cur := 0, fresh := 0, free := 0, rr := 0, agenda := [] }

end Sys2Proof.Machine
end

