-- ==== Sys2Proof/Machine/Ops.lean ====
section
/-!
DEFINITION. Named operations over the state: groups, registers, predicates, feature bits, waits, ending a launch, taking
a trap (R190 to R195) and returning from one.
-/
namespace Sys2Proof.Machine

/-- N in force for a declared or requested size: odd sizes above 1 are rounded up by one (R32). -/
def roundN (n : Nat) : Nat := if n > 1 ∧ n % 2 = 1 then n + 1 else n

/-! ### Parts of the state by number -/

def State.group (s : State) (g : Nat) : Group := s.groups.get Group.start g
def State.setGroup (s : State) (g : Nat) (x : Group) : State := { s with groups := s.groups.set Group.start g x }
/-- The group whose instruction executes. -/
def State.grp (s : State) : Group := s.group s.cur
def State.setGrp (s : State) (x : Group) : State := s.setGroup s.cur x
/-- The executing group changed by `f`. -/
def State.upd (s : State) (f : Group → Group) : State := s.setGrp (f s.grp)
def State.core (s : State) (n : Nat) : Core := s.cores.get Core.start n
def State.setCore (s : State) (n : Nat) (x : Core) : State := { s with cores := s.cores.set Core.start n x }
def State.l1 (s : State) (n : Nat) : L1 := s.l1s.get L1.start n
def State.setL1 (s : State) (n : Nat) (x : L1) : State := { s with l1s := s.l1s.set L1.start n x }
def State.slice (s : State) (k : Nat) : Slice := s.slices.get Slice.start k
def State.setSlice (s : State) (k : Nat) (x : Slice) : State := { s with slices := s.slices.set Slice.start k x }
def State.sector (s : State) (h : Nat) : Sector := s.sectors.get Sector.start h
def State.setSector (s : State) (h : Nat) (x : Sector) : State := { s with sectors := s.sectors.set Sector.start h x }
def State.island (s : State) (c : Nat) : Island := s.islands.get Island.start c
def State.part (s : State) (p : Nat) : PartState := s.partitions.get PartState.start p
def State.launch? (s : State) (l : Nat) : Option Launch := s.launches.get none l
def State.setLaunch (s : State) (l : Nat) (x : Option Launch) : State := { s with launches := s.launches.set none l x }
def State.req? (s : State) (r : Nat) : Option Req := s.reqs.get none r
def State.setReq (s : State) (r : Nat) (x : Option Req) : State := { s with reqs := s.reqs.set none r x }

/-- The launch record of a group (R337). -/
def State.recordOf (s : State) (g : Group) : LaunchRecord :=
  match s.launch? g.launch with
  | some l => l.record
  | none => .none

/-- The frames of a cast (R337). -/
def LaunchRecord.frames (r : LaunchRecord) : Nat := if r.aframes = 0 then 768 else r.aframes

/-- A fade has a ramp (R355). -/
def LaunchRecord.ramps (r : LaunchRecord) : Bool := r.ramp && decide (r.ftarget > 1)

/-- The context of a group (R321, R334). -/
def State.contextOf (s : State) (g : Group) : Nat :=
  match s.launch? g.launch with
  | some l => l.context
  | none => 0

/-- The partition of a group (R346). -/
def State.partitionOf (s : State) (g : Group) : Nat :=
  match s.launch? g.launch with
  | some l => l.partition
  | none => 0

/-- The cast of a launch on a core (R19). -/
def State.castOn (s : State) (launch core : Nat) : Option Cast :=
  match s.launch? launch with
  | some l => l.casts.find? fun c => c.core == core
  | none => none

/-- The groups with their numbers. -/
def State.groupList (s : State) : List (Nat × Group) := s.groups

/-- The groups resident on a core. -/
def State.residents (s : State) (core : Nat) : List (Nat × Group) :=
  s.groups.filter fun x => x.2.life == .resident && x.2.core == core

/-- A fresh number. -/
def State.take (s : State) : Nat × State := (s.fresh, { s with fresh := s.fresh + 1 })

/-- Feature bit of FEATEN (R395). -/
def State.feature (s : State) (k : Nat) : Bool := s.driver.featEn.getLsbD k

/-! ### Arithmetic helpers -/

/-- A field of an instruction sign-extended to an address. -/
def sext {n : Nat} (x : BitVec n) : Dword := x.signExtend 64

/-- Bit `t` of a mask. -/
def inMask (m : BitVec 128) (t : Nat) : Bool := m.getLsbD t

/-- The mask of a list of threads. -/
def maskOf (ts : List Nat) : BitVec 128 := ts.foldl (fun m t => m ||| (1#128 <<< t)) 0

/-- The threads of a mask, ascending. -/
def threadsOf (m : BitVec 128) : List Nat := (List.range 128).filter (inMask m)

/-- `n` set bits from bit 0. -/
def lowMask (n : Nat) : BitVec 128 := BitVec.ofNat 128 (2 ^ n - 1)

/-! ### Scalar registers (R27, R28, R191) -/

/-- The register's home: s48-s63 are the handler's own in handler mode (R191); s0 reads zero. -/
def Group.rdS (g : Group) (r : Nat) : Word :=
  if r = 0 then 0
  else
    match g.handler with
    | some h => if r ≥ 48 then h.scalars.get 0 r else g.scalars.get 0 r
    | none => g.scalars.get 0 r

/-- A write; one to s0 is discarded (R27). -/
def Group.wrS (g : Group) (r : Nat) (v : Word) : Group :=
  if r = 0 then g
  else
    match g.handler with
    | some h =>
      if r ≥ 48 then { g with handler := some { h with scalars := h.scalars.set 0 r v } }
      else { g with scalars := g.scalars.set 0 r v }
    | none => { g with scalars := g.scalars.set 0 r v }

/-- A 64-bit pair: the even register holds the low half (R28). -/
def Group.rdPair (g : Group) (r : Nat) : Dword := pairOf (g.rdS r) (g.rdS (r + 1))

/-- A 64-bit result; on s0:s1 the low half is discarded (R28). -/
def Group.wrPair (g : Group) (r : Nat) (v : Dword) : Group := (g.wrS r (loHalf v)).wrS (r + 1) (hiHalf v)

/-! ### Lane streams -/

/-- The lane stream that issues: the handler's in handler mode (R192). -/
def Group.stream (g : Group) : LaneStream :=
  match g.handler with
  | some h => h.lane
  | none => g.lane

def Group.setStream (g : Group) (l : LaneStream) : Group :=
  match g.handler with
  | some h => { g with handler := some { h with lane := l } }
  | none => { g with lane := l }

/-- An empty fragment, for absent entries. -/
def Fragment.none : Fragment := { mask := 0, pc := 0, state := .waiting, count := 0 }

/-- The current fragment. -/
def LaneStream.frag (l : LaneStream) : Fragment := l.frags.get Fragment.none l.cur

def LaneStream.setFrag (l : LaneStream) (k : Nat) (f : Fragment) : LaneStream :=
  { l with frags := l.frags.set Fragment.none k f }

/-- Whether the instruction that a fragment stands at has begun (R190). -/
def LaneStream.setIssued (l : LaneStream) (k : Nat) (b : Bool) : LaneStream :=
  l.setFrag k { l.frags.get Fragment.none k with issued := b }

/-- Some fragment's instruction has begun and is not finished. -/
def LaneStream.unfinished (l : LaneStream) : Bool := l.frags.any fun x => x.2.issued

/-- The lane stream has no started block and no queued one (R71). -/
def Group.laneIdle (g : Group) : Bool := !g.lane.running && g.laneQ.isEmpty

/-! ### Threads and predicates (R25, R26, R191) -/

def Group.thread (g : Group) (t : Nat) : Thread := g.threads.get Thread.start t
def Group.setThread (g : Group) (t : Nat) (x : Thread) : Group :=
  { g with threads := g.threads.set Thread.start t x }

/-- The thread has completed something of the instruction being reissued (R153). -/
def Thread.begun (x : Thread) : Bool := x.mark || x.carry != 0 || x.progress != 0 || !x.done.isEmpty

/-- Its marks, counts and completed steps forgotten. -/
def Thread.unmarked (x : Thread) : Thread := { x with mark := false, carry := 0, progress := 0, done := [] }

/-- A predicate of a thread: q0 is always true; q8-q15 are the handler's own in handler mode (R191). -/
def Group.pred (g : Group) (t q : Nat) : Bool :=
  if q = 0 then true
  else
    match g.handler with
    | some h => if q ≥ 8 then (h.preds.get 0 t).getLsbD q else (g.thread t).preds.getLsbD q
    | none => (g.thread t).preds.getLsbD q

/-- A 16-bit word with bit `q` set to `v`. -/
def setBit16 (x : BitVec 16) (q : Nat) (v : Bool) : BitVec 16 :=
  if v then x ||| (1#16 <<< q) else x &&& ~~~(1#16 <<< q)

/-- A write of a predicate; q0 stays true (R26). -/
def Group.setPred (g : Group) (t q : Nat) (v : Bool) : Group :=
  if q = 0 then g
  else
    match g.handler with
    | some h =>
      if q ≥ 8 then { g with handler := some { h with preds := h.preds.set 0 t (setBit16 (h.preds.get 0 t) q v) } }
      else g.setThread t { g.thread t with preds := setBit16 (g.thread t).preds q v }
    | none => g.setThread t { g.thread t with preds := setBit16 (g.thread t).preds q v }

/-! ### Vector registers and pair tags (R32, R35, R191) -/

/-- The word index in the register area of register `r` of thread `t` (R32). -/
def Group.wordIndex (g : Group) (t r : Nat) : Nat := g.rwb / 4 + t * g.n + r

/-- Register `r` of thread `t` of group `g`. -/
def State.rdVOf (s : State) (g : Group) (t r : Nat) : Word :=
  match g.handler with
  | some h => h.regs.get 0 (t * 64 + r)
  | none => (s.core g.core).regs.get 0 (g.wordIndex t r)

/-- The tag of the pair that holds register `r` (R35). -/
def State.tagOf (s : State) (g : Group) (t r : Nat) : Tag :=
  match g.handler with
  | some h => h.tags.get 0 (t * 32 + r / 2)
  | none => (s.core g.core).regTags.get 0 (g.wordIndex t r / 2)

def State.rdV (s : State) (t r : Nat) : Word := s.rdVOf s.grp t r
def State.rdV64 (s : State) (t r : Nat) : Dword := pairOf (s.rdV t r) (s.rdV t (r + 1))
def State.rdTag (s : State) (t r : Nat) : Tag := s.tagOf s.grp t r
/-- A pair with its tag. -/
def State.rdTW (s : State) (t r : Nat) : TWord := ⟨s.rdV64 t r, s.rdTag t r⟩

/-- The tag of register r's pair set to `tag`. -/
def State.setTag (s : State) (t r : Nat) (tag : Tag) : State :=
  let g := s.grp
  match g.handler with
  | some h => s.setGrp { g with handler := some { h with tags := h.tags.set 0 (t * 32 + r / 2) tag } }
  | none =>
    let c := s.core g.core
    s.setCore g.core { c with regTags := c.regTags.set 0 (g.wordIndex t r / 2) tag }

/-- A register's bits written, tags left. -/
def State.putV (s : State) (t r : Nat) (v : Word) : State :=
  let g := s.grp
  match g.handler with
  | some h => s.setGrp { g with handler := some { h with regs := h.regs.set 0 (t * 64 + r) v } }
  | none =>
    let c := s.core g.core
    s.setCore g.core { c with regs := c.regs.set 0 (g.wordIndex t r) v }

/-- A 32-bit result: the pair becomes RAW (R35). That of a term instruction, which R35 excepts without giving a tag, makes it RAW too (log
76). -/
def State.wrV (s : State) (t r : Nat) (v : Word) : State := (s.putV t r v).setTag t r 0

/-- A pair with its tag written together (R35). -/
def State.wrTW (s : State) (t r : Nat) (v : TWord) : State :=
  ((s.putV t r (loHalf v.value)).putV t (r + 1) (hiHalf v.value)).setTag t r v.tag

/-- A plain 64-bit result: RAW (R35). -/
def State.wrV64 (s : State) (t r : Nat) (v : Dword) : State := s.wrTW t r ⟨v, 0⟩

/-! ### What an issued instruction comes to -/

/-- The outcome of an instruction's own effect, before the stream's program counter moves. -/
inductive Res where
  /-- The effect is made: the PC passes the instruction. -/
  | done (s : State)
  /-- The effect is made and the stream's place is already set. -/
  | jump (s : State)
  /-- The instruction has not completed: it stands at its PC and is tried again (a wait, a miss). -/
  | stay (s : State)
  /-- A trap: cause and information (R188). -/
  | trap (cause : Nat) (info : Dword) (s : State)
  /-- A translation fault (R196): address, kind and access of R324. -/
  | park (va : Dword) (kind access : Nat) (s : State)
deriving DecidableEq, Repr, Inhabited

/-- The trap causes of R188. -/
def cILLOP : Nat := 1
def cILLTAG : Nat := 2
def cILLCONV : Nat := 3
def cILLWIDTH : Nat := 4
def cSAMEADDR : Nat := 5
def cRANGELOCK : Nat := 6
def cMISALIGN : Nat := 7
def cPAGEFAULT : Nat := 8
def cPROT : Nat := 9
def cPOISON : Nat := 10
def cWATCHDOG : Nat := 11
def cQUEUE : Nat := 12
def cBREAK : Nat := 13
def cSWTRAP : Nat := 14

/-- Place of a cause in the order of R189; the causes that arise alone come last. -/
def causeRank (c : Nat) : Nat :=
  match c with
  | 1 => 1
  | 4 => 2
  | 3 => 3
  | 2 => 4
  | 7 => 5
  | 9 => 6
  | 6 => 7
  | 5 => 8
  | 8 => 9
  | 10 => 10
  | _ => 11

/-- The first of several causes by R189; among equals the earlier in the list, which is that of the lowest thread (R188). -/
def firstCause (cs : List (Nat × Dword)) : Option (Nat × Dword) :=
  cs.foldl (fun best c =>
    match best with
    | none => some c
    | some b => if causeRank c.1 < causeRank b.1 then some c else best) none

/-- A hardware-blocking wait: the first list of R70 in the scalar stream, MWAIT and MWAITN in the lane stream (R345). -/
def Wait.blocking (w : Wait) : Bool :=
  match w with
  | .queueFull | .counter | .guard | .lsync | .ewait | .xwait | .cwait | .qpush | .qpop | .width | .region | .exit
  | .release | .mwait => true
  | .none | .store | .mfence | .xchg | .scoreboard | .acquire | .load | .unitFull | .handlerBlock | .yield => false

/-- The group is in a hardware-blocking wait. -/
def Group.blocked (g : Group) : Bool :=
  g.waitS.blocking || g.waitL == .mwait || g.fuse.isSome

/-- The scalar stream waits for `w`; the arrival is noted when the group becomes blocked (R345). -/
def State.waitScalar (s : State) (w : Wait) : State :=
  let g := s.grp
  if g.waitS = w then s
  else if w.blocking && !g.blocked then ({ s with fresh := s.fresh + 1 }).setGrp { g with waitS := w, blockedAt := s.fresh }
  else s.setGrp { g with waitS := w }

/-- The lane stream waits for `w`; the arrival is noted when the group becomes blocked (R345). -/
def State.waitLane (s : State) (w : Wait) : State :=
  let g := s.grp
  if g.waitL = w then s
  else if w == .mwait && !g.blocked then ({ s with fresh := s.fresh + 1 }).setGrp { g with waitL := w, blockedAt := s.fresh }
  else s.setGrp { g with waitL := w }

/-- Every reservation of a group cleared (R190, R202, R311). -/
def State.clearResvs (s : State) (g : Nat) : State := { s with resvs := s.resvs.filter fun r => r.group != g }

/-- The reservation of one thread cleared. -/
def State.clearResv (s : State) (g t : Nat) : State :=
  { s with resvs := s.resvs.filter fun r => !(r.group == g && r.thread == t) }

/-! ### Ending a launch (R342), and the registers it leaves to its successor (R42, R43) -/

/-- The predecessor of a launch (R42, R43): the last launch that ended with its chain ID, of whatever context or partition; the spec
names the chain ID alone, and this reading is the model's choice (log 71). -/
def State.predecessor (s : State) (r : LaunchRecord) : Option ChainImage :=
  if r.chain = 0 then none else s.chains.find? fun x => x.chain == r.chain

/-- What a chain holds of a launch before any of its groups has left registers: its geometry and range, which a successor must match
(R42, R43). -/
def LaunchRecord.blankImage (r : LaunchRecord) (cores : List Nat) : ChainImage :=
  { chain := r.chain, width := r.width, n := r.n, groups := r.groups, first := r.first, count := r.count, place := r.place, cores := cores
    regs := [], tags := [] }

/-- The persistent-chain image with a group's inherited range as it stands or was saved (R42, R43): the registers at
the offsets of the declared geometry. A group that the launch never dispatched has no window to pass on, and R43 speaks of windows alone:
that the successor then takes what the chain last held for it, or zeros, is the model's choice (log 71). -/
def State.keepChain (s : State) (g : Group) : State :=
  let r := s.recordOf g
  if r.chain = 0 then s
  else
    let c := s.core g.core
    let at_ : Nat → Word := fun f =>
      match g.saved with
      | some v => v.regs.get 0 (f / g.n * 2048 + f % g.n)
      | none => c.regs.get 0 (g.rwb / 4 + f)
    let tagAt : Nat → Tag := fun f =>
      match g.saved with
      | some v => v.tags.get 0 (f / g.n * 1024 + f % g.n / 2)
      | none => c.regTags.get 0 ((g.rwb / 4 + f) / 2)
    let cores : List Nat := match s.launch? g.launch with
      | some l => l.casts.map (·.core)
      | none => []
    let fresh := r.blankImage cores
    let old : ChainImage := (s.predecessor r).getD fresh
    let old : ChainImage := if old.width = r.width ∧ old.n = r.n ∧ old.groups = r.groups ∧ old.first = r.first ∧ old.count = r.count
        ∧ old.place = r.place ∧ old.cores = cores then old else fresh
    let put := g.origin.foldl (fun (acc : ChainImage × Nat) seg =>
      let (k, t0, cnt) := seg
      let key := g.core * 64 + k
      let ts := List.range cnt
      let regs := ts.foldl (fun (m : Table Word) i =>
        (List.range r.count).foldl (fun m j =>
          m.set 0 ((t0 + i) * 2048 + r.first + j) (at_ ((acc.2 + i) * roundN r.n + r.first + j))) m)
        (acc.1.regs.get [] key)
      let tags := ts.foldl (fun (m : Table Tag) i =>
        (List.range (r.first + r.count)).foldl (fun m j =>
          if j % 2 = 0 ∧ r.first ≤ j ∧ j + 1 < r.first + r.count then
            m.set 0 ((t0 + i) * 1024 + j / 2) (tagAt ((acc.2 + i) * roundN r.n + j))
          else m) m)
        (acc.1.tags.get [] key)
      ({ acc.1 with regs := acc.1.regs.set [] key regs, tags := acc.1.tags.set [] key tags }, acc.2 + cnt)) (old, 0)
    { s with chains := put.1 :: s.chains.filter fun x => x.chain != r.chain }


/-- No trap values. -/
def TrapInfo.none : TrapInfo := ⟨0, 0, 0, false, 0, false⟩

/-- Cycles that a group has been resident since its count began (R356). -/
def State.span (s : State) (g : Group) : Nat := if g.life == .resident then s.clock - g.since else 0

/-- A sum over the groups of a launch. -/
def State.sumGroups (s : State) (launch : Nat) (f : Group → Nat) : Nat :=
  s.groups.foldl (fun n x => if x.2.launch = launch then n + f x.2 else n) 0

/-- The launch must end with a status; its groups stop and are discarded (R342). -/
def State.endLaunch (s : State) (l status : Nat) (t : TrapInfo) : State :=
  match s.launch? l with
  | none => s
  | some x =>
    if x.ending.isSome then s
    else
      let s := s.setLaunch l (some { x with
        ending := some (status, t), todo := [], requeued := [], behind := [], left := 0, cycles := x.cycles + s.sumGroups l s.span })
      s.groups.foldl (fun s kg =>
        if kg.2.launch = l && kg.2.life != .ended then
          ((s.keepChain kg.2).setGroup kg.1 { kg.2 with life := .ended }).clearResvs kg.1
        else s) s

/-- The trap CSRs of a group as an ending launch reports them. -/
def Group.reported (g : Group) : TrapInfo :=
  ⟨g.trapCause.toNat % 256, g.trapPc, g.trapInfo, g.trapCause.getLsbD 8, 0, false⟩

/-! ### Taking a trap and returning (R190 to R195) -/

/-- TRAPCAUSE's value (R90). -/
def causeWord (t : TrapInfo) : Word := BitVec.ofNat 32 (t.cause + 256 * bitOf t.lane)

/-- Another group of the datapath is in handler mode (R195). -/
def State.windowBusy (s : State) (k : Nat) : Bool :=
  let g := s.group k
  s.groups.any fun x =>
    x.1 != k && x.2.life == .resident && x.2.core == g.core && x.2.datapath == g.datapath && x.2.handler.isSome

/-- The scalar stream's instruction has begun something it must finish (R190 step 2): an ordered access, an acquire, a remote
drain. -/
def Group.midScalar (g : Group) : Bool :=
  g.acqS.isSome || g.answer.isSome || g.racq != 0 || !g.readsS.isEmpty || g.fellS

/-- The lane stream has begun something it must finish (R190 steps 2 and 3): its instruction, and atomics on their way. -/
def Group.midLane (g : Group) : Bool :=
  g.acqL.isSome || !g.reqs.isEmpty || g.xchg.isSome || !g.readsL.isEmpty || g.fellL || g.stream.unfinished

/-- What must be finished before a trap's handler is entered (R190 steps 2 and 3): every access on its way, the other stream's
instruction, and every access issued already but those of the trapping instruction itself, which has none where a late step met the
trap (log 61). -/
def Group.otherBusy (g : Group) (t : TrapInfo) : Bool :=
  if !g.accesses.isEmpty then true
  else if t.late then g.midScalar || g.midLane
  else if t.lane then
    g.midScalar || !g.reqs.isEmpty || g.xchg.isSome
  else g.midLane

/-- A stream's instruction that traps or parks has no access of its own on the way any longer (R190): what its ordered reads
bring counts for no other access (R288), and a fragment `frag` begins its instruction afresh in the unmarked threads (R153). -/
def Group.dropReads (g : Group) (lane : Bool) (frag : Nat) : Group :=
  if lane then { g.setStream (g.stream.setIssued frag false) with readsL := [], fellL := false, lostL := false, relL := none }
  else { g with readsS := [], fellS := false, relS := none }

/-- No release has taken its place in the fence order: at a trap, a return and a restore an .AR operation begins afresh (R387). -/
def Group.noRel (g : Group) : Group := { g with relS := none, relL := none }

/-- The resumption marks and carried counts cleared (R153). -/
def Group.clearMarks (g : Group) : Group :=
  let ts : Table Thread := g.threads.map fun x => (x.1, x.2.unmarked)
  { g with threads := ts.filter fun x => !decide (x.2 = Thread.start) }

/-- The resumption marks of a group as a table. -/
def Group.marksOf (g : Group) : Table (Bool × Nat × Nat × List TWord) :=
  (g.threads.filter fun x => x.2.begun).map fun x => (x.1, (x.2.mark, x.2.carry, x.2.progress, x.2.done))

/-- Marks put back. -/
def Group.putMarks (g : Group) (m : Table (Bool × Nat × Nat × List TWord)) : Group :=
  m.foldl (fun g x => g.setThread x.1 { g.thread x.1 with
    mark := x.2.1, carry := x.2.2.1, progress := x.2.2.2.1, done := x.2.2.2.2 }) g.clearMarks

/-- Entry to the handler (R190 steps 4 and 5, R191, R89). -/
def State.enterHandler (s : State) (k : Nat) (t : TrapInfo) : State :=
  let g := s.group k
  let r := s.recordOf g
  let s := s.clearResvs k
  if r.trapent = 0 then
    (s.setGroup k { g with trapCause := causeWord t, trapPc := t.pc, trapInfo := t.info }).endLaunch g.launch 1 t
  else
    s.setGroup k { g.clearMarks.noRel with
      trapCause := causeWord t, trapPc := t.pc, trapInfo := t.info
      pc := r.scode + BitVec.ofNat 64 (4 * r.trapent)
      waitS := .none, waitL := .none, deferred := none, poisoned := [], waitQueue := none
      watchdogPc := if t.cause = cWATCHDOG then some t.pc else none
      handler := some { regs := [], tags := [], preds := [], scalars := [], readLatch := 0, writeLatch := 0
                        lane := .idle g.w, marks := g.marksOf, waitQueue := g.waitQueue, trap := t, scalarPc := g.pc } }

/-- A trap of group `k`: a second one in handler mode ends the launch (R193); without a handler every trap does (R190);
one that must wait for the datapath's window (R195), for the other stream's instruction (R190) or for the driver's answer to the
other stream's fault (R196) is held, a lane trap
before a scalar one (R195); otherwise the handler is entered. -/
def State.takeTrap (s : State) (k : Nat) (t : TrapInfo) : State :=
  let s := if t.late then s else s.setGroup k ((s.group k).dropReads t.lane t.frag)
  let g := s.group k
  let s := if t.cause = cPOISON ∧ t.info.toNat / 2 ^ 61 = 3 then
      { s with apertureErrors := s.apertureErrors.filter (· != k) }
    else s
  if g.handler.isSome then s.endLaunch g.launch 2 g.reported
  else if (s.recordOf g).trapent != 0 && (s.windowBusy k || g.otherBusy t || g.deferred.isSome || g.parked.isSome) then
    match g.deferred with
    | some d => if d.lane then s else s.setGroup k { g with deferred := some t }
    | none => s.setGroup k { g with deferred := some t }
  else s.enterHandler k t

/-- A trap of the scalar stream of the executing group at its PC. -/
def State.trapScalar (s : State) (cause : Nat) (info : Dword) : State :=
  s.takeTrap s.cur ⟨cause, s.grp.pc, info, false, 0, false⟩

/-- A trap of the lane stream of the executing group at the current fragment's PC. -/
def State.trapLane (s : State) (cause : Nat) (info : Dword) : State :=
  let l := s.grp.stream
  s.takeTrap s.cur ⟨cause, l.frag.pc, info, true, l.cur, false⟩

/-- A step that its instruction did not wait for and that met poison traps, once no other trap holds the group (R184, log 61). -/
def State.raiseLate (s : State) (k : Nat) : State :=
  let g := s.group k
  match g.lates with
  | a :: _ =>
    if g.life != .resident || g.handler.isSome || g.deferred.isSome then s
    else s.takeTrap k ⟨cPOISON, a.pc, a.info, !a.scalar, a.frag, true⟩
  | [] => s

/-- A late access of group `k` has met poison: the trap of one that a handler issued ends the launch (R193); another is kept, and traps
(R184, log 61). -/
def State.meetLate (s : State) (k : Nat) (inHandler : Bool) (l : Late) : State :=
  let g := s.group k
  if g.life != .resident then s
  else if inHandler then s.endLaunch g.launch 2 g.reported
  else (s.setGroup k { g with lates := g.lates ++ [l] }).raiseLate k

/-- TRAPPC stands where its stream need not be moved: after the trap of a late access the stream has gone on, an unchanged TRAPPC has
the access taken again, and one that passes its instruction of `size` bytes gives it up; what follows has issued already (log 61). -/
def TrapInfo.stands (t : TrapInfo) (at_ : Dword) (size : Nat) : Bool :=
  t.late && (at_ == t.pc || at_ == t.pc + BitVec.ofNat 64 size)

/-- The trapping fragment as STRET resumes it: at TRAPPC, where `at_` is the trap's own address. One moved past the trapping instruction
passes the atomics after it that have issued already as well (R307, R313); after a watchdog trap it is ready, its count cleared,
whatever it had parked at (R126). -/
def Fragment.resume (f : Fragment) (t : TrapInfo) (at_ : Dword) : Fragment :=
  if t.stands at_ 12 || f.mask == 0 then f
  else
    let stays := at_ == t.pc
    { f with
      pc := if at_ = t.pc + 12 then at_ + BitVec.ofNat 64 (12 * f.ahead) else at_
      count := if t.cause = cWATCHDOG then 0 else f.count, state := if t.cause = cWATCHDOG then .ready else f.state
      ahead := if stays then f.ahead else 0, issued := stays && f.issued }

/-- The return of STRET (R194): the understudy is discarded; the trapping stream resumes at TRAPPC. A watchdog trap whose
TRAPPC is unchanged ends the launch (R126). -/
def State.returnFromTrap (s : State) (k : Nat) (h : Handler) : State :=
  let g := s.group k
  if h.trap.cause = cWATCHDOG && g.watchdogPc == some g.trapPc then s.endLaunch g.launch 3 g.reported
  else
    let mine := (g.lane.frags.get Fragment.none h.trap.frag).mask
    let marks := if h.trap.lane && g.trapPc != h.trap.pc then h.marks.filter fun x => !inMask mine x.1 else h.marks
    let g := { (g.putMarks marks).noRel with
      handler := none, watchdogPc := none, waitS := .none, waitL := .none, waitQueue := if h.trap.lane then h.waitQueue else none }
    if h.trap.lane then
      let f := (g.lane.frags.get Fragment.none h.trap.frag).resume h.trap g.trapPc
      s.setGroup k { g with pc := h.scalarPc, lane := g.lane.setFrag h.trap.frag f }
    else s.setGroup k { g with pc := if h.trap.stands g.trapPc 4 then h.scalarPc else g.trapPc }

/-! ### The scalar stream's program counter -/

/-- The scalar instruction after the one at PC. -/
def Group.nextPc (g : Group) : Dword := g.pc + 4

/-- Past a scalar instruction; its issue slot counts as work (R356). -/
def Group.advance (g : Group) : Group :=
  { g with pc := g.nextPc, waitS := .none, work := g.work + 1 }

/-- To a branch target (R82). -/
def Group.goto (g : Group) (pc : Dword) : Group := { g with pc := pc, waitS := .none, work := g.work + 1 }

end Sys2Proof.Machine
end

