-- ==== Sys2Proof/Machine/Flags.lean ====
section
/-!
DEFINITION. Flags: the STICKY bits (R90), the effect bit (R46), comparison conditions (R82, R101) and guard resolution
(R72, R73).
-/
namespace Sys2Proof.Machine

/-- STICKY bits (R90). -/
def stickyMiss : Word := 1
def stickyClamp : Word := 2
def stickyEngErr : Word := 4
def stickyPartial : Word := 8

/-- STICKY bits set in a group. -/
def Group.stick (g : Group) (m : Word) : Group := { g with sticky := g.sticky ||| m }

/-- The effect bit set (R46). -/
def Group.setEffect (g : Group) : Group := { g with effect := true }
def State.setEffect (s : State) : State := s.upd Group.setEffect

/-- Integer conditions of R101 and R82: 0 EQ, 1 NE, 2 LT, 3 LE, 4 GT, 5 GE, by signedness. -/
def compareInt {n : Nat} (isSigned : Bool) (cond : Nat) (a b : BitVec n) : Bool :=
  let lt : BitVec n → BitVec n → Bool := fun x y => if isSigned then x.slt y else x.ult y
  match cond with
  | 0 => a == b
  | 1 => a != b
  | 2 => lt a b
  | 3 => !lt b a
  | 4 => lt b a
  | _ => !lt a b

/-- A guard slot; g0 is permanently true (R27). -/
def Group.guard (g : Group) (k : Slot) : Guard := if k = 0 then .resolved true else g.guards.get (.resolved true) k.toNat

/-- What an entry enqueued under a guard is bound to (R51, R73). -/
def Group.bind (g : Group) (k : Slot) (neg : Bool) : EntryGuard :=
  match g.guard k with
  | .pending => .bound k.toNat neg
  | .resolved v => .decided (v != neg)

/-- An entry's guard after a slot's resolution: bound entries take the value once (R73). -/
def EntryGuard.resolve (e : EntryGuard) (k : Nat) (v : Bool) : EntryGuard :=
  match e with
  | .bound s neg => if s = k then .decided (v != neg) else e
  | .decided _ => e

/-- A guard slot resolves, and with it the entries bound to its pending resolution (R72, R73). -/
def Group.resolve (g : Group) (k : Slot) (v : Bool) : Group :=
  let n := k.toNat
  { g with
    guards := g.guards.set (.resolved true) n (.resolved v)
    laneQ := g.laneQ.map fun e => { e with guard := e.guard.resolve n v }
    copyQ := g.copyQ.map fun e => { e with guard := e.guard.resolve n v }
    fabQ := g.fabQ.map fun e => { e with guard := e.guard.resolve n v } }

end Sys2Proof.Machine
end

