-- ==== Sys2Proof/Config.lean ====
section
/-!
DEFINITION. What the manual leaves open: every constant here has NO body, so nothing can be proved of its value.
-/
namespace Sys2Proof.Config

/-- How much a free-running clock advances between two observations of it (R2, R90, R351): any number. Log 9. -/
opaque freeTicks : Nat → Nat

/-- Offset, in units of the last place, of an F32 special function's result from the correctly rounded one. The result
uses it only where it stays inside the bound of R110; the same input gives the same bits (R110). Log 10. -/
opaque freeUlps : (function : Nat) → (magnitude : BitVec 32) → Int

/-- The SM3 digest of a byte string (R393, R397). The manual names the algorithm and does not give it. Log 11. -/
opaque sm3 : List Byte → BitVec 256

/-- Whether the stored image carries a valid SM2 signature over its digest (R396). Log 11. -/
opaque sm2Verifies : List Byte → Bool

/-- The device's SM2 signature (r, s) over a report (R397). Log 11. -/
opaque sm2Sign : List Byte → BitVec 256 × BitVec 256

/-- A value the manual leaves unspecified, by the free-value counter of the state. Log 9. -/
opaque freeWord : Nat → BitVec 64

/-- Whether an operation or a command read a byte of an operand as it stood when it began, where the byte has been written
since (R246, R253, R366). Logs 6 and 7. -/
opaque readsOld : (operation byte : Nat) → Bool

/-- Whether the host platform registers device-visible pages for write notices, without which a host page cannot keep
tags (R333). Log 9. -/
opaque hostRegisters : Bool

end Sys2Proof.Config
end

