-- ==== Sys2Proof/Machine/Memory.lean ====
section
/-!
DEFINITION. Memory: the physical layout (R319, R320), homes (R276), translation (R321 to R324), the L1 (R279 to R289), the
four address spaces (R176) and range locks (R187).
-/
namespace Sys2Proof.Machine

/-! ### Bytes at home -/

/-- What a byte of memory that nothing has written reads as (log 1). -/
def memDefault : Byte := 0

/-- The canonical form of memory: addresses strictly rising, no listed byte at its default. -/
abbrev Memory.wf (m : Table Byte) : Prop := m.wf memDefault = true

def State.byte (s : State) (pa : Nat) : Byte := s.mem.get memDefault pa
def State.setByte (s : State) (pa : Nat) (b : Byte) : State := { s with mem := s.mem.set memDefault pa b }

/-- The tag of the word that holds a physical address (R24). -/
def State.wordTag (s : State) (pa : Nat) : Tag := s.tags.get 0 (pa / 8)

/-- First address of host memory (R319). -/
def hostBit : Nat := 2 ^ 51

/-- The byte of the tag-backing area that holds the tag of host word `k` (counted from the start of host memory), two words to a
byte, the lower in the low half (R333, log 24). -/
def State.tagByte (s : State) (k : Nat) : Nat := s.driver.tagBase.toNat + k / 2

/-- The place of word `k` in the tag-backing area takes a tag, where that changes the tag of a host word; the check value of the block
of that place is recomputed (R398). -/
def State.backTag (s : State) (k : Nat) (t : Tag) : State :=
  let changes := s.tags.get 0 k != t && decide (hostBit ≤ 8 * k)
  let h := k - hostBit / 8
  let at_ := s.tagByte h
  let old := (s.byte at_).toNat
  let new := BitVec.ofNat 8 (if h % 2 = 0 then old / 16 * 16 + t.toNat else old % 16 + 16 * t.toNat)
  { s with
    mem := if changes then s.mem.set memDefault at_ new else s.mem
    check := if changes then s.check.set 0 (at_ / 64) 0 else s.check }

/-- The tag of word `k` of memory set; of a host word the tag-backing area follows (R333). -/
def State.setTagOf (s : State) (k : Nat) (t : Tag) : State :=
  let s := s.backTag k t
  { s with tags := s.tags.set 0 k t }
def State.setWordTag (s : State) (pa : Nat) (t : Tag) : State := s.setTagOf (pa / 8) t

/-- Tags of the words that `n` bytes from `pa` touch, all set. -/
def State.setTagsOf (s : State) (pa n : Nat) (t : Tag) : State :=
  (List.range ((pa + n - 1) / 8 - pa / 8 + 1)).foldl (fun s i => s.setTagOf (pa / 8 + i) t) s

/-- The bytes of host memory that a device is about to write stay as the host sees them, until they become visible to it
(R332). -/
def State.hideFromHost (s : State) (pa n : Nat) : State :=
  if pa < hostBit then s
  else { s with hostView := (List.range n).foldl (fun (v : Table (Option Byte)) i =>
    if (v.get none (pa + i)).isSome then v else v.set none (pa + i) (some (s.byte (pa + i)))) s.hostView }

/-- Little-endian value of `n` bytes read by `f` (R5). -/
def gather (f : Nat → Byte) (n : Nat) : Nat := leNat ((List.range n).map f)

/-- Little-endian value of `n` bytes of memory. -/
def State.readMem (s : State) (pa n : Nat) : Nat := gather (fun i => s.byte (pa + i)) n

/-! ### Check values (R398) -/

/-- One byte through the CRC of R398. -/
def crcByte (crc : BitVec 16) (b : Byte) : BitVec 16 :=
  (List.range 8).foldl (fun (c : BitVec 16) _ => if c.getLsbD 15 then (c <<< 1) ^^^ 0x1021 else c <<< 1)
    (crc ^^^ (b.setWidth 16 <<< 8))

/-- CRC-16 of bytes (R398). -/
def crc16 (init : BitVec 16) (bs : List Byte) : BitVec 16 := bs.foldl crcByte init

/-- The four bytes of a block's tags: the tag of word 2i in the low half of byte i (R398). -/
def State.tagBytes (s : State) (block : Nat) : List Byte :=
  (List.range 4).map fun i =>
    BitVec.ofNat 8 ((s.tags.get 0 (8 * block + 2 * i)).toNat + 16 * (s.tags.get 0 (8 * block + 2 * i + 1)).toNat)

/-- The CRC-16 of a block's contents: its 64 bytes, then its tags (R398). -/
def State.blockCrc (s : State) (block : Nat) : BitVec 16 :=
  crc16 0xFFFF ((List.range 64).map (fun i => s.byte (64 * block + i)) ++ s.tagBytes block)

/-- The check value that travels with a block (R398): the state holds how it differs from the CRC of the contents. -/
def State.checkValue (s : State) (block : Nat) : BitVec 16 := s.blockCrc block ^^^ s.check.get 0 block

/-- The block's check value is recomputed (R280, R398). -/
def State.recheck (s : State) (pa : Nat) : State := { s with check := s.check.set 0 (pa / 64) 0 }

/-- Reservations on the granules of a written range cleared (R311). -/
def State.killResvs (s : State) (pa n : Nat) : State :=
  { s with resvs := s.resvs.filter fun r => !(decide (pa / 128 ≤ r.granule) && decide (r.granule ≤ (pa + n - 1) / 128)) }

/-- The check value of every block that `n` bytes from `pa` touch is recomputed. -/
def State.recheckAll (s : State) (pa n : Nat) : State :=
  (List.range ((pa + n - 1) / 64 - pa / 64 + 1)).foldl (fun s i => s.recheck (pa + 64 * i)) s

/-- Bytes written at the home, lowest first: the check values are recomputed, reservations on them cleared. -/
def State.writeMem (s : State) (pa : Nat) (bs : List Byte) : State :=
  let s := s.killResvs pa bs.length
  (bs.foldl (fun (p : State × Nat) b => (p.1.setByte p.2 b, p.2 + 1)) (s, pa)).1.recheckAll pa bs.length

/-! ### Physical layout (R13, R319, R320, R276) -/

def gib : Nat := 2 ^ 30

/-- LOCAL in GiB. -/
def State.localGib (s : State) : Nat := 8 * s.driver.localSel.toNat

/-- A unit that the failed-step record maps out at this start (R393). -/
def State.mappedOut (s : State) (step unit : Nat) : Bool :=
  s.boot.applied.any fun f => f.step == step && f.unit == unit && f.action == 2

/-- Stacks in the interleave: those not mapped out (R357). -/
def State.liveStacks (s : State) : List Nat := (List.range 12).filter fun u => !s.mappedOut 5 u

/-- End of the interleaved region (R319). -/
def State.interleaveEnd (s : State) : Nat := s.liveStacks.length * (64 - s.localGib) * gib

/-- The stack and the offset in it of a package address (R319); none where absent. -/
def State.stackOf (s : State) (pa : Nat) : Option (Nat × Nat) :=
  let live := s.liveStacks
  let n := live.length
  let ib := s.interleaveEnd
  if pa < ib then
    match live[pa / 4096 % n]? with
    | some k => some (k, pa / (4096 * n) * 4096 + pa % 4096)
    | none => none
  else
    let region := 2 * s.localGib * gib
    if region = 0 then none
    else
      let h := (pa - ib) / region
      let q := (pa - ib) % region
      let k := 2 * h + q / 4096 % 2
      if h < 6 ∧ live.contains k then some (k, (64 - s.localGib) * gib + q / 8192 * 4096 + q % 4096) else none

/-- Home sector of a physical address (R276). -/
def State.homeSector (s : State) (pa : Nat) : Nat :=
  if pa ≥ hostBit then pa / 4096 % 6
  else
    match s.stackOf pa with
    | some (k, _) => k / 2
    | none => 0

/-- The bucket hash of R276. -/
def bucketOf (pa : Nat) : Nat :=
  ((pa / 2 ^ 17 % 256) ^^^ (pa / 2 ^ 25 % 256) ^^^ (pa / 2 ^ 33 % 256) ^^^ (pa / 2 ^ 41 % 256) ^^^ (pa / 2 ^ 49 % 8))

/-- The slice of a sector that serves an address's bucket (R276, R296). -/
def State.sliceIn (s : State) (h pa : Nat) : Nat :=
  let b := bucketOf pa
  match (s.sector h).buckets.get none b with
  | some k => k
  | none => 16 * h + b / 16

/-- The home slice of an address (R276). -/
def State.homeSlice (s : State) (pa : Nat) : Nat := s.sliceIn (s.homeSector pa) pa

/-- Sector of a core (R13). -/
def sectorOfCore (n : Nat) : Nat := n / 8
/-- Cluster of a core (R13). -/
def clusterOfCore (n : Nat) : Nat := n / 4

/-- The L1 that serves a core: its own, or the cluster's fused one, numbered from 48 (R267). -/
def State.l1Of (s : State) (core : Nat) : Nat :=
  if s.fused.get none (clusterOfCore core) = some true then 48 + clusterOfCore core else core

/-- Sector of an L1. -/
def sectorOfL1 (n : Nat) : Nat := if n ≥ 48 then (n - 48) / 2 else sectorOfCore n

/-! ### Reach (R297, R357) -/

/-- The ring link between two sectors of one die works. -/
def State.directLink (s : State) (a b : Nat) : Bool :=
  let k := if b % 3 = (a + 1) % 3 then a % 3 else b % 3
  !s.linksDown.contains (3 * (a / 3) + k)

/-- Two sectors of a die are joined by a working way round its ring (R297). -/
def State.ringJoins (s : State) (a b : Nat) : Bool :=
  let die := a / 3
  let up := fun k => !s.linksDown.contains (3 * die + k % 3)
  let i := a % 3
  if a = b then true
  else if b % 3 = (i + 1) % 3 then up i || (up (i + 1) && up (i + 2))
  else up (i + 2) || (up i && up (i + 1))

/-- A sector reaches another over the rings and the die-to-die link that work (R297, log 59): of another die's sectors, those
that still stand on a ring, from one that does. -/
def State.linked (s : State) (a b : Nat) : Bool :=
  if a / 3 = b / 3 then s.ringJoins a b
  else
    let onRing := fun x => s.ringJoins x (x / 3 * 3 + (x + 1) % 3) || s.ringJoins x (x / 3 * 3 + (x + 2) % 3)
    !s.linksDown.contains 6 && onRing a && onRing b

/-- The stack of a line has failed (R357). -/
def State.stackDead (s : State) (pa : Nat) : Bool :=
  decide (pa < hostBit) && (match s.stackOf pa with
    | some (k, _) => s.deadStacks.contains k
    | none => true)

/-- The home of a line cannot be reached from a sector, or its stack has failed (R297, R357). -/
def State.unreachable (s : State) (from_ line : Nat) : Bool :=
  !s.linked from_ (s.homeSector (128 * line)) || s.stackDead (128 * line)

/-! ### Partitions (R346, R347) -/

/-- 8-byte unit `u` of partition descriptor `p`. -/
def State.partUnit (s : State) (p u : Nat) : Dword := s.driver.parts.get 0 (16 * p + u)

/-- With MPART clear every resource belongs to partition 0 (R395). -/
def State.owns (s : State) (p u bit : Nat) : Bool :=
  if s.feature 14 then (s.partUnit p (u + bit / 64)).getLsbD (bit % 64) else p == 0

def State.ownsCluster (s : State) (p c : Nat) : Bool := s.owns p 0 c && !s.mappedOut 7 c && !(s.island c).failed
/-- A slice that failed its test is mapped out (R393, R394). -/
def State.ownsSlice (s : State) (p k : Nat) : Bool := s.owns p 1 k && !s.mappedOut 6 k
/-- The channels of a stack mapped out belong to nobody (R357, R394). -/
def State.ownsChannel (s : State) (p ch : Nat) : Bool := s.owns p 4 ch && !s.mappedOut 5 (ch / 16)
/-- A Ramys port, 0 to 17 (R13, R347); no other exists. -/
def State.ownsPort (s : State) (p port : Nat) : Bool := decide (port < 18) && s.owns p 7 port && !s.mappedOut 8 port
def State.ownsDecrel (s : State) (p : Nat) : Bool :=
  (List.range 2).any fun u => s.owns p 7 (18 + u) && !s.mappedOut 9 u
def State.ownsCollective (s : State) (p die : Nat) : Bool := s.owns p 7 (20 + die)

/-- The partition that owns a context (R346). -/
def State.partOf (s : State) (ctx : Nat) : Nat := ((List.range 16).find? fun p => s.owns p 8 ctx).getD 0

/-- A context's record in a slice as it acts: WAYMASK 0 and RATE 0 where its partition does not own the slice (R347). -/
def State.acting (s : State) (k ctx : Nat) : SliceContext :=
  let r := (s.slice k).contexts.get SliceContext.start ctx
  if s.ownsSlice (s.partOf ctx) k then r else { r with wayMask := 0, rate := 0 }

/-- TENANTSCOPE and CLAMPTRAP read 0 with CLAMP clear (R346, R395). -/
def State.tenantScope (s : State) (p : Nat) : Bool := s.feature 15 && (s.partUnit p 9).getLsbD 32
def State.clampTrap (s : State) (p : Nat) : Bool := s.feature 15 && (s.partUnit p 9).getLsbD 33

/-! ### Translation (R321 to R324) -/

/-- Access codes of a fault record (R324). -/
def aRead : Nat := 0
def aWrite : Nat := 1
def aFetch : Nat := 2
def aAtomic : Nat := 3

/-- The VIEW pages' physical range (R327). -/
def viewPa : Nat := 0x0007FF0000000000
def isView (pa : Nat) : Bool := decide (viewPa ≤ pa) && decide (pa < viewPa + 4096 * 64)

/-- The outcome of a translation. -/
inductive Xlate where
  /-- Physical address, and whether the page keeps tags (R333). -/
  | ok (pa : Nat) (tagged : Bool)
  | fault (kind : Nat)
deriving DecidableEq, Repr, Inhabited

/-- The address field of an entry (R322). -/
def pteAddr (pte : Dword) : Nat := pte.toNat / 256 % 2 ^ 44 * 256

/-- Every byte of a page of `size` bytes exists (R319): the page lies within one region of the layout, whose stacks take turns by
4 KiB, or within the view pages. -/
def State.pagePresent (s : State) (base size : Nat) : Bool :=
  (isView base && isView (base + size - 1)) || ((s.stackOf base).isSome && (s.stackOf (base + 4096)).isSome)

/-- A leaf entry checked for an access (R322, R324): form, features, presence of the whole page, ownership, permission. -/
def State.checkLeaf (s : State) (part : Nat) (pte : Dword) (big : Bool) (va access : Nat) : Xlate :=
  let b := fun i => pte.getLsbD i
  let size := if big then 2 ^ 21 else 2 ^ 16
  let base := pteAddr pte
  let host := decide (base ≥ hostBit)
  let pa := base + va % size
  if pte.toNat / 2 ^ 52 ≠ 0 ∨ base % size ≠ 0 ∨ (b 6 && b 3) ∨ (b 4 && !b 3) ∨ (!host && !b 7) then .fault 6
  else if (b 6 && !s.feature 12) ∨ (host && b 7 && !(s.feature 13 && Config.hostRegisters)) then .fault 6
  else if !host && !s.pagePresent base size then .fault 6
  else if host && !s.ownsDecrel part then .fault 7
  else if !host && !isView pa && !(match s.stackOf pa with
      | some (k, off) => s.ownsChannel part (16 * k + off / (4 * gib))
      | none => false) then .fault 7
  else if access = aRead ∧ !b 2 then .fault 2
  else if access = aFetch ∧ !(b 5 && b 2) then .fault 4
  else if (access = aWrite ∨ access = aAtomic) ∧ b 6 then .fault 8
  else if access = aWrite ∧ !b 3 then .fault 3
  else if access = aAtomic ∧ !(b 4 && b 3) then .fault 5
  else .ok pa (b 7)

/-- A word of a table that the device keeps in memory; one on a failed stack comes poisoned, and counts as zero, which no entry in force
reads as (R357, log 59). -/
def State.tableWord (s : State) (pa n : Nat) : Nat := if s.stackDead pa then 0 else s.readMem pa n

/-- A valid entry that names a table is malformed (R322, R323): a leaf where none may stand, reserved bits, alignment,
permission bits that contradict, a forbidden use (R395), or an absent address. -/
def State.tableBad (s : State) (pte : Dword) (align : Nat) : Bool :=
  let b := fun i => pte.getLsbD i
  decide (pte.toNat / 2 ^ 52 ≠ 0) || decide (pteAddr pte % align ≠ 0) || (b 6 && b 3) || (b 4 && !b 3)
    || (b 6 && !s.feature 12) || (decide (pteAddr pte < hostBit) && (s.stackOf (pteAddr pte)).isNone)

/-- The leaf a walk finds: the entry and whether it maps a 2 MiB page, or the kind of the fault (R321, R322). An entry on a failed
stack comes poisoned (R357); the spec does not say what the walk then comes to, and here the entry counts as malformed (log 59). -/
def State.walkFrom (s : State) (va : Nat) : Nat → Nat → Except Nat (Dword × Bool)
  | level, table =>
    let shift := if level = 0 then 16 else 12 + 9 * level
    let count := if level = 0 then 32 else 512
    let at_ := table + 8 * (va / 2 ^ shift % count)
    let pte := BitVec.ofNat 64 (s.readMem at_ 8)
    if s.stackDead at_ then .error 6
    else if !pte.getLsbD 0 then .error 1
    else
      match level with
      | 0 => if pte.getLsbD 1 then .ok (pte, false) else .error 6
      | 1 =>
        if pte.getLsbD 1 then .ok (pte, true)
        else if s.tableBad pte 256 then .error 6
        else s.walkFrom va 0 (pteAddr pte)
      | n + 2 =>
        if pte.getLsbD 1 || s.tableBad pte 4096 then .error 6
        else s.walkFrom va (n + 1) (pteAddr pte)

/-- The walk of a context (R321, R327): kind 6 while its root is invalid. -/
def State.walk (s : State) (ctx va : Nat) : Except Nat (Dword × Bool) :=
  let root := s.driver.roots.get 0 ctx
  if !root.getLsbD 0 then .error 6 else s.walkFrom va 4 (root.toNat / 4096 % 2 ^ 40 * 4096)

/-- Translation of a canonical address for an access (R321 to R324); a cached translation is used where one is held (R323). -/
def State.translate (s : State) (ctx part va access : Nat) : Xlate :=
  let va := va % 2 ^ 57
  match s.tlb.find? (fun e => e.context == ctx && e.page == va / 2 ^ 16) with
  | some e => s.checkLeaf part e.pte e.big va access
  | none =>
    match s.walk ctx va with
    | .error k => .fault k
    | .ok (pte, big) => s.checkLeaf part pte big va access

/-- Canonical addresses: bits [63:57] all equal bit 56 (R176). -/
def canonical (e : Dword) : Bool :=
  let top := e.toNat / 2 ^ 56
  top == 0 || top == 255

/-- Translation for a group. -/
def State.xlate (s : State) (g : Group) (e : Dword) (access : Nat) : Xlate :=
  s.translate (s.contextOf g) (s.partitionOf g) e.toNat access

/-! ### L1 lines (R279, R283) -/

/-- A 128-bit byte mask widened to bits. -/
def expand8 (m : BitVec 128) : BitVec 1024 :=
  BitVec.ofNat 1024 ((List.range 128).foldl (fun a i => if m.getLsbD i then a + 255 * 2 ^ (8 * i) else a) 0)

/-- A 16-bit word mask widened to tag bits. -/
def expand4 (m : BitVec 16) : BitVec 64 :=
  BitVec.ofNat 64 ((List.range 16).foldl (fun a i => if m.getLsbD i then a + 15 * 2 ^ (4 * i) else a) 0)

/-- Bytes `off` to `off + n` of a line as a mask. -/
def byteMask (off n : Nat) : BitVec 128 := BitVec.ofNat 128 ((2 ^ n - 1) * 2 ^ off)

/-- Words touched by those bytes. -/
def wordMask (off n : Nat) : BitVec 16 :=
  if n = 0 then 0 else BitVec.ofNat 16 ((2 ^ ((off + n - 1) / 8 - off / 8 + 1) - 1) * 2 ^ (off / 8))

/-- `a` where the mask is set, `b` elsewhere. -/
def mix {n : Nat} (m a b : BitVec n) : BitVec n := (a &&& m) ||| (b &&& ~~~m)

/-- A line of the home as data and tags. -/
def State.homeLine (s : State) (line : Nat) : BitVec 1024 × BitVec 64 :=
  (BitVec.ofNat 1024 (s.readMem (128 * line) 128),
   BitVec.ofNat 64 ((List.range 16).foldl (fun a i => a + (s.tags.get 0 (16 * line + i)).toNat * 2 ^ (4 * i)) 0))

/-- Masked bytes and tags merged at the home, the check values of the halves touched recomputed (R280). -/
def State.mergeHome (s : State) (line : Nat) (data : BitVec 1024) (mask : BitVec 128) (tags : BitVec 64) (tagMask : BitVec 16) :
    State :=
  let s := (List.range 128).foldl (fun s i =>
    if mask.getLsbD i then
      (s.hideFromHost (128 * line + i) 1).setByte (128 * line + i) (BitVec.ofNat 8 (data.toNat / 2 ^ (8 * i)))
    else s) s
  let s := (List.range 16).foldl (fun s i =>
    if tagMask.getLsbD i then s.setTagOf (16 * line + i) (BitVec.ofNat 4 (tags.toNat / 2 ^ (4 * i))) else s) s
  let s := if mask.setWidth 64 = (0 : BitVec 64) ∧ tagMask.setWidth 8 = (0 : BitVec 8) then s else s.recheck (128 * line)
  let s := if (mask >>> 64).setWidth 64 = (0 : BitVec 64) ∧ (tagMask >>> 8).setWidth 8 = (0 : BitVec 8) then s
    else s.recheck (128 * line + 64)
  if mask = 0 then s else s.killResvs (128 * line) 128

/-- An empty line with the counters of its L1 (R283). -/
def L1.newLine (l : L1) : Line :=
  { data := 0, valid := 0, dirty := 0, tags := 0, tagKnown := 0, tagDirty := 0, c := l.c, h := l.h, p := l.p, s := l.s
    pinned := false, held := 0, heldTags := 0, unsent := [], unsentTags := [] }

/-- Staleness (R283): company is not checked on a fused L1. -/
def L1.stale (l : L1) (fused : Bool) (x : Line) : Bool :=
  (!fused && x.c != l.c) || x.h != l.h || x.p != l.p || x.s != l.s

/-- Bytes of a line that a load may take (R283: dirty bytes are never stale). -/
def L1.readable (l : L1) (fused : Bool) (x : Line) : BitVec 128 := x.dirty ||| (if l.stale fused x then 0 else x.valid)
def L1.knownTags (l : L1) (fused : Bool) (x : Line) : BitVec 16 :=
  x.tagDirty ||| (if l.stale fused x then 0 else x.tagKnown)

/-- What a load comes to. -/
inductive LoadRes where
  /-- The bytes, little-endian, and the tags of the words touched, lowest first. -/
  | ok (v : Nat) (tags : List Tag)
  /-- The L1 does not hold the bytes of this line. -/
  | miss (line : Nat)
  | fault (kind : Nat)
  /-- A word tagged POI: where it lies (R188). -/
  | poison (info : Dword)
  /-- The L1 is sweeping (R284). -/
  | wait
deriving DecidableEq, Repr, Inhabited

/-- Tags of the words from byte `off` for `n` bytes. -/
def tagsIn (tags : BitVec 64) (off n : Nat) : List Tag :=
  (List.range ((off + n - 1) / 8 - off / 8 + 1)).map fun i => BitVec.ofNat 4 (tags.toNat / 2 ^ (4 * (off / 8 + i)))

/-- The tag POI (R144). -/
def tagPOI : Tag := 14

/-- The tag that a word of a page reads as: a page with TAG = 0 reads RAW (R24, R333), but POI where its block was poisoned (R399).
The spec does not say which of the two wins; that poison wins, for loads, fetches and engines alike, is the model's choice (log 57). -/
def seenTag (tagged : Bool) (t : Tag) : Tag := if tagged || t == tagPOI then t else 0

/-- A load of `n` bytes of one line through an L1; a word seen as POI raises POISON (log 57). -/
def State.loadL1 (s : State) (k pa n : Nat) (tagged : Bool) (poison : Dword) : LoadRes :=
  let l := s.l1 k
  let off := pa % 128
  if l.sweeping then .wait
  else
    match l.lines.get none (pa / 128) with
    | none => .miss (pa / 128)
    | some x =>
      let fused := decide (k ≥ 48)
      if byteMask off n &&& ~~~(l.readable fused x) = 0 ∧ wordMask off n &&& ~~~(l.knownTags fused x) = 0 then
        let ts := tagsIn x.tags off n
        if ts.contains tagPOI then .poison poison
        else .ok (x.data.toNat / 2 ^ (8 * off) % 2 ^ (8 * n)) (ts.map (seenTag tagged))
      else .miss (pa / 128)

/-- How a store treats the tags of the words it writes (R178, R279). -/
inductive TagMode where
  | keep
  | set (t : Tag)
  /-- A tag stored with its word, by TST and the other term instructions (R146, R155). -/
  | word (t : Tag)
deriving DecidableEq, Repr, Inhabited

/-- The tag that the words take, if any. -/
def TagMode.tag (m : TagMode) : Option Tag :=
  match m with
  | .keep => none
  | .set t => some t
  | .word t => some t

/-- How a store treats them on a page: one with TAG = 0 keeps no tag, and a tag written to it is discarded (R24, R333). -/
def TagMode.onPage (m : TagMode) (tagged : Bool) : TagMode :=
  match m with
  | .keep => .keep
  | .set t => .set t
  | .word t => if tagged then .word t else .keep

/-- The line with `n` bytes written by a group (R279); those of a pinning release are held until the line is unpinned (R285). -/
def Line.store (x : Line) (g off n : Nat) (v : Nat) (mode : TagMode) (pin : Bool) : Line :=
  let m := byteMask off n
  let x := { x with
    data := mix (expand8 m) (BitVec.ofNat 1024 (v * 2 ^ (8 * off))) x.data, valid := x.valid ||| m, dirty := x.dirty ||| m
    held := if pin then x.held ||| m else x.held &&& ~~~m
    unsent := if pin then x.unsent else x.unsent.set 0 g (x.unsent.get 0 g ||| m) }
  match mode.tag with
  | none => x
  | some t =>
    let w := wordMask off n
    { x with
      tags := mix (expand4 w) (BitVec.ofNat 64 (t.toNat * 0x1111111111111111)) x.tags
      tagKnown := x.tagKnown ||| w, tagDirty := x.tagDirty ||| w
      heldTags := if pin then x.heldTags ||| w else x.heldTags &&& ~~~w
      unsentTags := if pin then x.unsentTags else x.unsentTags.set 0 g (x.unsentTags.get 0 g ||| w) }

/-! ### Requests -/

/-- The slice of an L1's own sector that a line's requests pass through (R281). -/
def State.localSlice (s : State) (k line : Nat) : Nat := s.sliceIn (sectorOfL1 k) (128 * line)

/-- A visitor copy of the line serves the sector's reads (R281). -/
def State.visitorCopy (s : State) (k line : Nat) : Option Visitor :=
  if s.localSlice k line = s.homeSlice (128 * line) then none
  else
    match (s.slice (s.localSlice k line)).visitors.get none line with
    | some v => if v.version = (s.sector (sectorOfL1 k)).visitor then some v else none
    | none => none

/-- A slice that has had nothing to do has passed every cycle up to now (R291). -/
def Slice.awake (x : Slice) (now : Nat) : Slice := if x.cycle < now then { x with cycle := now, served := false } else x

/-- A request reaches a slice, after those that reached theirs before (R277), and waits there, or is held while the slice's
buckets move (R296). -/
def State.queueAt (s : State) (sl id : Nat) (r : Req) : State :=
  let (n, s) := s.take
  let kind := match r.kind with
    | .atomic a =>
      let keeps := (decide (a.use = 4) || decide (hostBit ≤ a.pa)) && sl == s.homeSlice (128 * r.line)
      .atomic { a with seen := if keeps then [s.readMem a.pa a.size] else a.seen }
    | k => k
  let s := s.setReq id (some { r with kind := kind, stage := .waiting, slice := sl, arrived := n })
  let x := (s.slice sl).awake s.clock
  s.setSlice sl (if x.moving then { x with held := x.held ++ [id] } else { x with queue := x.queue ++ [id] })

/-- The slice a request comes to first: the one of its own sector where the home is another sector's (R281). A pin registration
goes the way of the other requests, so that it comes after its L1's earlier writes of the line (log 60). -/
def State.firstSlice (s : State) (k line : Nat) : Nat :=
  if s.homeSector (128 * line) = sectorOfL1 k then s.homeSlice (128 * line) else s.localSlice k line

/-- A new request of a group through an L1, its core's by default; it records the L1's counters (R283) and the sector's visitor
version (R281). -/
def State.post (s : State) (g line : Nat) (kind : ReqKind) (ordered : Bool) (scope : Nat) (lane : Bool := false)
    (via : Option Nat := none) : Nat × State :=
  let grp := s.group g
  let k := via.getD (s.l1Of grp.core)
  let l := s.l1 k
  let (id, s) := s.take
  let r : Req :=
    { kind := kind, stage := .waiting, l1 := k, group := g, context := s.contextOf grp, line := line, slice := 0, arrived := 0
      lane := lane, ordered := ordered, scope := scope, tries := 0, data := 0, tags := 0, c := l.c, h := l.h, p := l.p, s := l.s
      visitor := (s.sector (sectorOfL1 k)).visitor, fellBack := false, prefetch := false }
  (id, s.queueAt (s.firstSlice k line) id r)

/-- The requests with their numbers. -/
def State.reqList (s : State) : List (Nat × Req) :=
  s.reqs.filterMap fun x =>
    match x.2 with
    | some r => some (x.1, r)
    | none => none

/-- A read of the line is on the way to this L1, ordered or not as asked. -/
def State.readPending (s : State) (g k line : Nat) (ordered lane : Bool) : Bool :=
  s.reqList.any fun x => x.2.l1 == k && x.2.line == line && x.2.kind == .read && x.2.ordered == ordered
    && (!ordered || (x.2.group == g && x.2.lane == lane))

/-- A line read for a missing line, unless one is already on the way (R279); an ordered one is noted for its stream (R288). -/
def State.fetchLine (s : State) (g line : Nat) (ordered : Bool) (scope : Nat) (lane : Bool) : State :=
  if s.readPending g (s.l1Of (s.group g).core) line ordered lane then s
  else
    let (id, s) := s.post g line .read ordered scope lane
    if !ordered then s
    else
      let x := s.group g
      s.setGroup g (if lane then { x with readsL := x.readsL ++ [id] } else { x with readsS := x.readsS ++ [id] })

/-- The ways of a slice that hold visitor copies of a kind are invalid again (R294). -/
def Slice.freeVisitors (x : Slice) (which : Way → Bool) : Slice :=
  { x with ways := x.ways.filter fun w => !(w.2.any fun y => y.visitor && which y) }

/-- The local slice's visitor copy of the line is invalidated (R281), and its way with it (R294). -/
def State.dropVisitor (s : State) (k line : Nat) : State :=
  let sl := s.localSlice k line
  let x := (s.slice sl).freeVisitors fun w => w.line == line
  s.setSlice sl { x with visitors := x.visitors.set none line none }

/-- A group's unsent bytes of a line leave as a write request (R279). -/
def State.sendUnsent (s : State) (k line g : Nat) : State :=
  let l := s.l1 k
  match l.lines.get none line with
  | none => s
  | some x =>
    let m := x.unsent.get 0 g
    if m = 0 then s
    else
      let tm := x.unsentTags.get 0 g
      let s := s.setL1 k { l with lines := l.lines.set none line (some { x with
        unsent := x.unsent.set 0 g 0, unsentTags := x.unsentTags.set 0 g 0 }) }
      (s.post g line (.write x.data m x.tags tm false) false 0 false (some k)).2

/-- Every group's unsent bytes of a line leave. -/
def State.sendLine (s : State) (k line : Nat) : State :=
  match (s.l1 k).lines.get none line with
  | none => s
  | some x => x.unsent.foldl (fun s u => s.sendUnsent k line u.1) s

/-- One pinned line is unpinned (R286): the bytes held by its pin leave as the unpinning write request, counted on the acting
group, after the bytes that groups have not sent. Bytes already on their way are not sent again (log 3). -/
def State.unpinOne (s : State) (k g line : Nat) : State :=
  let l := s.l1 k
  match l.lines.get none line with
  | none => s
  | some x =>
    if !x.pinned then s
    else
      let s := s.sendLine k line
      let l := s.l1 k
      let s := s.setL1 k { l with
        lines := l.lines.set none line (some { (l.lines.get none line).getD x with pinned := false, held := 0, heldTags := 0 })
        pins := l.pins.filter (· != line) }
      let s := (s.post g line (.write x.data x.held x.tags x.heldTags true) false 0 false (some k)).2
      s.setGroup g { s.group g with unack := (s.group g).unack + 1 }

/-- A pinned line is unpinned, after the lines that its L1 pinned before it: whoever finds its bytes at home finds theirs (R286,
R383, log 36). -/
def State.unpin (s : State) (k line g : Nat) : State :=
  let pins := (s.l1 k).pins
  if pins.contains line then (pins.takeWhile (· != line) ++ [line]).foldl (fun s x => s.unpinOne k g x) s else s

/-- Every pinned line of an L1 is unpinned, the oldest pin first (R286). -/
def State.unpinAll (s : State) (k g : Nat) : State := (s.l1 k).pins.foldl (fun s x => s.unpinOne k g x) s

/-- What other groups than `g` have not sent of a line leaves, where `which` says so of the bytes and the tags. -/
def State.sendOthers (s : State) (k line g : Nat) (which : BitVec 128 → BitVec 16 → Bool) : State :=
  match (s.l1 k).lines.get none line with
  | none => s
  | some x => x.unsent.foldl (fun (s : State) u =>
      if u.1 ≠ g ∧ which u.2 (x.unsentTags.get 0 u.1) then s.sendUnsent k line u.1 else s) s

/-- A store of `n` bytes from `pa` writes bytes of a mask again, or the tag of one of its words. -/
def storesOver (pa n : Nat) (mode : TagMode) (m : BitVec 128) (w : BitVec 16) : Bool :=
  m &&& byteMask (pa % 128) n != 0 || (mode.tag.isSome && w &&& wordMask (pa % 128) n != 0)

/-- A store of the group `g` into its L1: a new line request is counted unless one is still to be sent (R45, R279). Bytes that a
pinning release holds there leave first (log 36), and so does what another group wrote there and has not sent: a request holds stores
of one group, and each of them merges once (R279, R380). -/
def State.storeL1 (s : State) (g pa n v : Nat) (mode : TagMode) : State :=
  let k := s.l1Of (s.group g).core
  let line := pa / 128
  let s := if ((s.l1 k).lines.get none line).any fun x => storesOver pa n mode x.held x.heldTags then s.unpin k line g else s
  let s := s.sendOthers k line g (storesOver pa n mode)
  let l := s.l1 k
  let x := (l.lines.get none line).getD l.newLine
  let joined := decide (x.unsent.get 0 g ≠ 0)
  let s := s.setL1 k { l with lines := l.lines.set none line (some (x.store g (pa % 128) n v mode false)) }
  if joined then s else s.setGroup g { s.group g with unack := (s.group g).unack + 1 }

/-- Every byte that an L1 holds and has not sent leaves, pinned lines included (R284, R289). -/
def State.flushL1 (s : State) (k g : Nat) : State :=
  (s.l1 k).lines.foldl (fun s x => s.sendLine k x.1) (s.unpinAll k g)

/-- An unpinning write request of an L1 is not yet acknowledged (R286). -/
def State.unpinsOut (s : State) (k : Nat) : Bool :=
  s.reqList.any fun x => x.2.l1 == k &&
    (match x.2.kind with
     | .write _ _ _ _ unpin => unpin
     | _ => false)

/-- A write request of an L1, of one line or of any, is merged and its acknowledgement is on the way (R280). -/
def State.acksOut (s : State) (k : Nat) (line : Option Nat := none) : Bool :=
  s.reqList.any fun x => x.2.l1 == k && x.2.stage == .replied && line.all (· == x.2.line) &&
    (match x.2.kind with
     | .write _ _ _ _ _ => true
     | _ => false)

/-- Write requests and pin registrations of an L1 not yet acknowledged. -/
def State.writesOut (s : State) (k : Nat) : Bool :=
  s.reqList.any fun x => x.2.l1 == k &&
    (match x.2.kind with
     | .write _ _ _ _ _ => true
     | .pin => true
     | _ => false)

/-! ### The four spaces (R176) and range locks (R187) -/

/-- A checked access target: space, core, absolute byte (scratchpad or register area) or virtual address. -/
structure Target where
  space : Nat
  core : Nat
  at_ : Nat
  e : Dword
deriving DecidableEq, Repr, Inhabited

/-- CheckSpace (R176): the target, or PROT with e. -/
def State.checkSpace (s : State) (g : Group) (space : Nat) (e : Dword) (size : Nat) : Except (Nat × Dword) Target :=
  match space with
  | 0 => if canonical e then .ok ⟨0, g.core, e.toNat, e⟩ else .error (cPROT, e)
  | 1 =>
    match s.castOn g.launch g.core with
    | some c => if e.toNat + size ≤ c.scratchSize then .ok ⟨1, g.core, c.scratch + e.toNat, e⟩ else .error (cPROT, e)
    | none => .error (cPROT, e)
  | 2 => if e.toNat + size ≤ g.w * g.n * 4 then .ok ⟨2, g.core, g.rwb + e.toNat, e⟩ else .error (cPROT, e)
  | _ =>
    let core := g.core / 4 * 4 + e.toNat / 2 ^ 21 % 4
    let off := e.toNat % 2 ^ 21
    if e.toNat / 2 ^ 23 ≠ 0 then .error (cPROT, e)
    else
      match s.castOn g.launch core with
      | some c =>
        if c.saved.isSome ∨ c.scratchSize < off + size then .error (cPROT, e)
        else .ok ⟨3, core, c.scratch + off, e⟩
      | none => .error (cPROT, e)

/-- The lock entry that an access of `n` bytes meets (R185, R187). -/
def Core.lockHit (c : Core) (space ctx lo n : Nat) (write : Bool) : Option Nat :=
  (c.locks.find? fun x =>
    match x.2 with
    | none => false
    | some l =>
      l.space == space && (space != 0 || l.context == ctx) && (l.write || write)
        && decide (l.lo ≤ (lo + n - 1) / 256) && decide (lo / 256 < l.hi)).map (·.1)

/-- RANGELOCK's information (R187). -/
def lockInfo (entry : Nat) (write : Bool) (at_ : Nat) : Dword :=
  BitVec.ofNat 64 (entry * 2 ^ 58 + bitOf write * 2 ^ 57 + at_ % 2 ^ 57)

/-- The range-lock check of a target (R187). -/
def State.checkLock (s : State) (g : Group) (t : Target) (n : Nat) (write : Bool) : Option (Nat × Dword) :=
  let hit :=
    match t.space with
    | 0 => (s.core g.core).lockHit 0 (s.contextOf g) (t.at_ % 2 ^ 57) n write
    | 2 => none
    | _ => (s.core t.core).lockHit 1 0 t.at_ n write
  hit.map fun k => (cRANGELOCK, lockInfo k write (if t.space = 3 then t.e.toNat % 2 ^ 21 else t.e.toNat))

/-- POISON's information (R188). -/
def poisonInfo (space : Nat) (e : Dword) : Dword := BitVec.ofNat 64 (space * 2 ^ 61 + e.toNat % 2 ^ 61)

/-- POISON of an access to another core's scratchpad that meets a crossbar error (R275). -/
def State.aperturePoison (s : State) (g : Group) (t : Target) : Option Dword :=
  if t.space = 3 ∧ t.core ≠ g.core ∧ s.apertureErrors.contains s.cur then some (poisonInfo 3 t.e) else none

/-- Byte of the register area. -/
def Core.regByte (c : Core) (a : Nat) : Byte := BitVec.ofNat 8 ((c.regs.get 0 (a / 4)).toNat / 2 ^ (8 * (a % 4)))
/-- Byte of the register area written. -/
def Core.setRegByte (c : Core) (a : Nat) (b : Byte) : Core :=
  let w := (c.regs.get 0 (a / 4)).toNat
  let k := 2 ^ (8 * (a % 4))
  { c with regs := c.regs.set 0 (a / 4) (BitVec.ofNat 32 (w - w / k % 256 * k + b.toNat * k)) }

/-- Tags of the words that `n` bytes from `a` touch. -/
def tagsAt (t : Table Tag) (a n : Nat) : List Tag :=
  (List.range ((a + n - 1) / 8 - a / 8 + 1)).map fun i => t.get 0 (a / 8 + i)

/-- Those tags set. -/
def setTagsAt (t : Table Tag) (a n : Nat) (tag : Tag) : Table Tag :=
  (List.range ((a + n - 1) / 8 - a / 8 + 1)).foldl (fun t i => t.set 0 (a / 8 + i) tag) t

/-- Loads of a VIEW page return the slice context records (R290). The rule says that they are of 4 bytes, and gives no outcome for
another size: here it brings the record's bytes all the same (log 76). -/
def State.viewRead (s : State) (pa n : Nat) : Nat :=
  let x := (pa - viewPa) / 4096
  gather (fun i =>
    let off := (pa + i - viewPa) % 4096
    let r := (s.slice (off / 32)).contexts.get SliceContext.start x
    let dark := (s.slice (off / 32)).dark
    let v : Nat :=
      match off % 32 / 4 with
      | 0 => r.rate.toNat
      | 1 => r.borrow.toNat * 65536 + r.depth.toNat
      | 2 => r.wayMask.toNat
      | 3 => if dark then 0 else ((s.slice (off / 32)).ways.filter fun w => w.2.any fun y => y.context == x).length
      | 4 => r.debt.toNat * 65536 + r.tokens.toNat
      | 5 => r.wait.toNat
      | _ => 0
    if off / 32 < 96 then BitVec.ofNat 8 (v / 2 ^ (8 * (off % 4))) else 0) n

/-- An atomic of a group on its way that the instruction did not wait for (R307). -/
def State.lateReq (s : State) (x : Nat × Nat) : Option (Req × AtomReq) :=
  match s.req? x.1 with
  | some r =>
    match r.kind with
    | .atomic a => if a.late then some (r, a) else none
    | _ => none
  | none => none

/-- Where accesses of a group meet: a line, or 128 bytes of a core's scratchpad. -/
def Acc.spot (c : Acc) : Nat × Nat := (if c.space = 0 then 0 else 1 + c.core, c.at_ / 128)

/-- Its use gives the word no order with the group's later accesses (R307). -/
def Acc.lags (c : Acc) : Bool := c.atom.any fun a => a.use == 2 || a.use == 3

/-- A later release of the group waits for it: for all but an atomic declared .UNP or .COM (R307). -/
def AtomReq.released (a : AtomReq) : Bool := a.use != 1 && a.use != 2
def Acc.released (c : Acc) : Bool := c.atom.all AtomReq.released

/-- Accesses on their way with which a later one of their group to the same place keeps its order (R180). -/
def heldAt (as : List Access) (spot : Nat × Nat) : Bool := as.any fun a => a.accs.any fun c => c.spot == spot && !c.lags

/-- An atomic on its way to a line whose use orders it with the group's later accesses to its word (R306, R307). -/
def State.atomOn (s : State) (g : Group) (line : Nat) : Bool :=
  g.reqs.any fun x => (s.lateReq x).any fun y => y.1.line == line && y.2.use != 2 && y.2.use != 3

/-- An access of a group that its later accesses to a line wait for (R180). -/
def State.lateOn (s : State) (g : Group) (line : Nat) : Bool := s.atomOn g line || heldAt g.accesses (0, line)

/-- The executing group's instruction goes on while accesses of it are on their way (R65, R118). -/
def State.pend (s : State) (a : Access) : State :=
  if a.accs.isEmpty then s
  else
    let (id, s) := s.take
    s.upd fun g => { g with accesses := g.accesses ++ [{ a with id := id }] }

/-- Bytes of a scratchpad target with their words' tags (R178). -/
def State.loadScratch (s : State) (g : Group) (t : Target) (n : Nat) : LoadRes :=
  let c := s.core t.core
  if let some i := s.aperturePoison g t then .poison i
  else if (tagsAt c.scratchTags t.at_ n).contains tagPOI then .poison (poisonInfo t.space t.e)
  else .ok (gather (fun i => c.scratch.get 0 (t.at_ + i)) n) (tagsAt c.scratchTags t.at_ n)

/-- Bytes loaded from a target; the access is `aRead` for GLOBAL (R178). -/
def State.loadAt (s : State) (g : Group) (t : Target) (n : Nat) : LoadRes :=
  match t.space with
  | 0 =>
    match s.xlate g t.e aRead with
    | .fault k => .fault k
    | .ok pa tagged =>
      if isView pa then .ok (s.viewRead pa n) ((List.range ((n + 7) / 8)).map fun _ => 0)
      else if s.lateOn g (pa / 128) then .wait
      else s.loadL1 (s.l1Of g.core) pa n tagged (poisonInfo 0 t.e)
  | 2 =>
    let c := s.core t.core
    if (tagsAt c.regTags t.at_ n).contains tagPOI then .poison (poisonInfo 2 t.e)
    else .ok (gather (fun i => c.regByte (t.at_ + i)) n) (tagsAt c.regTags t.at_ n)
  | _ =>
    if (s.aperturePoison g t).isNone && heldAt g.accesses (1 + t.core, t.at_ / 128) then .wait else s.loadScratch g t n

end Sys2Proof.Machine
end

