-- ==== Sys2Proof/Machine/Sync.lean ====
section
/-!
DEFINITION. Stores, acquires and releases (R77, R78, R179, R282 to R288, R350), and fault records (R196, R324, R328, R330).
-/
namespace Sys2Proof.Machine

/-! ### Stores -/

/-- What a store comes to. -/
inductive StoreRes where
  | ok (s : State)
  | fault (kind : Nat)
  | trap (cause : Nat) (info : Dword)
  | wait
deriving DecidableEq, Repr, Inhabited

/-- Tags of `n` bytes from `a` after a store. -/
def TagMode.apply (m : TagMode) (t : Table Tag) (a n : Nat) : Table Tag :=
  match m.tag with
  | none => t
  | some tag => setTagsAt t a n tag

/-- The largest number of unacknowledged writes of a group (R27). -/
def unackMax : Nat := 1024

/-- A store access counts as its group's work (R356). -/
def State.noteStore (s : State) : State := s.upd fun g => { g with work := g.work + 1 }

/-- `n` bytes stored at a checked target; GLOBAL stores go to the L1 (R279), the others are performed at once (R265). -/
def State.storeAt (s : State) (t : Target) (n v : Nat) (mode : TagMode) : StoreRes :=
  let g := s.grp
  match t.space with
  | 0 =>
    match s.xlate g t.e aWrite with
    | .fault k => .fault k
    | .ok pa tagged =>
      if isView pa then .trap cPROT t.e
      else if (s.l1 (s.l1Of g.core)).sweeping || decide (g.unack ≥ unackMax) || s.lateOn g (pa / 128) then .wait
      else .ok (s.storeL1 s.cur pa n v (mode.onPage tagged)).noteStore
  | 2 =>
    let c := s.core t.core
    let c := (List.range n).foldl (fun c i => c.setRegByte (t.at_ + i) (BitVec.ofNat 8 (v / 2 ^ (8 * i)))) c
    .ok (s.setCore t.core { c with regTags := mode.apply c.regTags t.at_ n }).noteStore
  | _ =>
    let c := s.core t.core
    if let some i := s.aperturePoison g t then .trap cPOISON i
    else if heldAt g.accesses (1 + t.core, t.at_ / 128) then .wait
    else .ok (s.setCore t.core { c with
      scratch := (List.range n).foldl (fun m i => m.set 0 (t.at_ + i) (BitVec.ofNat 8 (v / 2 ^ (8 * i)))) c.scratch
      scratchTags := mode.apply c.scratchTags t.at_ n }).noteStore

/-! ### Scopes (R20, R285, R350) -/

/-- System scope (R20). -/
def scopeSYS : Nat := 5
/-- Package scope. -/
def scopePKG : Nat := 4

/-- What an ordering operation comes to. -/
inductive SyncRes where
  | done (s : State)
  | wait (s : State)
  | trap (cause : Nat) (info : Dword) (s : State)
deriving DecidableEq, Repr, Inhabited

/-- The scope an ordering operation acts at, and whether it is clamped (R350). -/
def State.clamped (s : State) (scope : Nat) : Bool := scope == scopeSYS && s.tenantScope (s.partitionOf s.grp)

/-- Clamping (R350): the operation with the scope it takes, or PROT with TRAPINFO 5. -/
def State.withClamp (s : State) (scope : Nat) (k : State → Nat → SyncRes) : SyncRes :=
  if s.clamped scope then
    let s := s.upd fun g => g.stick stickyClamp
    if s.clampTrap (s.partitionOf s.grp) then .trap cPROT 5 s else k s scopePKG
  else k s scope

/-- Narrowest scope whose release unpins: company on a private L1, house on a fused one (R285, R286). -/
def unpinScope (l1 : Nat) : Nat := if l1 ≥ 48 then 3 else 2

/-- The lane stream that releases and LSYNC wait for is idle (R71): in handler mode the handler's own block (R192) and the
stream and queue that the trap holds, whose instruction alone it finished (R190). Its reads are made, so that no write after an LSYNC
can supply them (R386, log 3). -/
def Group.syncIdle (g : Group) : Bool :=
  (g.accesses.all fun a => a.scalar || !a.accs.any (·.released)) && (match g.handler with
  | some h => !h.lane.running && g.laneIdle
  | none => g.laneIdle)

/-- Accesses that a release waits for beside the writes that R45 counts: reads on their way, of all fragments, but atomics declared .UNP
or .COM (R377). -/
def State.readsOut (s : State) (g : Group) : Bool :=
  (g.accesses.any fun a => a.accs.any (·.released)) || g.reqs.any fun x => (s.lateReq x).any fun y => y.2.released

/-- The stream's release in the fence order (R387). -/
def Group.rel (g : Group) (lane : Bool) : Option Nat := if lane then g.relL else g.relS
def Group.setRel (g : Group) (lane : Bool) (x : Option Nat) : Group :=
  if lane then { g with relL := x } else { g with relS := x }

/-- Write requests and pin registrations of an L1 numbered below `n` and not acknowledged. -/
def State.writesBefore (s : State) (k n : Nat) : Bool :=
  s.reqList.any fun x => decide (x.1 < n) && x.2.l1 == k && (match x.2.kind with
    | .write _ _ _ _ _ => true
    | .pin => true
    | _ => false)

/-- Bytes that groups have not sent stand in an L1. -/
def State.unsentIn (s : State) (k : Nat) : Bool :=
  (s.l1 k).lines.any fun x => x.2.any fun y => !y.unsent.isEmpty

/-- The end of a release: one that takes its place in the fence order, at a scope that reaches beyond the L1, lets the writes leave
that its group may have read in the L1, whichever group made them (R387); and a system-scope one waits until the host sees
what the device wrote (R332). -/
def State.releaseEnd (s : State) (scope : Nat) (lane full : Bool) : SyncRes :=
  let k := s.l1Of s.grp.core
  let visible : State → SyncRes := fun s => if scope = scopeSYS ∧ !s.hostView.isEmpty then .wait s else .done s
  if !full ∨ scope < unpinScope k then visible s
  else
    match s.grp.rel lane with
    | some n => if s.writesBefore k n then .wait s else visible (s.upd fun g => g.setRel lane none)
    | none =>
      if !s.unsentIn k ∧ !s.writesBefore k s.fresh then visible s
      else
        let s := s.flushL1 k s.cur
        .wait (s.upd fun g => g.setRel lane (some s.fresh))

/-- A release (R78 for the scalar stream, R179 for the lane stream): the group's writes are acknowledged, and at a scope wider
than pinning every pinned line of the L1 is unpinned and acknowledged, whichever group unpinned it (R286); `full` for one that is
part of an .AR operation. -/
def State.release (s : State) (scope : Nat) (lane : Bool) (full : Bool := false) : SyncRes :=
  s.withClamp scope fun s scope =>
    let g := s.grp
    let k := s.l1Of g.core
    if !(lane || g.syncIdle) || g.unack != 0 || s.readsOut g then .wait s
    else if unpinScope k ≤ scope ∧ !(s.l1 k).pins.isEmpty then
      .wait (s.unpinAll k s.cur)
    else if unpinScope k ≤ scope ∧ s.unpinsOut k then .wait s
    else s.releaseEnd scope lane full

/-- A 6-bit counter advanced, and whether it wrapped (R283, R284). -/
def bump (x : Nat) (on : Bool) : Nat × Bool := if on then (if x = 63 then (0, true) else (x + 1, false)) else (x, false)

/-- The visitor version of a sector advanced; a wrap invalidates its visitor copies (R282). -/
def State.bumpVisitor (s : State) (h : Nat) : State :=
  let x := s.sector h
  let (v, wrapped) := bump x.visitor true
  let s := s.setSector h { x with visitor := v }
  if wrapped then
    (List.range 16).foldl (fun s i =>
      s.setSlice (16 * h + i) { (s.slice (16 * h + i)).freeVisitors (fun _ => true) with visitors := [] }) s
  else s

/-- The counters of an L1 advanced for an acquire at a scope (R283), and whether one wrapped. -/
def L1.advance (l : L1) (scope : Nat) : L1 × Bool :=
  let (c, wc) := bump l.c (scope ≥ 2)
  let (h, wh) := bump l.h (scope ≥ 3)
  let (p, wp) := bump l.p (scope ≥ 4)
  let (t, wt) := bump l.s (scope ≥ 5)
  ({ l with c := c, h := h, p := p, s := t }, wc || wh || wp || wt)

/-- Lines and pins dropped at the end of a wrap sweep (R284). -/
def L1.sweep (l : L1) : L1 := { l with lines := [], pins := [], sweeping := false, drainSweep := false }

/-- The stream's acquire in progress. -/
def Group.acq (g : Group) (lane : Bool) : Option (Nat × Bool) := if lane then g.acqL else g.acqS
def Group.setAcq (g : Group) (lane : Bool) (x : Option (Nat × Bool)) : Group :=
  if lane then { g with acqL := x } else { g with acqS := x }
def Group.fell (g : Group) (lane : Bool) : Bool := if lane then g.fellL else g.fellS
def Group.setFell (g : Group) (lane x : Bool) : Group := if lane then { g with fellL := x } else { g with fellS := x }

/-- The counters of an acquire's L1 and sector advanced (R282, R283); where one wraps the sweep begins (R284). -/
def State.advanceAcquire (s : State) (scope : Nat) (lane : Bool) : SyncRes :=
  let k := s.l1Of s.grp.core
  let s := if scope ≥ scopePKG then s.bumpVisitor (sectorOfL1 k) else s
  let (l, wrapped) := (s.l1 k).advance scope
  let s := (s.setL1 k l).upd fun g => g.setAcq lane none
  if wrapped then
    let s := s.flushL1 k s.cur
    .wait ((s.setL1 k { s.l1 k with sweeping := true }).upd fun g => g.setAcq lane (some (scope, true)))
  else .done s

/-- An acquire of a stream after its access (R283), with the wrap sweep of R284; one that arrives while another's sweep runs
increments after it. The acknowledgements of its L1's merged writes arrive before it, so that no byte of theirs hides a later write
from what follows (R385, log 75). The fall-back of R288 drops it. -/
def State.acquire (s : State) (scope : Nat) (lane : Bool) : SyncRes :=
  if s.grp.fell lane then .done (s.setGrp ((s.grp.setFell lane false).stick stickyMiss))
  else
    s.withClamp scope fun s scope =>
      let g := s.grp
      let k := s.l1Of g.core
      match g.acq lane with
      | some (_, true) =>
        if s.writesOut k then .wait s
        else .done ((s.setL1 k (s.l1 k).sweep).setGrp (g.setAcq lane none))
      | _ =>
        if scope < 2 then .done s
        else if (s.l1 k).sweeping || s.acksOut k then .wait (s.setGrp (g.setAcq lane (some (scope, false))))
        else s.advanceAcquire scope lane

/-! ### Fault records and the error log (R324, R328, R330) -/

/-- Little-endian bytes of an 8-byte word. -/
def bytes64 (v : Nat) : List Byte := leBytes 8 v

/-- Bytes that the package itself writes to memory, performed at their home, where its stack works (R357): the L1s' copies of those
bytes are left as they are, and the host sees them. -/
def State.deviceWrite (s : State) (pa : Nat) (bs : List Byte) : State := if s.stackDead pa then s else s.writeMem pa bs

/-- The fault ring is full (R328). -/
def State.ringFull (s : State) : Bool := (s.driver.frProd - s.driver.frCons).toNat == 2 ^ s.driver.frSize.toNat

/-- A fault record posted (R324, R328); `engine` for an engine command's. -/
def State.postFault (s : State) (ctx va kind access core place : Nat) (engine : Bool) : State :=
  let d := s.driver
  let at_ := d.frBase.toNat + 32 * (d.frProd.toNat % 2 ^ d.frSize.toNat)
  let w := ctx * 2 ^ 58 + kind * 2 ^ 52 + access * 2 ^ 50 + bitOf engine * 2 ^ 49 + core * 2 ^ 40 + place * 2 ^ 34
  let id := s.nextFault
  let s := s.deviceWrite at_ (bytes64 va ++ bytes64 w ++ bytes64 id ++ bytes64 0)
  { s with
    driver := { d with frProd := d.frProd + 1 }, nextFault := id + 1, irqs := (s.irqs.1 + 1, s.irqs.2)
    faults := if engine then s.faults else s.faults ++ [⟨id, ctx, va % 2 ^ 57 / 2 ^ 16⟩] }

/-- A group joins an open record of its context and 64 KiB range, or posts one, or stays parked while the ring is full
(R324, R325). -/
def State.recordFault (s : State) (g : Nat) : State :=
  let grp := s.group g
  match grp.parked with
  | none => s
  | some p =>
    let ctx := s.contextOf grp
    match s.faults.find? (fun f => f.context == ctx && f.range == p.va.toNat % 2 ^ 57 / 2 ^ 16) with
    | some f => s.setGroup g { grp with parked := some { p with fault := some f.id } }
    | none =>
      if s.ringFull then s.setGroup g { grp with parked := some { p with fault := none } }
      else
        let id := s.nextFault
        let s := s.postFault ctx p.va.toNat p.kind p.access grp.core grp.place false
        s.setGroup g { s.group g with parked := some { p with fault := some id } }

/-- The executing group is parked on a translation fault (R196); beside one that holds it already, the instruction makes its access
again later. -/
def State.parkGroup (s : State) (va : Dword) (kind access : Nat) (lane : Bool) : State :=
  let g := s.grp
  let l := g.stream
  let p : Parked :=
    { fault := none, va := va, kind := kind, access := access, lane := lane, frag := l.cur
      pc := if lane then l.frag.pc else g.pc }
  let g := g.dropReads lane l.cur
  if g.parked.isSome then s.setGrp g
  else (s.setGrp { g with parked := some p, waitS := .none, waitL := .none }).recordFault s.cur

/-- An entry of the error log (R330): point, unit, kind. -/
def State.logError (s : State) (pa point unit kind : Nat) : State :=
  let d := s.driver
  if (d.errProd - d.errCons).toNat = 2 ^ d.errSize.toNat then { s with driver := { d with errLost := d.errLost + 1 } }
  else
    let at_ := d.errBase.toNat + 16 * (d.errProd.toNat % 2 ^ d.errSize.toNat)
    let s := s.deviceWrite at_ (bytes64 pa ++ bytes64 (point * 2 ^ 56 + unit * 2 ^ 48 + kind * 2 ^ 40))
    { s with driver := { d with errProd := d.errProd + 1 }, irqs := (s.irqs.1, s.irqs.2 + 1) }

end Sys2Proof.Machine
end

