-- ==== Sys2Proof/Machine/Fetch.lean ====
section
/-!
DEFINITION. Instruction fetch of both streams (R48, R197) and the conditions under which a stream issues (R190, R196, R200).
-/
namespace Sys2Proof.Machine

/-- What a fetch comes to (R197). -/
inductive Fetched where
  | ok (bytes : List Byte)
  | trap (cause : Nat) (info : Dword)
  /-- A translation fault at an address. -/
  | park (va : Dword) (kind : Nat)
deriving DecidableEq, Repr, Inhabited

/-- The 8-byte words that `n` bytes at a physical address touch hold the tag POI, or a sector's requests to them come back poisoned
(R297, R357). -/
def State.poisoned (s : State) (sector pa n : Nat) : Bool :=
  s.unreachable sector (pa / 128) || (List.range ((pa + n - 1) / 8 - pa / 8 + 1)).any fun i => s.tags.get 0 (pa / 8 + i) == tagPOI

/-- Bytes of memory at an address. -/
def State.bytesAt (s : State) (pa n : Nat) : List Byte := (List.range n).map fun i => s.byte (pa + i)

/-- `n` bytes of code at an address, the fetch translated on the pages of its first and its last byte (R197, log 4). -/
def State.fetchAt (s : State) (g : Group) (pc : Dword) (n : Nat) : Fetched :=
  if !canonical pc then .trap cPROT pc
  else
    match s.xlate g pc aFetch with
    | .fault k => .park pc k
    | .ok pa _ =>
      match s.xlate g (pc + BitVec.ofNat 64 (n - 1)) aFetch with
      | .fault k => .park (pc + BitVec.ofNat 64 (n - 1)) k
      | .ok last _ =>
        let first := 65536 - pc.toNat % 65536
        if first ≥ n then
          if s.poisoned (sectorOfCore g.core) pa n then .trap cPOISON (poisonInfo 0 pc) else .ok (s.bytesAt pa n)
        else
          let from2 := last - last % 65536
          if s.poisoned (sectorOfCore g.core) pa first || s.poisoned (sectorOfCore g.core) from2 (n - first) then .trap cPOISON (poisonInfo 0 pc)
          else .ok (s.bytesAt pa first ++ s.bytesAt from2 (n - first))

/-- An address lies in a code section of `len` 256-byte units (R48, R337). -/
def inSection (base : Dword) (len : Nat) (pc : Dword) : Bool := decide ((pc - base).toNat < 256 * len)

/-- Fetch of the scalar stream (R82, R197): alignment before the section's bounds (R189). -/
def State.fetchScalar (s : State) (g : Group) : Fetched :=
  let r := s.recordOf g
  if g.pc.toNat % 4 ≠ 0 then .trap cMISALIGN g.pc
  else if !inSection r.scode r.slen g.pc then .trap cPROT g.pc
  else s.fetchAt g g.pc 4

/-- Fetch of the lane stream at the current fragment's PC (R197). The spec names no fault for a PC, from TRAPPC, that is no multiple of 12
bytes from the section's start: the 12 bytes there are fetched and run (log 76). -/
def State.fetchLane (s : State) (g : Group) : Fetched :=
  let r := s.recordOf g
  let pc := g.stream.frag.pc
  if !inSection r.lcode r.llen pc then .trap cPROT pc else s.fetchAt g pc 12

/-- A pre-emption has stopped the group (R200): for a live-in save now or at a boundary, or for a full save. -/
def Group.stopped (g : Group) : Bool :=
  match g.preempt with
  | none => false
  | some p => p.full || (g.handler.isNone && !g.effect && g.region != .absent)

/-- The scalar stream may issue; beside a trap, a fault or a pre-emption that holds the group it finishes what it has begun
(R190, R196, R200). -/
def Group.scalarRuns (g : Group) : Bool :=
  g.life == .resident && (g.parked.all fun p => p.lane && g.midScalar) && !g.yielding && !(g.stopped && !g.midScalar) &&
    (match g.deferred with
     | none => true
     | some t => t.lane && g.midScalar)

/-- A trap, a fault or a pre-emption holds the lane stream: it finishes what its fragments have begun and issues nothing else
(R190, R196, R200). -/
def Group.laneHeld (g : Group) : Bool := g.parked.isSome || g.stopped || g.deferred.isSome

/-- The lane stream may issue: a started block whose current fragment is ready, or, while it is held, one that has begun. -/
def Group.laneRuns (g : Group) : Bool :=
  g.life == .resident && g.stream.running && (if g.laneHeld then g.stream.frag.issued else g.stream.frag.state == .ready)

end Sys2Proof.Machine
end

