-- ==== Sys2Proof/Machine/Float.lean ====
section
/-!
DEFINITION. The floating-point formats of the device (R211, R212) and their arithmetic: exact values, one rounding
(R104, R114), the operations of R105 to R112 and the special functions of R110.
-/
namespace Sys2Proof.Machine

/-- A floating-point layout: sign, `ebits` of exponent, `mbits` of fraction (R211). -/
structure Fmt where
  mbits : Nat
  ebits : Nat
  /-- Canonical NaN (R105, R212). -/
  nan : Nat
  /-- Whether the all-ones exponent holds infinities and NaNs; E4M3 has no infinity (R212). -/
  ieee : Bool
deriving DecidableEq, Repr, Inhabited

def fmtE4M3 : Fmt := ⟨3, 4, 0x7F, false⟩
def fmtE5M2 : Fmt := ⟨2, 5, 0x7E, true⟩
def fmtF16 : Fmt := ⟨10, 5, 0x7E00, true⟩
def fmtB16 : Fmt := ⟨7, 8, 0x7FC0, true⟩
def fmtF32 : Fmt := ⟨23, 8, 0x7FC00000, true⟩
def fmtF64 : Fmt := ⟨52, 11, 0x7FF8000000000000, true⟩

/-- Weight of the sign bit. -/
def Fmt.signBit (f : Fmt) : Nat := 2 ^ (f.mbits + f.ebits)
/-- Exponent bias (R211). -/
def Fmt.bias (f : Fmt) : Nat := 2 ^ (f.ebits - 1) - 1
/-- Exponent of the lowest fraction bit of a subnormal. -/
def Fmt.qmin (f : Fmt) : Int := 1 - (f.bias : Int) - (f.mbits : Int)
/-- Magnitude bits of infinity, in the formats that have one. -/
def Fmt.inf (f : Fmt) : Nat := (2 ^ f.ebits - 1) * 2 ^ f.mbits
/-- Magnitude bits of the largest finite value (R211). -/
def Fmt.maxFin (f : Fmt) : Nat := if f.ieee then f.inf - 1 else f.signBit - 2

/-- An exact value: NaN, an infinity, or the dyadic number plus or minus m × 2^e (with a signed zero). -/
inductive Num where
  | nan
  | inf (neg : Bool)
  | fin (neg : Bool) (m : Nat) (e : Int)
deriving DecidableEq, Repr, Inhabited

/-- Rounding modes (R57). -/
inductive Rnd where
  | rne
  | rtz
  | rdn
  | rup
  | rna
deriving DecidableEq, Repr, Inhabited

/-- Rounding code 0 to 4 (R57). -/
def Rnd.ofCode (c : Nat) : Rnd :=
  match c with
  | 1 => .rtz
  | 2 => .rdn
  | 3 => .rup
  | 4 => .rna
  | _ => .rne

/-- The value of an encoding (R211, R212). -/
def Fmt.read (f : Fmt) (bits : Nat) : Num :=
  let neg := bits / f.signBit % 2 == 1
  let mag := bits % f.signBit
  let ex := mag / 2 ^ f.mbits
  let fr := mag % 2 ^ f.mbits
  if f.ieee && decide (mag > f.inf) then .nan
  else if f.ieee && mag == f.inf then .inf neg
  else if !f.ieee && mag == f.signBit - 1 then .nan
  else if ex = 0 then .fin neg fr f.qmin
  else .fin neg (fr + 2 ^ f.mbits) (f.qmin + (ex : Int) - 1)

/-- An encoding from a sign and magnitude bits. -/
def Fmt.pack (f : Fmt) (neg : Bool) (mag : Nat) : Nat := if neg then f.signBit + mag else mag

/-- m / 2^k rounded to an integer by the mode; `neg` is the sign of the value. -/
def roundShift (r : Rnd) (neg : Bool) (m k : Nat) : Nat :=
  let q := m / 2 ^ k
  let rem := m % 2 ^ k
  if rem = 0 then q
  else
    let up : Bool :=
      match r with
      | .rne => decide (2 * rem > 2 ^ k) || (2 * rem == 2 ^ k && q % 2 == 1)
      | .rna => decide (2 * rem ≥ 2 ^ k)
      | .rtz => false
      | .rdn => neg
      | .rup => !neg
    if up then q + 1 else q

/-- Magnitude bits of m × 2^e rounded with an unbounded exponent range above (R114). -/
def Fmt.rank (f : Fmt) (r : Rnd) (neg : Bool) (m : Nat) (e : Int) : Nat :=
  if m = 0 then 0
  else
    let top := (m.log2 : Int) + e
    let q := max (top - f.mbits) f.qmin
    let mant := if e ≥ q then m * 2 ^ (e - q).toNat else roundShift r neg m (q - e).toNat
    (q - f.qmin).toNat * 2 ^ f.mbits + mant

/-- Whether a finite overflow goes to infinity under the mode (R104). -/
def Rnd.toInf (r : Rnd) (neg : Bool) : Bool :=
  match r with
  | .rne | .rna => true
  | .rtz => false
  | .rdn => neg
  | .rup => !neg

/-- RoundFloat (R104, R114): an exact value as an encoding of the format. -/
def Fmt.round (f : Fmt) (r : Rnd) (sat : Bool) (x : Num) : Nat :=
  match x with
  | .nan => f.nan
  | .inf neg => if sat then f.pack neg f.maxFin else if f.ieee then f.pack neg f.inf else f.nan
  | .fin neg m e =>
    let k := f.rank r neg m e
    if k ≤ f.maxFin then f.pack neg k
    else if sat then f.pack neg f.maxFin
    else if !f.ieee then f.nan
    else if r.toInf neg then f.pack neg f.inf
    else f.pack neg f.maxFin

/-- Sign of an exact value. -/
def Num.isNeg : Num → Bool
  | .nan => false
  | .inf n => n
  | .fin n _ _ => n

/-- Sign inverted. -/
def Num.flip : Num → Num
  | .nan => .nan
  | .inf n => .inf (!n)
  | .fin n m e => .fin (!n) m e

/-- A signed integer times 2^e as an exact value; zero takes the sign given. -/
def Num.ofInt (zeroNeg : Bool) (x e : Int) : Num :=
  if x = 0 then .fin zeroNeg 0 e else .fin (decide (x < 0)) x.natAbs e

/-- The mantissa with its sign. -/
def signed (neg : Bool) (m : Nat) : Int := if neg then -(m : Int) else m

/-- Exact sum (R105); the mode decides the sign of an exact zero. -/
def Num.add (r : Rnd) (a b : Num) : Num :=
  match a, b with
  | .nan, _ => .nan
  | _, .nan => .nan
  | .inf x, .inf y => if x == y then .inf x else .nan
  | .inf x, .fin _ _ _ => .inf x
  | .fin _ _ _, .inf y => .inf y
  | .fin x m d, .fin y n e =>
    let q := min d e
    let s := signed x m * 2 ^ (d - q).toNat + signed y n * 2 ^ (e - q).toNat
    Num.ofInt (if m = 0 ∧ n = 0 ∧ x = y then x else r == .rdn) s q

/-- Exact product. -/
def Num.mul (a b : Num) : Num :=
  match a, b with
  | .nan, _ => .nan
  | _, .nan => .nan
  | .inf x, .inf y => .inf (x != y)
  | .inf x, .fin y n _ => if n = 0 then .nan else .inf (x != y)
  | .fin x m _, .inf y => if m = 0 then .nan else .inf (x != y)
  | .fin x m d, .fin y n e => .fin (x != y) (m * n) (d + e)

/-- Quotient with at least `p` significant bits, the inexact part folded into the lowest bit. -/
def Num.div (p : Nat) (a b : Num) : Num :=
  match a, b with
  | .nan, _ => .nan
  | _, .nan => .nan
  | .inf _, .inf _ => .nan
  | .inf x, .fin y _ _ => .inf (x != y)
  | .fin x _ _, .inf y => .fin (x != y) 0 0
  | .fin x m d, .fin y n e =>
    if n = 0 then if m = 0 then .nan else .inf (x != y)
    else
      let k := p + n.log2 + 1
      let q := m * 2 ^ k / n
      let sticky := if m * 2 ^ k % n = 0 then 0 else 1
      .fin (x != y) (2 * q + sticky) (d - e - k - 1)

/-- Integer square root by bits from `i` down. -/
def isqrtFrom (x : Nat) : Nat → Nat → Nat
  | 0, acc => if (acc + 1) * (acc + 1) ≤ x then acc + 1 else acc
  | i + 1, acc => isqrtFrom x i (if (acc + 2 ^ (i + 1)) * (acc + 2 ^ (i + 1)) ≤ x then acc + 2 ^ (i + 1) else acc)

/-- Floor of the square root. -/
def isqrt (x : Nat) : Nat := isqrtFrom x (x.log2 / 2 + 1) 0

/-- Square root with at least `p` significant bits, inexactness folded into the lowest bit (R107). -/
def Num.sqrt (p : Nat) (a : Num) : Num :=
  match a with
  | .nan => .nan
  | .inf x => if x then .nan else .inf false
  | .fin x m e =>
    if m = 0 then .fin x 0 e
    else if x then .nan
    else
      let k := if (e - 2 * (p : Int)) % 2 = 0 then 2 * p else 2 * p + 1
      let v := m * 2 ^ k
      let s := isqrt v
      .fin false (2 * s + (if s * s = v then 0 else 1)) ((e - k) / 2 - 1)

/-- The value rounded to an integer (R112, R113); NaN and infinities unchanged. -/
def Num.integral (r : Rnd) (a : Num) : Num :=
  match a with
  | .fin x m e => if e ≥ 0 then .fin x m e else .fin x (roundShift r x m (-e).toNat) 0
  | _ => a

/-- The integer of an integral finite value. -/
def Num.toInt (a : Num) : Int :=
  match a with
  | .fin x m e => signed x (m * 2 ^ e.toNat)
  | _ => 0

/-- Order of two encodings with −0 below +0 (R108). -/
def Fmt.key (f : Fmt) (bits : Nat) : Int :=
  let mag := bits % f.signBit
  if bits / f.signBit % 2 = 1 then -(mag : Int) - 1 else mag

/-- Whether an encoding is a NaN. -/
def Fmt.isNan (f : Fmt) (bits : Nat) : Bool := f.read bits == .nan

/-- Source modifiers (R106): abs clears the sign, then neg inverts it. -/
def Fmt.modify (f : Fmt) (neg abs : Bool) (bits : Nat) : Nat :=
  let mag := bits % f.signBit
  let s := (bits / f.signBit % 2 == 1) && !abs
  f.pack (s != neg) mag

/-- FADD (R107). -/
def Fmt.add (f : Fmt) (r : Rnd) (a b : Nat) : Nat := f.round r false ((f.read a).add r (f.read b))
/-- FSUB: a + (−b) (R105). -/
def Fmt.sub (f : Fmt) (r : Rnd) (a b : Nat) : Nat := f.round r false ((f.read a).add r (f.read b).flip)
/-- FMUL (R107). -/
def Fmt.mul (f : Fmt) (r : Rnd) (a b : Nat) : Nat := f.round r false ((f.read a).mul (f.read b))
/-- FFMA: one rounding (R107). -/
def Fmt.fma (f : Fmt) (r : Rnd) (a b c : Nat) : Nat :=
  f.round r false (((f.read a).mul (f.read b)).add r (f.read c))
/-- FDIV (R107). -/
def Fmt.div (f : Fmt) (r : Rnd) (a b : Nat) : Nat := f.round r false ((f.read a).div (f.mbits + 3) (f.read b))
/-- FSQRT (R107). -/
def Fmt.sqrt (f : Fmt) (r : Rnd) (a : Nat) : Nat := f.round r false ((f.read a).sqrt (f.mbits + 4))
/-- FRND (R112). -/
def Fmt.rnd (f : Fmt) (r : Rnd) (a : Nat) : Nat := f.round r false ((f.read a).integral r)

/-- FMIN and FMAX (R108). -/
def Fmt.minMax (f : Fmt) (wantMax : Bool) (a b : Nat) : Nat :=
  if f.isNan a then if f.isNan b then f.nan else b
  else if f.isNan b then a
  else if decide (f.key a < f.key b) != wantMax then a else b

/-- FCMP's conditions (R109). -/
def Fmt.cmp (f : Fmt) (cond a b : Nat) : Bool :=
  let un := f.isNan a || f.isNan b
  let z := a % f.signBit == 0 && b % f.signBit == 0
  let lt := !z && decide (f.key a < f.key b)
  let gt := !z && decide (f.key b < f.key a)
  match cond with
  | 0 => !un && !lt && !gt
  | 1 => un || lt || gt
  | 2 => !un && lt
  | 3 => !un && !gt
  | 4 => !un && gt
  | 5 => !un && !lt
  | 6 => !un
  | _ => un

/-- FCLASS's mask of one element (R111). -/
def Fmt.classify (f : Fmt) (bits : Nat) : Nat :=
  let neg := bits / f.signBit % 2 == 1
  let mag := bits % f.signBit
  if f.isNan bits then if bits / 2 ^ (f.mbits - 1) % 2 = 0 then 2 ^ 8 else 2 ^ 9
  else if mag = f.inf then if neg then 1 else 2 ^ 7
  else if mag = 0 then if neg then 2 ^ 3 else 2 ^ 4
  else if mag < 2 ^ f.mbits then if neg then 2 ^ 2 else 2 ^ 5
  else if neg then 2 ^ 1 else 2 ^ 6

/-! ### Special functions (R110)

Each is computed in fixed point with `specialBits` fraction bits, far more than any result needs; exact cases are taken
apart first. A result whose bound is wider than correct rounding is moved by `Config.freeUlps` where the moved value
still meets the bound (log 10). -/

/-- Fraction bits of the fixed-point computations. -/
def specialBits : Nat := 512

/-- One in fixed point. -/
def fxOne : Nat := 2 ^ specialBits

/-- Sum of the first `n` terms of a series whose term k + 1 is `next k term`. -/
def seriesSum (next : Nat → Nat → Nat) (n term : Nat) : Nat :=
  ((List.range n).foldl (fun (p : Nat × Nat) k => (p.1 + p.2, next k p.2)) (0, term)).1

/-- The same with alternating signs. -/
def seriesAlt (next : Nat → Nat → Nat) (n term : Nat) : Nat :=
  let p := (List.range n).foldl (fun (p : Int × Nat) k =>
    (if k % 2 = 0 then p.1 + p.2 else p.1 - p.2, next k p.2)) (0, term)
  p.1.toNat

/-- exp y for 0 ≤ y < 1. -/
def fxExp (y : Nat) : Nat := seriesSum (fun k t => t * y / fxOne / (k + 1)) 110 fxOne

/-- atanh(num / den) for num / den at most 1/3. -/
def fxAtanh (num den : Nat) : Nat :=
  let x := num * fxOne / den
  let x2 := x * x / fxOne
  ((List.range 170).foldl (fun (p : Nat × Nat) k => (p.1 + p.2 / (2 * k + 1), p.2 * x2 / fxOne)) (0, x)).1

/-- Natural logarithm of 2. -/
def fxLn2 : Nat := 2 * fxAtanh 1 3

/-- arctan(1 / n) for n ≥ 5. -/
def fxAtanInv (n : Nat) : Nat :=
  let p := (List.range 115).foldl (fun (p : Int × Nat) k =>
    (if k % 2 = 0 then p.1 + (p.2 / (2 * k + 1) : Nat) else p.1 - (p.2 / (2 * k + 1) : Nat), p.2 / (n * n))) ((0 : Int), fxOne / n)
  p.1.toNat

/-- The circle's constant, by Machin's formula. -/
def fxPi : Nat := 16 * fxAtanInv 5 - 4 * fxAtanInv 239

/-- sin x for 0 ≤ x ≤ 1. -/
def fxSin (x : Nat) : Nat :=
  let x2 := x * x / fxOne
  seriesAlt (fun k t => t * x2 / fxOne / ((2 * k + 2) * (2 * k + 3))) 55 x

/-- cos x for 0 ≤ x ≤ 1. -/
def fxCos (x : Nat) : Nat :=
  let x2 := x * x / fxOne
  seriesAlt (fun k t => t * x2 / fxOne / ((2 * k + 1) * (2 * k + 2))) 55 fxOne

/-- m × 2^e in fixed point, rounded down. -/
def toFx (m : Nat) (e : Int) : Nat :=
  let k := e + specialBits
  if k ≥ 0 then m * 2 ^ k.toNat else m / 2 ^ (-k).toNat

/-- An inexact non-negative value: strictly above m × 2^e and below (m + 1) × 2^e. -/
def inexact (neg : Bool) (m : Nat) (e : Int) : Num := .fin neg (2 * m + 1) (e - 1)

/-- sin of quadrant × (quarter turn) + r, r in fixed point below a quarter turn `quarter` (as an angle). -/
def fxSinQuadrant (quadrant r quarter : Nat) : Bool × Nat :=
  let s : Nat → Nat := fun x => if 2 * x ≤ quarter then fxSin x else fxCos (quarter - x)
  match quadrant % 4 with
  | 0 => (false, s r)
  | 1 => (false, s (quarter - r))
  | 2 => (true, s r)
  | _ => (true, s (quarter - r))

/-- The special functions by opcode order from FRCP. -/
inductive Special where
  | rcp
  | rsq
  | ex2
  | lg2
  | sin
  | cos
  | sinpi
  | cospi
  | tanh
deriving DecidableEq, Repr, Inhabited

/-- Number of the function, for the free offset. -/
def Special.code : Special → Nat
  | .rcp => 0
  | .rsq => 1
  | .ex2 => 2
  | .lg2 => 3
  | .sin => 4
  | .cos => 5
  | .sinpi => 6
  | .cospi => 7
  | .tanh => 8

/-- Odd functions of R110: the sign of the input passes to the result. -/
def Special.odd : Special → Bool
  | .rcp | .sin | .sinpi | .tanh => true
  | _ => false

/-- The exact value of the function at a finite value m × 2^e with sign `neg`, whether it is exact, for `p` bits. For an
odd or even function the sign is left out here (R110). -/
def Special.value (fn : Special) (p : Nat) (neg : Bool) (m : Nat) (e : Int) : Num × Bool :=
  match fn with
  | .rcp =>
    let v := Num.div p (.fin false 1 0) (.fin false m e)
    (v, decide (m = 2 ^ m.log2))
  | .rsq =>
    if m = 0 then (.inf neg, true)
    else if neg then (.nan, true)
    else
      let k := 2 * p + m.log2 + 1
      let k := if ((k : Int) + e) % 2 = 0 then k else k + 1
      let v := 2 ^ k / m
      let s := isqrt v
      let ex := decide (s * s * m = 2 ^ k)
      (.fin false (2 * s + (if ex then 0 else 1)) (-((k : Int) + e) / 2 - 1), ex)
  | .ex2 =>
    let x := if decide (m.log2 + e ≥ 14) then signed neg (2 ^ 14) else 0
    if x ≠ 0 then (.fin false 1 x, false)
    else
      let t := toFx m e
      let whole := decide (t % fxOne = 0 ∧ (e ≥ 0 ∨ m % 2 ^ (-e).toNat = 0))
      if whole then (.fin false 1 (signed neg (t / fxOne)), true)
      else
        let n : Int := if neg then -(t / fxOne : Nat) - 1 else (t / fxOne : Nat)
        let f := if neg then fxOne - t % fxOne else t % fxOne
        (inexact false (fxExp (f * fxLn2 / fxOne)) (n - specialBits), false)
  | .lg2 =>
    if m = 0 then (.inf true, true)
    else if neg then (.nan, true)
    else
      let top : Int := (m.log2 : Int) + e
      let one := 2 ^ m.log2
      if m = one then (Num.ofInt false top 0, true)
      else
        let l := 2 * fxAtanh (m - one) (m + one) * fxOne / fxLn2
        let v : Int := top * (fxOne : Int) + l
        (inexact (decide (v < 0)) (if v < 0 then v.natAbs - 1 else v.natAbs) (-specialBits), false)
  | .sin | .cos =>
    if m = 0 then (if fn = .sin then .fin false 0 0 else .fin false 1 0, true)
    else
      let quarter := fxPi / 2
      let x := m * 2 ^ (e + specialBits).toNat * fxOne
      let q := fxPi * fxOne / 2
      let n := x / q
      let (s, v) := fxSinQuadrant (if fn = .sin then n else n + 1) (x % q / fxOne) quarter
      (inexact s v (-specialBits), false)
  | .sinpi | .cospi =>
    let t := toFx m e
    let exactHalf := decide ((e ≥ -1) ∨ m % 2 ^ (-1 - e).toNat = 0)
    let n := 2 * t / fxOne
    let q := (if fn = .sinpi then n else n + 1) % 4
    if exactHalf then
      (match q with
        | 0 => .fin false 0 0
        | 1 => .fin false 1 0
        | 2 => if fn = .sinpi then .fin false 0 0 else .fin false 0 0
        | _ => .fin true 1 0, true)
    else
      let r := 2 * t % fxOne * (fxPi / 2) / fxOne
      let (s, v) := fxSinQuadrant q r (fxPi / 2)
      (inexact s v (-specialBits), false)
  | .tanh =>
    if m = 0 then (.fin false 0 0, true)
    else if (m.log2 : Int) + e ≥ 7 then (inexact false (fxOne - 1) (-specialBits), false)
    else
      let t := 2 * toFx m e * fxOne / fxLn2
      let big := fxExp (t % fxOne * fxLn2 / fxOne) * 2 ^ (t / fxOne)
      (inexact false ((big - fxOne) * fxOne / (big + fxOne)) (-specialBits), false)

/-- Results at infinities (R110). -/
def Special.atInf (fn : Special) (neg : Bool) : Num :=
  match fn with
  | .rcp => .fin neg 0 0
  | .rsq => if neg then .nan else .fin false 0 0
  | .ex2 => if neg then .fin false 0 0 else .inf false
  | .lg2 => if neg then .nan else .inf false
  | .tanh => .fin neg 1 0
  | _ => .nan

/-- The bound in ulps that a format's result must meet; none where it is correctly rounded (R110). -/
def Special.bound (fn : Special) (isF32 : Bool) : Option Nat :=
  match fn with
  | .sin | .cos => some (if isF32 then 2 else 1)
  | .tanh => if isF32 then some 2 else none
  | _ => if isF32 then some 1 else none

/-- Whether the magnitude encoding `mag`, with sign `neg`, lies within `b` ulps of the exact value; one ulp is that of the exact
value's binade (R110). -/
def Fmt.within (f : Fmt) (b : Nat) (neg : Bool) (mag : Nat) (xneg : Bool) (m : Nat) (e : Int) : Bool :=
  match f.read mag with
  | .fin _ n d =>
    let ulp := max ((m.log2 : Int) + e - f.mbits) f.qmin
    let q := min (min d e) ulp
    let diff := signed neg n * 2 ^ (d - q).toNat - signed xneg m * 2 ^ (e - q).toNat
    decide (diff.natAbs ≤ b * 2 ^ (ulp - q).toNat)
  | _ => false

/-- A special function's result (R110). -/
def Special.eval (fn : Special) (f : Fmt) (bits : Nat) : Nat :=
  match f.read bits with
  | .nan => f.nan
  | .inf neg => f.round .rne false (fn.atInf neg)
  | .fin neg m e =>
    let (v, exact) := fn.value (f.mbits + 4) neg m e
    let outNeg := fn.odd && neg
    match v with
    | .nan => f.nan
    | .inf s => f.pack (s != outNeg) f.inf
    | .fin s k d =>
      let r := f.rank .rne s k d
      let plain := if r ≤ f.maxFin then r else f.inf
      if exact then f.pack (s != outNeg) plain
      else
        match fn.bound (f == fmtF32) with
        | none => f.pack (s != outNeg) plain
        | some b =>
          let c : Int := (plain : Int) + Config.freeUlps (fn.code + 16 * f.mbits) (BitVec.ofNat 32 (bits % f.signBit))
          let cNeg := s != decide (c < 0)
          let ok := f.within b cNeg c.natAbs s k d && decide (c.natAbs ≤ f.maxFin)
            && !(fn == .tanh && decide (c.natAbs > f.bias * 2 ^ f.mbits))
          if ok then f.pack (cNeg != outNeg) c.natAbs else f.pack (s != outNeg) plain

/-! ### The dot-product step (R217) -/

/-- Exponent of the largest bit of a nonzero finite value. -/
def Num.top? (x : Num) : Option Int :=
  match x with
  | .fin _ m e => if m = 0 then none else some ((m.log2 : Int) + e)
  | _ => none

/-- Step(terms, c, aw) of R217, on exact terms that include the accumulator: the F32 bits, and whether the lost flag is set, which a
step that returns an infinity leaves as it was (R218). -/
def dotStep (xs : List Num) (aw : Nat) : Nat × Bool :=
  if xs.any (· == .nan) then (fmtF32.nan, false)
  else if xs.any (· == .inf false) && xs.any (· == .inf true) then (fmtF32.nan, false)
  else if xs.any (· == .inf false) then (fmtF32.inf, false)
  else if xs.any (· == .inf true) then (fmtF32.pack true fmtF32.inf, false)
  else
    match xs.filterMap Num.top? with
    | [] => (0, false)
    | t :: ts =>
      let l := ts.foldl max t - (16 + 4 * (aw : Int)) + 1
      let p := xs.foldl (fun (p : Int × Bool) x =>
        match x with
        | .fin neg m e =>
          if m = 0 then p
          else if e ≥ l then (p.1 + signed neg m * 2 ^ (e - l).toNat, p.2)
          else
            let k := (l - e).toNat
            (p.1 + signed neg m / 2 ^ k, p.2 || decide (m % 2 ^ k ≠ 0))
        | _ => p) ((0 : Int), false)
      let v := fmtF32.round .rne false (Num.ofInt false p.1 l)
      (v, p.2 && (match fmtF32.read v with
        | .inf _ => false
        | _ => true))

end Sys2Proof.Machine
end

