-- ==== Sys2Proof/Machine/Atomics.lean ====
section
/-!
DEFINITION. Atomics at their sites: the new value of a step (R301, R302, R79), requests to the home and their performance
there (R298, R305, R309 to R311).
-/
namespace Sys2Proof.Machine

/-- The new value of an integer or float operation (R301); `size` in bytes, values below 2^(8 × size). -/
def atomValue (op : Nat) (type : BitVec 4) (size old b : Nat) : Nat :=
  let m := 2 ^ (8 * size)
  let sgn := decide (type.toNat < 4)
  let key : Nat → Int := fun x => if sgn && decide (x ≥ m / 2) then (x : Int) - m else x
  let f := if size = 8 then fmtF64 else fmtF32
  if type = 10 ∨ type = 11 then
    match op % 8 with
    | 0 => f.add .rne old b
    | 1 => f.minMax false old b
    | _ => f.minMax true old b
  else
    match op with
    | 0 => (old + b) % m
    | 1 => old &&& b
    | 2 => old ||| b
    | 3 => old ^^^ b
    | 4 => if key old < key b then old else b
    | 5 => if key old < key b then b else old
    | _ => b

/-- A reservation registered: the thread's earlier one is replaced, the slice's oldest is cleared when 4,096 stand (R309). -/
def State.addResv (s : State) (g t granule : Nat) : State :=
  let s := s.clearResv g t
  let sl := s.homeSlice (128 * granule)
  let here := s.resvs.filter fun r => s.homeSlice (128 * r.granule) == sl
  let s := if here.length ≥ 4096 then
      { s with resvs := match here with
          | [] => s.resvs
          | o :: _ => s.resvs.erase o }
    else s
  { s with resvs := s.resvs ++ [⟨g, t, granule⟩] }

/-- Not yet performed at its home. -/
def Req.undone (r : Req) : Bool := r.stage == .waiting || r.stage == .granted

/-- Bytes and tag words of a line that its pin, unsent stores or other write requests of its L1, of a kind, still cover. -/
def State.coveredElsewhere (s : State) (k line id : Nat) (x : Line) (which : Req → Bool) : BitVec 128 × BitVec 16 :=
  let m := x.unsent.foldl (fun m u => m ||| u.2) x.held
  let t := x.unsentTags.foldl (fun m u => m ||| u.2) x.heldTags
  s.reqList.foldl (fun (p : BitVec 128 × BitVec 16) y =>
    if y.1 ≠ id ∧ y.2.l1 = k ∧ y.2.line = line ∧ which y.2 then
      match y.2.kind with
      | .write _ mask _ tagMask _ => (p.1 ||| mask, p.2 ||| tagMask)
      | _ => p
    else p) (m, t)

/-- The L1's copy of bytes that have changed at home is dropped, so that its groups read the new value (R180, R254): all but those
that a store still has to bring home. Replied reads of the line take the line as it is. -/
def State.dropCopy (s : State) (k pa n id : Nat) : State :=
  let l := s.l1 k
  let line := pa / 128
  let s := { s with reqs := s.reqs.map fun x =>
      match x.2 with
      | some r =>
        if r.l1 = k ∧ r.line = line ∧ r.kind = .read ∧ r.stage = .replied then
          (x.1, some { r with data := (s.homeLine line).1, tags := (s.homeLine line).2 })
        else x
      | none => x }
  match l.lines.get none line with
  | none => s
  | some x =>
    let (later, laterTags) := s.coveredElsewhere k line id x Req.undone
    let m := byteMask (pa % 128) n &&& ~~~later
    let w := wordMask (pa % 128) n &&& ~~~laterTags
    s.setL1 k { l with lines := l.lines.set none line (some { x with
      valid := x.valid &&& ~~~m, dirty := x.dirty &&& ~~~m, tagKnown := x.tagKnown &&& ~~~w, tagDirty := x.tagDirty &&& ~~~w }) }

/-- An atomic's result: the old value, or a poisoned word (R302). -/
structure AtomOut where
  old : Nat
  poison : Bool
  /-- Status of SCOND, success of a compare-and-swap. -/
  stored : Bool
  /-- Its home could not be reached (R313). -/
  lost : Bool := false
deriving DecidableEq, Repr, Inhabited

/-- Atomics that wait at the home of a line that a device party has written: those with use .QNT note the value their word has now
(R307), those on host memory take it as the value they find (R332). -/
def State.noteSeen (s : State) (line : Nat) : State :=
  { s with reqs := s.reqs.map fun x =>
      match x.2 with
      | some r =>
        match r.kind with
        | .atomic a =>
          if r.line = line ∧ r.undone ∧ r.slice = s.homeSlice (128 * line) then
            let now := s.readMem a.pa a.size
            let seen := if a.use = 4 then a.seen ++ [now] else if hostBit ≤ a.pa then [now] else a.seen
            (x.1, some { r with kind := .atomic { a with seen := seen } })
          else x
        | _ => x
      | none => x }

/-- The value that an atomic returns: with use .QNT one of those its word has held since the request's arrival (R307). -/
def State.quantum (s : State) (a : AtomReq) (old : Nat) : Nat :=
  if a.use ≠ 4 then old
  else
    let xs := a.seen ++ [old]
    xs.getD ((Config.freeWord s.free).toNat % xs.length) old

/-- The value that an atomic finds at its home. Among device parties its step is indivisible; a host write may fall into it, so that
it finds a host word as it was before that write (R332). -/
def State.found (s : State) (a : AtomReq) : Nat × State :=
  let now := s.readMem a.pa a.size
  if a.pa < hostBit ∨ a.use = 4 then (now, s)
  else
    (if (Config.freeWord s.free).getLsbD 0 then (a.seen.head?).getD now else now, { s with free := s.free + 1 })

/-- An atomic performed at its home (R298, R302, R309, R310, R168). A word of a page with TAG = 0 reads RAW, and the tag
that COMMIT writes with it is discarded (R24, R333). -/
def State.atomAtHome (s : State) (g : Nat) (a : AtomReq) : AtomOut × State :=
  let (old, s) := s.found a
  let tag := s.wordTag a.pa
  let granule := a.pa / 128
  let write : State → Nat → Tag → State := fun s v t =>
    let s := (s.hideFromHost a.pa a.size).writeMem a.pa (leBytes a.size v)
    if a.form = 4 ∧ !a.tagged then s else s.setWordTag a.pa t
  if a.form = 3 then
    let held := s.resvs.any fun r => r.group == g && r.thread == a.thread && r.granule == granule
    let s := s.clearResv g a.thread
    if held then (⟨0, false, true, false⟩, write s (a.operand.value.toNat % 2 ^ (8 * a.size)) 0) else (⟨1, false, false, false⟩, s)
  else if tag = tagPOI then (⟨0, true, false, false⟩, s)
  else if a.form = 2 then (⟨old, false, false, false⟩, s.addResv g a.thread granule)
  else if a.form = 4 then
    if old = a.expect.value.toNat ∧ (if a.tagged then tag else 0) = a.expect.tag then
      (⟨old, false, true, false⟩, write s a.operand.value.toNat a.operand.tag)
    else (⟨old, false, false, false⟩, s)
  else if a.form = 1 then
    if old = a.expect.value.toNat % 2 ^ (8 * a.size) then
      (⟨old, false, true, false⟩, write s (a.operand.value.toNat % 2 ^ (8 * a.size)) 0)
    else (⟨old, false, false, false⟩, s)
  else
    (⟨s.quantum a old, false, true, false⟩,
      write { s with free := s.free + bitOf (a.use == 4) }
        (atomValue a.op a.type a.size old (a.operand.value.toNat % 2 ^ (8 * a.size))) 0)

/-- An atomic sent to its home: the line's dirty bytes leave first, unpinning a pinned line (R298); one declared .NOR may come before
those of its own group that no pin holds (R307), where a free value does not send them. -/
def State.sendAtomic (s : State) (a : AtomReq) (ordered : Bool) (scope : Nat) : Nat × State :=
  let k := s.l1Of s.grp.core
  let line := a.pa / 128
  let s := s.unpin k line s.cur
  let late := a.use == 3 && (Config.freeWord s.free).getLsbD 0
  let s := { s with free := s.free + bitOf (a.use == 3) }
  let s := if late then s.sendOthers k line s.cur (fun _ _ => true) else s.sendLine k line
  let (id, s) := s.post s.cur line (.atomic a) ordered scope (!a.scalar)
  (id, if a.counted then s.upd fun g => { g with unack := g.unack + 1 } else s)

/-- An atomic on scratchpad, performed at once at its scratch ALU (R298, R268, R312). -/
def State.atomAtScratch (s : State) (t : Target) (a : AtomReq) : AtomOut × State :=
  let c := s.core t.core
  let old := gather (fun i => c.scratch.get 0 (t.at_ + i)) a.size
  if c.scratchTags.get 0 (t.at_ / 8) = tagPOI then (⟨0, true, false, false⟩, s)
  else
    let b := a.operand.value.toNat % 2 ^ (8 * a.size)
    let go := a.form != 1 || old == a.expect.value.toNat % 2 ^ (8 * a.size)
    let v := if a.form = 1 then b else atomValue a.op a.type a.size old b
    if go then
      (⟨old, false, true, false⟩, s.setCore t.core { c with
        scratch := (List.range a.size).foldl (fun m i => m.set 0 (t.at_ + i) (BitVec.ofNat 8 (v / 2 ^ (8 * i)))) c.scratch
        scratchTags := c.scratchTags.set 0 (t.at_ / 8) 0 })
    else (⟨old, false, false, false⟩, s)

end Sys2Proof.Machine
end

