-- ==== Sys2Proof/Machine/ScalarIssue.lean ====
section
/-!
DEFINITION. The issue of a scalar instruction: encoding checks and features first (R62, R395), then its own effect.
-/
namespace Sys2Proof.Machine

/-- The machine after a scalar instruction's effect: the PC passes it, stands, or a trap or a parking is taken. -/
def finishScalar (r : Res) : Ans :=
  match r with
  | .done s => .next (s.upd Group.advance)
  | .jump s => .next s
  | .stay s => .next s
  | .trap c info s => .next (s.trapScalar c info)
  | .park va k a s => .next (s.parkGroup va k a false)

/-- The features of FEATEN that a scalar instruction needs (R395). -/
def featureScalar : Instr → Option Nat
  | .mcast _ _ _ _ _ => some 9
  | .xput _ _ _ _ => some 10
  | .xget _ _ _ _ => some 10
  | .xwait _ _ => some 10
  | .collAred _ _ _ _ _ _ => some 11
  | .collAgath _ _ _ _ _ => some 11
  | .collRscat _ _ _ _ _ _ => some 11
  | .cwait _ _ => some 11
  | .racq _ _ => some 17
  | _ => none

/-- The instruction passes its encoding checks and its feature is enabled. -/
def State.scalarLegal (s : State) (i : Instr) : Bool :=
  i.wf && (match featureScalar i with
    | some k => s.feature k
    | none => true)

/-- ILLOP with the opcode (R188). -/
def opcodeInfo (i : Instr) : Dword := BitVec.ofNat 64 i.opcode

/-- A scalar instruction issued: ILLOP before every other check (R62). -/
def issueScalar (i : Instr) (s : State) (body : State → Res) : Ans :=
  if s.scalarLegal i then finishScalar (body s) else .next (s.trapScalar cILLOP (opcodeInfo i))

/-- A register result of a scalar instruction, PC past it. -/
def State.resultS (s : State) (sd : SReg) (v : Word) : State := s.upd fun g => (g.wrS sd.toNat v).advance

/-- A pair result of a scalar instruction, PC past it (R28). -/
def State.resultPair (s : State) (sd : SReg) (v : Dword) : State := s.upd fun g => (g.wrPair sd.toNat v).advance

/-- The value of a scalar register of the executing group. -/
def State.sreg (s : State) (r : SReg) : Word := s.grp.rdS r.toNat
/-- The value of a scalar pair. -/
def State.spair (s : State) (r : SReg) : Dword := s.grp.rdPair r.toNat

/-- The scalar stream waits. -/
def State.hold (s : State) (w : Wait) : Res := .stay (s.waitScalar w)

end Sys2Proof.Machine
end

