-- ==== Sys2Proof/Machine/ScalarMem.lean ====
section
/-!
DEFINITION. Memory, ordering and shape-register instructions of the scalar stream (R76 to R81, R247 to R249).
-/
namespace Sys2Proof.Machine

/-- Effective address of the SM format: base pair + offset × size (R50). -/
def State.smAddress (s : State) (base : SReg) (off : BitVec 9) (size : Nat) : Dword :=
  s.spair base + sext off * BitVec.ofNat 64 size

/-- The checks of one access before it is made, the first of R189's order: alignment, space, range lock. -/
def State.checkAccess (s : State) (space : Nat) (e : Dword) (size : Nat) (write : Bool) : Except (Nat × Dword) Target :=
  if e.toNat % size ≠ 0 then .error (cMISALIGN, e)
  else
    match s.checkSpace s.grp space e size with
    | .error x => .error x
    | .ok t =>
      match s.checkLock s.grp t size write with
      | some x => .error x
      | none => .ok t

/-- The access of an instruction of the scalar stream to a checked GLOBAL target is on its way, while the stream goes on (R65, R70); its
address is translated once. -/
def State.pendScalar (s : State) (i : Instr) (t : Target) (access v : Nat) (atom : Option AtomReq) : State :=
  match s.xlate s.grp t.e access with
  | .fault _ => s
  | .ok pa tagged =>
    s.pend { id := 0, scalar := true, inHandler := s.grp.handler.isSome, instr := i, pc := s.grp.pc, frag := 0, sent := none
             accs := [{ thread := 0, space := 0, core := t.core, at_ := pa, e := t.e, tagged := tagged, takers := 0, value := v
                        atom := atom.map fun a => { a with pa := pa, tagged := tagged } }] }

/-- A relaxed GLOBAL load of the scalar stream: bytes that the L1 holds are written at once; otherwise the stream goes on, and the
register is held until they come (R65, R70). -/
def scalarLoad (s : State) (i : Instr) (e : Dword) (size : Nat) (write : Nat → State) : Res :=
  match s.checkAccess 0 e size false with
  | .error (c, x) => .trap c x s
  | .ok t =>
    match s.loadAt s.grp t size with
    | .ok v _ => .done (write v)
    | .miss line => .done ((s.fetchLine s.cur line false 0 false).pendScalar i t aRead 0 none)
    | .wait => .done (s.pendScalar i t aRead 0 none)
    | .fault kind => .park e kind aRead s
    | .poison x => .trap cPOISON x s

/-- An ordered GLOBAL load of the scalar stream: the continuation takes the bytes; a missing line is fetched and the instruction
tried again. -/
def orderedLoad (s : State) (e : Dword) (size scope : Nat) (k : Nat → Res) : Res :=
  match s.checkAccess 0 e size false with
  | .error (c, i) => .trap c i s
  | .ok t =>
    match s.loadAt s.grp t size with
    | .ok v _ => k v
    | .miss line => .stay ((s.fetchLine s.cur line true scope false).waitScalar .acquire)
    | .fault kind => .park e kind aRead s
    | .poison i => .trap cPOISON i s
    | .wait => s.hold .acquire

/-- A GLOBAL store of the scalar stream, after which the words are RAW (R76, R247); it sets the effect bit when it is performed (R46). One
that cannot be performed yet is on its way while the stream goes on (R70). -/
def scalarStore (s : State) (i : Instr) (e : Dword) (size v : Nat) : Res :=
  match s.checkAccess 0 e size true with
  | .error (c, i) => .trap c i s
  | .ok t =>
    match s.storeAt t size v (.set 0) with
    | .ok s => .done s.setEffect
    | .fault kind => .park e kind aWrite s
    | .trap c i => .trap c i s
    | .wait => .done (s.pendScalar i t aWrite v none)

/-- SLD (R76). -/
def execSld (sd base : SReg) (off : BitVec 9) (s : State) : Ans :=
  issueScalar (.sld sd base off) s fun s =>
    scalarLoad s (.sld sd base off) (s.smAddress base off 4) 4 fun v => s.upd fun g => g.wrS sd.toNat (BitVec.ofNat 32 v)

/-- SLDP; the tag is not kept (R76). -/
def execSldp (sd base : SReg) (off : BitVec 9) (s : State) : Ans :=
  issueScalar (.sldp sd base off) s fun s =>
    scalarLoad s (.sldp sd base off) (s.smAddress base off 8) 8 fun v => s.upd fun g => g.wrPair sd.toNat (BitVec.ofNat 64 v)

/-- SST; the word's tag becomes RAW (R76). -/
def execSst (ss base : SReg) (off : BitVec 9) (s : State) : Ans :=
  issueScalar (.sst ss base off) s fun s => scalarStore s (.sst ss base off) (s.smAddress base off 4) 4 (s.sreg ss).toNat

/-- SSTP; the word's tag becomes RAW (R27, R76). -/
def execSstp (ss base : SReg) (off : BitVec 9) (s : State) : Ans :=
  issueScalar (.sstp ss base off) s fun s => scalarStore s (.sstp ss base off) (s.smAddress base off 8) 8 (s.spair ss).toNat

/-- A clamped operation that must trap does so before any effect (R350). -/
def withoutClampTrap (s : State) (scope : Nat) (k : State → Res) : Res :=
  if s.clamped scope && s.clampTrap (s.partitionOf s.grp) then .trap cPROT 5 (s.upd fun g => g.stick stickyClamp)
  else k s

/-- An acquire, then the continuation (R77, R283). -/
def acquireThen (s : State) (scope : Nat) (k : State → Res) : Res :=
  match s.acquire scope false with
  | .done s => k s
  | .wait s => .stay (s.waitScalar .acquire)
  | .trap c i s => .trap c i s

/-- A release, then the continuation (R78). -/
def releaseThen (s : State) (scope : Nat) (k : State → Res) (full : Bool := false) : Res :=
  match s.release scope false full with
  | .done s => k s
  | .wait s => .stay (s.waitScalar .release)
  | .trap c i s => .trap c i s

/-- SLDAQ: the load, then the acquire (R76, R77, R283). -/
def execSldaq (sd base : SReg) (scope : BitVec 3) (off : BitVec 9) (s : State) : Ans :=
  issueScalar (.sldaq sd base scope off) s fun s =>
    withoutClampTrap s scope.toNat fun s =>
      let finish : State → Dword → Res := fun s v =>
        acquireThen s scope.toNat fun s =>
          .done (s.upd fun g => { g.wrS sd.toNat (v.setWidth 32) with answer := none })
      match s.grp.answer with
      | some v => finish s v
      | none =>
        orderedLoad s (s.smAddress base off 4) 4 scope.toNat fun v =>
          finish (s.upd fun g => { g with answer := some (BitVec.ofNat 64 v) }) (BitVec.ofNat 64 v)

/-- The line of an address pinned to this L1 by a narrow release, its oldest pin dropped beyond 64 (R285). Stores of other groups to
the line leave before, so that no request of theirs carries the pinned bytes (R279); a line pinned already, and not the newest
pin, is unpinned first, so that lines are unpinned in the order of their bytes (log 36). -/
def State.pinStore (s : State) (pa n v : Nat) (mode : TagMode) : State :=
  let k := s.l1Of s.grp.core
  let line := pa / 128
  let l := s.l1 k
  let s := if l.pins.length ≥ 64 ∧ !l.pins.contains line then
      match l.pins with
      | o :: _ => s.unpin k o s.cur
      | [] => s
    else s
  let s := if (s.l1 k).pins.contains line && (s.l1 k).pins.getLast? != some line then s.unpin k line s.cur else s
  let s := s.sendLine k line
  let l := s.l1 k
  let x := (l.lines.get none line).getD l.newLine
  let x := { x.store s.cur (pa % 128) n v mode true with pinned := true }
  let s := s.setL1 k { l with lines := l.lines.set none line (some x), pins := l.pins.filter (· != line) ++ [line] }
  ((s.post s.cur line .pin false 0).2).upd fun g => { g with unack := g.unack + 1, work := g.work + 1 }

/-- The releasing store, once the release's conditions hold: pinned at a narrow scope (R285), an ordinary store otherwise. -/
def releasingStore (s : State) (t : Target) (scope n v : Nat) (mode : TagMode) : StoreRes :=
  if t.space = 0 ∧ scope < unpinScope (s.l1Of s.grp.core) then
    match s.xlate s.grp t.e aWrite with
    | .fault k => .fault k
    | .ok pa tagged =>
      if isView pa then .trap cPROT t.e
      else if (s.l1 (s.l1Of s.grp.core)).sweeping || decide (s.grp.unack ≥ unackMax) || s.lateOn s.grp (pa / 128) then .wait
      else .ok (s.pinStore pa n v (mode.onPage tagged))
  else s.storeAt t n v mode

/-- SSTRL: the release's conditions, then the store (R76, R78). -/
def execSstrl (ss base : SReg) (scope : BitVec 3) (off : BitVec 9) (s : State) : Ans :=
  issueScalar (.sstrl ss base scope off) s fun s =>
    let e := s.smAddress base off 4
    match s.checkAccess 0 e 4 true with
    | .error (c, i) => .trap c i s
    | .ok t =>
      releaseThen s scope.toNat fun s =>
        match releasingStore s t scope.toNat 4 (s.sreg ss).toNat (.set 0) with
        | .ok s => .done s.setEffect
        | .fault kind => .park e kind aWrite s
        | .trap c i => .trap c i s
        | .wait => s.hold .store

/-- A scalar atomic: checked, then on its way to the home; the register is held until it brings its value (R65, R79). -/
def scalarAtomic (s : State) (i : Instr) (e : Dword) (a : AtomReq) : Res :=
  match s.checkAccess 0 e 4 true with
  | .error (c, x) => .trap c x s
  | .ok t =>
    match s.xlate s.grp e aAtomic with
    | .fault kind => .park e kind aAtomic s
    | .ok pa _ => if isView pa then .trap cPROT e s else .done (s.pendScalar i t aAtomic 0 (some a))

/-- A 32-bit scalar atomic request before translation. -/
def scalarAtomReq (form op : Nat) (b expect : Word) : AtomReq :=
  { thread := 0, pa := 0, size := 4, form := form, op := op, type := 2, operand := ⟨b.setWidth 64, 0⟩, own := ⟨b.setWidth 64, 0⟩
    expect := ⟨expect.setWidth 64, 0⟩, dest := none, scalar := true, takers := 0, counted := true
    use := 0, tagged := true, late := true, frag := 0, pc := 0, va := 0, inHandler := false, seen := [] }

/-- SAMO (R79). -/
def execSamo (sd sa sb : SReg) (op scope : BitVec 3) (s : State) : Ans :=
  issueScalar (.samo sd sa sb op scope) s fun s =>
    scalarAtomic s (.samo sd sa sb op scope) (s.spair sa) (scalarAtomReq 0 op.toNat (s.sreg sb) 0)

/-- SCAS (R79). -/
def execScas (sd sa sb : SReg) (scope : BitVec 3) (s : State) : Ans :=
  issueScalar (.scas sd sa sb scope) s fun s =>
    scalarAtomic s (.scas sd sa sb scope) (s.spair sa) (scalarAtomReq 1 6 (s.sreg sb) (s.sreg sd))

/-- A fence at a wider scope than pinning unpins the lines of its L1 (R286). -/
def State.fenceUnpins (s : State) (scope : Nat) : State :=
  let k := s.l1Of s.grp.core
  if unpinScope k ≤ scope then s.unpinAll k s.cur else s

/-- FENCE (R80): a release, an acquire, or both in that order; a running acquire's release has been made. An acquire fence has the
group's earlier reads performed first (R377). -/
def execFence (scope : BitVec 3) (order : BitVec 2) (s : State) : Ans :=
  issueScalar (.fence scope order) s fun s =>
    let acq : State → Res := fun s =>
      if order = 2 then .done s
      else if order = 1 then
        withoutClampTrap s scope.toNat fun s =>
          if s.grp.accesses.isEmpty then acquireThen (s.fenceUnpins scope.toNat) scope.toNat .done else s.hold .acquire
      else acquireThen s scope.toNat .done
    if order = 1 || s.grp.acqS.isSome then acq s else releaseThen s scope.toNat acq (order != 2)

/-- Another partition owns a core's cluster, and the group's own does not (R81): a cluster that both own is the group's too (R347), one
mapped out is nobody's (R275), and one whose island has failed stays its owner's. -/
def State.foreignCore (s : State) (n : Nat) : Bool :=
  let owner : Nat → Bool := fun p => s.owns p 0 (clusterOfCore n) && !s.mappedOut 7 (clusterOfCore n)
  n != s.grp.core && !owner (s.partitionOf s.grp) && (List.range 16).any owner

/-- RACQ (R81, R289). -/
def execRacq (ss : SReg) (scope : BitVec 3) (s : State) : Ans :=
  issueScalar (.racq ss scope) s fun s =>
    withoutClampTrap s scope.toNat fun s =>
      let n := (s.sreg ss).toNat
      let acq : State → Res := fun s => acquireThen s scope.toNat fun s => .done (s.upd fun g => { g with racq := 0, racqCore := 0 })
      if n ≥ 48 then .trap cPROT (BitVec.ofNat 64 n) s
      else if s.foreignCore n then .trap cPROT (BitVec.ofNat 64 n) s
      else if s.grp.racq = 3 || s.grp.acqS.isSome then acq s
      else if s.grp.racq != 0 then s.hold .acquire
      else if n = s.grp.core || !(s.launches.any fun l => l.2.any fun l => l.casts.any fun c => c.core == n) then acq s
      else .stay ((s.upd fun g => { g with racq := 1, racqCore := n }).waitScalar .acquire)

/-- The 64 bytes of a shape register (R247). -/
def State.zreg (s : State) (z : Slot) : BitVec 512 := s.grp.zs.get 0 z.toNat

/-- ZLD (R247). -/
def execZld (z : Slot) (base : SReg) (off : BitVec 9) (s : State) : Ans :=
  issueScalar (.zld z base off) s fun s =>
    scalarLoad s (.zld z base off) (s.smAddress base off 64) 64 fun v =>
      s.upd fun g => { g with zs := g.zs.set 0 z.toNat (BitVec.ofNat 512 v) }

/-- ZST; the tags of the words it writes become RAW (R247). -/
def execZst (z : Slot) (base : SReg) (off : BitVec 9) (s : State) : Ans :=
  issueScalar (.zst z base off) s fun s => scalarStore s (.zst z base off) (s.smAddress base off 64) 64 (s.zreg z).toNat

/-- Word `w` of a register of `n` bits replaced. -/
def setWordOf {n : Nat} (x : BitVec n) (w : Nat) (v : Word) : BitVec n :=
  (x &&& ~~~(BitVec.ofNat n 0xFFFFFFFF <<< (32 * w))) ||| (v.setWidth n <<< (32 * w))

/-- ZSET (R248). -/
def execZset (z : Slot) (sa : SReg) (w : BitVec 4) (s : State) : Ans :=
  .next (s.upd fun g => { g with zs := g.zs.set 0 z.toNat (setWordOf (s.zreg z) w.toNat (s.sreg sa)) }.advance)

/-- ZGET (R248). -/
def execZget (sd : SReg) (z : Slot) (w : BitVec 4) (s : State) : Ans :=
  .next (s.resultS sd ((s.zreg z >>> (32 * w.toNat)).setWidth 32))

/-- The value every mask register resets to (R27, R224). -/
def mkDefault : BitVec 128 := BitVec.allOnes 128

/-- A mask register. -/
def State.mreg (s : State) (m : Slot) : BitVec 128 := s.grp.mks.get mkDefault m.toNat

/-- MKSET (R248). -/
def execMkset (mk : Slot) (sa : SReg) (w : BitVec 2) (s : State) : Ans :=
  .next (s.upd fun g =>
    { g with mks := g.mks.set mkDefault mk.toNat (setWordOf (s.mreg mk) w.toNat (s.sreg sa)) }.advance)

/-- MKSET.PRE (R248). -/
def execMksetPre (mk : Slot) (sa : SReg) (s : State) : Ans :=
  .next (s.upd fun g => { g with mks := g.mks.set mkDefault mk.toNat (lowMask (min (s.sreg sa).toNat 128)) }.advance)

end Sys2Proof.Machine
end

