-- ==== Sys2Proof/Machine/ScalarFlow.lean ====
section
/-!
DEFINITION. Control transfer, lane blocks, guard slots, regions and the end of a group in the scalar stream (R71 to R73,
R82 to R86, R198, R199).
-/
namespace Sys2Proof.Machine

/-! ### Branches (R82) -/

/-- A branch of SB format, taken or not. -/
def branchIf (off : BitVec 12) (taken : Bool) (s : State) : State :=
  s.upd fun g => if taken then g.goto (g.pc + sext off * 4) else g.advance

/-- A compare-and-branch. -/
def branchCmp (sa sb : SReg) (off : BitVec 12) (s : State) (f : Word → Word → Bool) : Ans :=
  .next (branchIf off (f (s.sreg sa) (s.sreg sb)) s)

def execSbeq (sa sb : SReg) (off : BitVec 12) (s : State) : Ans := branchCmp sa sb off s (compareInt true 0)
def execSbne (sa sb : SReg) (off : BitVec 12) (s : State) : Ans := branchCmp sa sb off s (compareInt true 1)
def execSblt (sa sb : SReg) (off : BitVec 12) (s : State) : Ans := branchCmp sa sb off s (compareInt true 2)
def execSbge (sa sb : SReg) (off : BitVec 12) (s : State) : Ans := branchCmp sa sb off s (compareInt true 5)
def execSblo (sa sb : SReg) (off : BitVec 12) (s : State) : Ans := branchCmp sa sb off s (compareInt false 2)
def execSbhs (sa sb : SReg) (off : BitVec 12) (s : State) : Ans := branchCmp sa sb off s (compareInt false 5)

/-- SJ (R82). -/
def execSj (off : BitVec 24) (s : State) : Ans := .next (s.upd fun g => g.goto (g.pc + sext off * 4))

/-- The link of SJAL and SJR: none for sd = 0 (R28, R82). -/
def Group.link (g : Group) (sd : SReg) : Group := if sd = 0 then g else g.wrPair sd.toNat (g.pc + 4)

/-- SJAL (R82). -/
def execSjal (sd : SReg) (off : BitVec 18) (s : State) : Ans :=
  issueScalar (.sjal sd off) s fun s => .jump (s.upd fun g => (g.link sd).goto (g.pc + sext off * 4))

/-- SJR reads sa before it writes sd (R82). -/
def execSjr (sd sa : SReg) (imm : BitVec 12) (s : State) : Ans :=
  issueScalar (.sjr sd sa imm) s fun s => .jump (s.upd fun g => (g.link sd).goto (g.rdPair sa.toNat + sext imm * 4))

/-- SLOOP (R82). -/
def execSloop (sa : SReg) (off : BitVec 12) (s : State) : Ans :=
  issueScalar (.sloop sa off) s fun s =>
    let v := s.sreg sa - 1
    .jump (branchIf off (v != 0) (s.upd fun g => g.wrS sa.toNat v))

/-- SBG waits on a pending slot (R82). -/
def execSbg (g : Slot) (neg : Bool) (off : BitVec 12) (s : State) : Ans :=
  issueScalar (.sbg g neg off) s fun s =>
    match s.grp.guard g with
    | .pending => s.hold .guard
    | .resolved v => .jump (branchIf off (v != neg) s)

/-! ### Lane blocks (R63, R68, R83, R192, R249) -/

/-- The values a block enqueued now will read (R58, R68, R249). -/
def Group.capture (g : Group) : Captured :=
  { scalars := match g.handler with
      | some h => (g.scalars.filter fun x => decide (x.1 < 48)) ++ h.scalars
      | none => g.scalars
    zs := g.zs, mks := g.mks, rndMode := g.rndMode, termBase := g.termBase, termLim := g.termLim
    wingBase := g.wingBase, wingSize := g.wingSize }

/-- A lane stream whose block starts at an address, one fragment over all W threads (R63). -/
def LaneStream.start (w : Nat) (pc : Dword) (cap : Captured) : LaneStream :=
  { LaneStream.idle w with
    running := true, frags := [(0, { mask := BitVec.ofNat 128 (2 ^ w - 1), pc := pc, state := .ready, count := 0 })], cap := cap }

/-- Address of a lane block's entry (R63). -/
def State.blockPc (s : State) (g : Group) (entry : Nat) : Dword := (s.recordOf g).lcode + BitVec.ofNat 64 (12 * entry)

/-- Entries of the lane queue (R69). -/
def laneDepth : Nat := 16

/-- A block enqueued under its guard; in handler mode unguarded, one at a time, started at once (R63, R192). -/
def enqueueBlock (i : Instr) (g : Slot) (neg : Bool) (entry : State → Nat) (s : State) : Res :=
  let grp := s.grp
  let e := entry s
  match grp.handler with
  | some h =>
    if g != 0 || neg then .trap cILLOP (opcodeInfo i) s
    else if h.lane.running then s.hold .handlerBlock
    else .done (s.setGrp { grp with handler := some { h with lane := .start grp.w (s.blockPc grp e) grp.capture } })
  | none =>
    if grp.laneQ.length ≥ laneDepth then s.hold .queueFull
    else .done (s.setGrp { grp with laneQ := grp.laneQ ++ [⟨grp.bind g neg, e, grp.capture⟩] })

/-- LRUN (R83). -/
def execLrun (g : Slot) (neg : Bool) (entry : BitVec 19) (s : State) : Ans :=
  issueScalar (.lrun g neg entry) s (enqueueBlock (.lrun g neg entry) g neg fun _ => entry.toNat)

/-- LRUNR (R83). -/
def execLrunr (g : Slot) (neg : Bool) (sa : SReg) (s : State) : Ans :=
  issueScalar (.lrunr g neg sa) s (enqueueBlock (.lrunr g neg sa) g neg fun s => (s.sreg sa).toNat)

/-- LSYNC (R71). -/
def execLsync (s : State) : Ans :=
  issueScalar .lsync s fun s => if s.grp.syncIdle then .done s else s.hold .lsync

/-! ### Guard slots (R72) -/

/-- GNEW: a resolved slot becomes pending. -/
def execGnew (g : Slot) (s : State) : Ans :=
  issueScalar (.gnew g) s fun s =>
    .done (s.upd fun x => { x with guards := x.guards.set (.resolved true) g.toNat .pending })

/-- GSETS. -/
def execGsets (g : Slot) (neg : Bool) (sa : SReg) (s : State) : Ans :=
  issueScalar (.gsets g neg sa) s fun s => .done (s.upd fun x => x.resolve g ((s.sreg sa != 0) != neg))

/-- GWAIT. -/
def execGwait (g : Slot) (s : State) : Ans :=
  issueScalar (.gwait g) s fun s =>
    match s.grp.guard g with
    | .pending => s.hold .guard
    | .resolved _ => .done s

/-! ### Matrix batches (R241, R244) -/

/-- Operations of the group not yet published. -/
def Group.matIdle (g : Group) : Bool := g.openOps.isEmpty && g.batches.isEmpty

/-- The open batch closed by an event other than MFENCE, if it holds an operation and its ID is free (R241, R244). -/
def Group.closeOpen (g : Group) : Group :=
  if g.openOps.isEmpty || g.batches.any (fun b => b.id == g.batchCtr.toNat) then g
  else
    { g with batches := g.batches ++ [⟨g.batchCtr.toNat, g.openOps⟩], openOps := [], batchCtr := g.batchCtr + 1 }

/-! ### Regions (R85, R199) -/

/-- A word of the region table (R199): the address's byte offset, or the translation fault met. -/
def State.regionWord (s : State) (g : Group) (off size : Nat) : Except (Dword × Option Nat) Nat :=
  let va := (s.recordOf g).rtab + BitVec.ofNat 64 off
  match s.xlate g va aRead with
  | .ok pa _ =>
    if s.unreachable (sectorOfCore g.core) (pa / 128) || s.wordTag pa == tagPOI then .error (va, none) else .ok (s.readMem pa size)
  | .fault k => .error (va, some k)

/-- REGION (R85): LSYNC's wait, the index and its entry, the effect bit, the current region; a pending pre-emption is served
here (R200). -/
def execRegion (index : BitVec 18) (s : State) : Ans :=
  issueScalar (.region index) s fun s =>
    let g := s.grp
    if !g.syncIdle then s.hold .region
    else if index.toNat ≥ (s.recordOf g).rtlen then .trap cILLOP (index.setWidth 64) s
    else
      match s.regionWord g (32 * index.toNat + 10) 2 with
      | .error (va, some k) => .park va k aRead s
      | .error (va, none) => .trap cPOISON (poisonInfo 0 va) s
      | .ok n =>
        if n > 4 then .trap cILLOP (opcodeInfo (.region index)) s
        else
          .done (s.setGrp { g with effect := false, region := .at index.toNat g.pc })

/-! ### The end of a group (R42, R86) -/

/-- A cast has groups that have not exited: resident, saved or still to be dispatched. -/
def State.castLive (s : State) (launch core : Nat) : Bool :=
  (s.groups.any fun x => x.2.launch == launch && x.2.core == core && x.2.life != .ended)
    || (match s.launch? launch with
        | some l => l.todo.any fun t => ((l.casts[t.1]?).map (·.core)) == some core
        | none => false)

/-- The queue bindings of a launch on a core end (R259); the counters stand as the cast left them (R260) until the queue is bound
again. -/
def State.endBindings (s : State) (launch core : Nat) : State :=
  let c := s.core core
  s.setCore core { c with
    queues := c.queues.map fun x => (x.1, x.2.map fun q => if q.launch = launch then { q with ended := true } else q) }

/-- A ramp-down's step begins (R355): what the arrays of the launch's cores have spent up to now is noted. -/
def State.rampDown (s : State) (l : Launch) (step : Nat) : Fade := ⟨2, step, l.casts.map fun c => (c.core, (s.core c.core).array)⟩

/-- A group's scalar stream retires: its place and window are free (R86, R139), the launch's ramp-down begins with the last
group (R355), and the bindings of a cast end with its last group (R259). -/
def State.retire (s : State) (k : Nat) : State :=
  let g := s.group k
  let t := (s.setGroup k { g with life := .ended, waitS := .none, waitL := .none }).clearResvs k
  let s := match t.launch? g.launch with
    | some l => t.setLaunch g.launch (some { l with
        left := l.left - 1, cycles := l.cycles + s.span g, fade := if l.left = 1 ∧ l.record.ramps then t.rampDown l 0 else l.fade })
    | none => t
  if s.castLive g.launch g.core then s else s.endBindings g.launch g.core

/-- SEXIT (R86, R193): the waits, then the group ends; in handler mode the launch ends with the trap status. -/
def execSexit (s : State) : Ans :=
  issueScalar .sexit s fun s =>
    let g := s.grp
    if g.handler.isSome then .jump (s.endLaunch g.launch 1 g.reported)
    else
      let s := s.setGrp (if g.laneIdle then g.closeOpen else g)
      let g := s.grp
      if g.laneIdle && g.copyQ.isEmpty && g.fabQ.isEmpty && g.engOut == 0 && g.unack == 0 && g.accesses.isEmpty && g.matIdle then
        .jump ((s.keepChain g).retire s.cur)
      else s.hold .exit

/-- SYIELD (R86): issue slots are given up until the scheduler resumes the group. -/
def execSyield (s : State) : Ans :=
  issueScalar .syield s fun s => .done (s.upd fun g => { g with yielding := true })

end Sys2Proof.Machine
end

