-- ==== Sys2Proof/Machine/Fragments.lean ====
section
/-!
DEFINITION. The split table, the reconvergence stack and the fragment schedule (R117 to R126).
-/
namespace Sys2Proof.Machine

/-- A mask contains another. -/
def contains (big small : BitVec 128) : Bool := small &&& ~~~big == 0

/-- The topmost entry whose mask contains `m` (R122). -/
def LaneStream.topEntry (l : LaneStream) (m : BitVec 128) : Option RecEntry := l.stack.find? fun e => contains e.mask m

/-- A ready fragment that stands at the address of its entry parks under it (R122). -/
def LaneStream.park (l : LaneStream) (f : Fragment) : Fragment :=
  match f.state with
  | .ready =>
    match l.topEntry f.mask with
    | some e => if e.addr = f.pc then { f with state := .parked e.id } else f
    | none => f
  | _ => f

/-- Every ready fragment checked: R122 names the check after an instruction that the fragment issues, and leaves open when a
fragment is checked whose PC a STRET has moved; here any instruction of the block makes the check (log 58). -/
def LaneStream.parkAll (l : LaneStream) : LaneStream := { l with frags := l.frags.map fun x => (x.1, l.park x.2) }

/-- Fragments parked under an entry. -/
def LaneStream.under (l : LaneStream) (id : Nat) : List (Nat × Fragment) := l.frags.filter fun x => x.2.state == .parked id

/-- The union of their masks. -/
def unionMask (fs : List (Nat × Fragment)) : BitVec 128 := fs.foldl (fun m x => m ||| x.2.mask) 0

/-- The fragments parked under an entry become one, in the lowest of their places, its count cleared; the entry leaves the
stack (R122, R123, R125). -/
def LaneStream.join (l : LaneStream) (e : RecEntry) : LaneStream :=
  let fs := l.under e.id
  match fs with
  | [] => l
  | (k, _) :: _ =>
    let rest := l.frags.filter fun x => !(x.2.state == .parked e.id)
    { l with
      frags := Table.set Fragment.none rest k { mask := unionMask fs, pc := e.addr, state := .ready, count := 0 }
      stack := l.stack.filter fun x => x.id != e.id }

/-- An entry whose parked fragments cover its mask (R122). -/
def LaneStream.complete (l : LaneStream) : Option RecEntry :=
  l.stack.find? fun e => unionMask (l.under e.id) == e.mask && !(l.under e.id).isEmpty

/-- Some fragment can still move. -/
def LaneStream.live (l : LaneStream) : Bool := l.frags.any fun x => x.2.state == .ready || x.2.state == .waiting

/-- The fragments parked at LEND cover all W threads (R124). -/
def LaneStream.retired (l : LaneStream) (w : Nat) : Bool :=
  unionMask (l.frags.filter fun x => x.2.state == .ended) == BitVec.ofNat 128 (2 ^ w - 1)

/-- Parking, merges, the retirement of the block and the forced merge of R123, until nothing more happens; each round but the
last removes an entry of the stack, so `n` rounds above its size suffice. -/
def LaneStream.settle (w : Nat) : Nat → LaneStream → LaneStream
  | 0, l => l
  | n + 1, l =>
    let l := l.parkAll
    match l.complete with
    | some e => (l.join e).settle w n
    | none =>
      if l.retired w then .idle w
      else if l.live then l
      else
        match l.stack.find? fun e => !(l.under e.id).isEmpty with
        | some e => (l.join e).settle w n
        | none => l

/-- The first ready fragment after place `k` in table order, wrapping (R118). -/
def LaneStream.nextReady (l : LaneStream) (k : Nat) : Option Nat :=
  ((List.range 16).map fun i => (k + 1 + i) % 16).find? fun j => (l.frags.get Fragment.none j).state == .ready
    && (l.frags.get Fragment.none j).mask != 0

/-- The next fragment takes over, its slots counted afresh (R118). -/
def LaneStream.select (l : LaneStream) : LaneStream :=
  match l.nextReady l.cur with
  | some k => { l with cur := k, slots := 0 }
  | none => l

/-- Waiting fragments are tried again. -/
def LaneStream.wake (l : LaneStream) : LaneStream :=
  { l with frags := l.frags.map fun x => (x.1, if x.2.state = .waiting then { x.2 with state := .ready } else x.2) }

/-- After an instruction: settled; a current fragment that has parked or gone gives way (R118, R122 to R124). Where it parks and the
merge that it completes takes its own place of the table, the spec does not say whether it is still the current one: here the merged
fragment is, its slots running on (log 58). -/
def LaneStream.after (l : LaneStream) (w : Nat) : LaneStream :=
  let l := l.wake.settle w 64
  if !l.running || l.frag.state == .ready && l.frag.mask != 0 then l else l.select

/-- Issue slots of an instruction whose active threads are given: one for each pass that has one (R29). -/
def passes (m : BitVec 128) : Nat := ((List.range 8).filter fun p => (m >>> (16 * p)).setWidth 16 != (0 : BitVec 16)).length

/-- Slots used by the current fragment; counted by its watchdog while there are others (R118, R125). -/
def LaneStream.charge (l : LaneStream) (slots : Nat) : LaneStream :=
  let f := l.frag
  let f := if l.frags.length ≥ 2 then { f with count := f.count + slots } else f
  { l.setFrag l.cur f with slots := l.slots + slots }

/-- The current fragment moved past an instruction of 12 bytes, and past the atomics after it that it has issued already (R307). -/
def LaneStream.step (l : LaneStream) : LaneStream :=
  l.setFrag l.cur { l.frag with pc := l.frag.pc + BitVec.ofNat 64 (12 * (1 + l.frag.ahead)), ahead := 0, issued := false }

/-- The lowest free place of the table. -/
def LaneStream.freePlace (l : LaneStream) : Nat :=
  ((List.range 16).find? fun k => (l.frags.get Fragment.none k).mask == 0).getD 16

/-- The current fragment divided among addresses: the first set keeps its place, each further one takes the lowest free place
(R120, R167). -/
def LaneStream.divide (l : LaneStream) (sets : List (Dword × BitVec 128)) : LaneStream :=
  match sets with
  | [] => l
  | (pc, m) :: rest =>
    let count := l.frag.count
    let l := l.setFrag l.cur { mask := m, pc := pc, state := .ready, count := count }
    rest.foldl (fun l x => l.setFrag l.freePlace { mask := x.2, pc := x.1, state := .ready, count := count }) l

/-- The watchdog limit in issue slots (R125). -/
def LaunchRecord.limit (r : LaunchRecord) : Nat := if r.watchdog = 0 then 16777216 else r.watchdog * 4096

/-- A fragment that has exceeded its limit (R126). -/
def State.overdue (s : State) (g : Group) : Option (Nat × Fragment) :=
  if g.stream.frags.length ≥ 2 then g.stream.frags.find? fun x => decide (x.2.count > (s.recordOf g).limit) else none

end Sys2Proof.Machine
end

