-- ==== Sys2Proof/Machine/Operands.lean ====
section
/-!
DEFINITION. Operand forms of lane instructions (R55 to R58, R92, R95, R97): what a thread reads for each source field, and
which registers and predicates an instruction names.
-/
namespace Sys2Proof

/-! ### Registers and predicates an instruction names -/

/-- Vector registers a field names: the first and how many. -/
def Opd.range (o : Opd) (r : VReg) : List (Nat × Nat) :=
  match o with
  | .regs n _ => [(r.toNat, n)]
  | _ => []

/-- Vector registers of the source fields. -/
def Instr.fieldSources (i : Instr) : List (Nat × Nat) :=
  match i.shape? with
  | some (h, w) => (if w.ska then [] else h.a.range w.va) ++ h.b.range w.vb ++ h.c.range w.vc
  | none => []

/-- Vector registers read; CAS reads its destination too (R300). -/
def Instr.sources (i : Instr) : List (Nat × Nat) :=
  match i with
  | .cas w => (opdOf w.type).range w.vd ++ i.fieldSources
  | _ => i.fieldSources

/-- Registers of a W-bit mask (R131). -/
def maskRegs (w : Nat) : Nat := max 1 (w / 32)

/-- Vector registers written in a group of width `w`: BALLOT and MATCH write a mask (R131, R133). -/
def Instr.dests (i : Instr) (w : Nat) : List (Nat × Nat) :=
  match i with
  | .ballot x => [(x.vd.toNat, maskRegs w)]
  | .vmatch x => [(x.vd.toNat, maskRegs w)]
  | .moviLong32 vd _ _ _ => [(vd.toNat, 1)]
  | .moviLong64 vd _ _ _ => [(vd.toNat, 2)]
  | _ =>
    match i.shape? with
    | some (h, x) => h.d.range x.vd
    | none => []

/-- Every vector register range an instruction of a group of width `w` names (R33). -/
def Instr.named (i : Instr) (w : Nat) : List (Nat × Nat) := i.sources ++ i.dests w

/-- Predicates named beside the instruction's own. -/
def Instr.preds (i : Instr) : List Nat :=
  match i with
  | .brm s0 s1 s2 s3 => [s0.q.toNat, s1.q.toNat, s2.q.toNat, s3.q.toNat]
  | .moviLong32 _ q _ _ => [q.toNat]
  | .moviLong64 _ q _ _ => [q.toNat]
  | .gset w => [w.q.toNat, w.imm.toNat / 16 % 16]
  | .sel w => [w.q.toNat, w.imm.toNat % 16]
  | .ballot w => [w.q.toNat, w.imm.toNat % 16]
  | .vote w => [w.q.toNat, w.imm.toNat % 16, w.vd.toNat]
  | .qlop w => [w.q.toNat, w.vd.toNat, w.va.toNat, w.vb.toNat]
  | _ =>
    match i.shape? with
    | some (h, w) => if h.d = .pred then [w.q.toNat, w.vd.toNat] else [w.q.toNat]
    | none => []

end Sys2Proof

namespace Sys2Proof.Machine

/-- A scalar register as the block captured it (R58); s0 reads zero. -/
def Captured.rdS (c : Captured) (r : Nat) : Word := if r = 0 then 0 else c.scalars.get 0 r
/-- A captured scalar pair (R28, R58). -/
def Captured.rdPair (c : Captured) (r : Nat) : Dword := pairOf (c.rdS r) (c.rdS (r + 1))

/-- What the executing lane stream's block captured. -/
def State.cap (s : State) : Captured := s.grp.stream.cap

/-- First source, 32 bits: a register, or a captured scalar (R55, R58). -/
def State.a32 (s : State) (w : LaneOps) (t : Nat) : Word :=
  if w.ska then s.cap.rdS w.va.toNat else s.rdV t w.va.toNat
/-- First source, a pair. -/
def State.a64 (s : State) (w : LaneOps) (t : Nat) : Dword :=
  if w.ska then s.cap.rdPair w.va.toNat else s.rdV64 t w.va.toNat
/-- First source with its tag; a scalar pair is RAW (R27). -/
def State.aTW (s : State) (w : LaneOps) (t : Nat) : TWord :=
  if w.ska then ⟨s.cap.rdPair w.va.toNat, 0⟩ else s.rdTW t w.va.toNat
def State.b32 (s : State) (w : LaneOps) (t : Nat) : Word := s.rdV t w.vb.toNat
def State.b64 (s : State) (w : LaneOps) (t : Nat) : Dword := s.rdV64 t w.vb.toNat
def State.c32 (s : State) (w : LaneOps) (t : Nat) : Word := s.rdV t w.vc.toNat
def State.c64 (s : State) (w : LaneOps) (t : Nat) : Dword := s.rdV64 t w.vc.toNat

/-- Second integer source: the register or, in immediate form, SignExtend(imm14, w) (R97). -/
def State.bi32 (s : State) (w : LaneOps) (t : Nat) : Word := if w.immForm then w.imm.signExtend 32 else s.b32 w t
def State.bi64 (s : State) (w : LaneOps) (t : Nat) : Dword := if w.immForm then w.imm.signExtend 64 else s.b64 w t

/-- A typed source as a number: the pair for a 64-bit type, the register otherwise (R92). -/
def State.aN (s : State) (w : LaneOps) (type : BitVec 4) (t : Nat) : Nat :=
  if wideType type then (s.a64 w t).toNat else (s.a32 w t).toNat
def State.bN (s : State) (w : LaneOps) (type : BitVec 4) (t : Nat) : Nat :=
  if wideType type then (s.b64 w t).toNat else (s.b32 w t).toNat
def State.cN (s : State) (w : LaneOps) (type : BitVec 4) (t : Nat) : Nat :=
  if wideType type then (s.c64 w t).toNat else (s.c32 w t).toNat

/-- A predicate with its negate bit (R26). -/
def Group.predIs (g : Group) (t : Nat) (q : PReg) (neg : Bool) : Bool := g.pred t q.toNat != neg

end Sys2Proof.Machine
end

