-- ==== Sys2Proof/Machine/LaneIssue.lean ====
section
/-!
DEFINITION. The issue of a lane instruction: encoding, features and register bounds first (R62, R395, R33, R191), then the
scoreboard (R244) and poisoned sources (R204), then its effect in the active threads, then the fragment's next place.
-/
namespace Sys2Proof

/-- Matrix opcodes, 0xA0 to 0xA9. -/
def Instr.isMatrix (i : Instr) : Bool := decide (0xA0 ≤ i.opcode) && decide (i.opcode ≤ 0xA9)

/-- A cross-lane instruction, which reads threads of every fragment (R128). -/
def Instr.readsLanes (i : Instr) : Bool := decide (0x60 ≤ i.opcode) && decide (i.opcode ≤ 0x67)

/-- The registers that BACKTRACK restores stand in its record (R167): it waits for every result of its threads. -/
def Instr.restores (i : Instr) : Bool :=
  match i with
  | .backtrack _ => true
  | _ => false

end Sys2Proof

namespace Sys2Proof.Machine

/-! ### Fields of matrix instructions -/

/-- Extents M, N and K, and the window code (R216, R235's encoding). -/
def LaneOps.extM (w : LaneOps) : Nat := 32 * (w.imm.toNat / 64 % 4 + 1)
def LaneOps.extN (w : LaneOps) : Nat := 32 * (w.imm.toNat / 256 % 4 + 1)
def LaneOps.extK (w : LaneOps) : Nat := 16 * (w.imm.toNat / 1024 % 8 + 1)
def LaneOps.aw (w : LaneOps) : Nat := w.imm.toNat % 16
/-- Count of frames, imm14[3:0] + 1 (R236). -/
def LaneOps.count (w : LaneOps) : Nat := w.imm.toNat % 16 + 1

/-- Frames that a matrix instruction names: the first and how many (R223, R236). -/
def frameField (i : Instr) : Nat × Nat :=
  match i with
  | .mma w | .mmai w => (w.vd.toNat, LaneOps.extM w / 32 * (LaneOps.extN w / 32))
  | .mzero w | .mflagc w | .mlda w => (w.vd.toNat, LaneOps.count w)
  | .msta w | .mflag w => (w.va.toNat, LaneOps.count w)
  | _ => (0, 0)

/-! ### Checks -/

/-- The features of FEATEN that a lane instruction needs, by opcode (R395). The matrix formats are checked by the meaning. -/
def featureLane (i : Instr) : List Nat :=
  match i with
  | .commit _ => [2]
  | .xchg _ => [8]
  | .tmk w => if w.imm.toNat % 16 != 0 then [1] else []
  | .mmai _ => [5]
  | _ => if 0x90 ≤ i.opcode ∧ i.opcode ≤ 0x9F then [1] else []

/-- The register bound: 64 in handler mode (R191), otherwise N (R33). -/
def Group.registerBound (g : Group) : Nat := if g.handler.isSome then 64 else g.n

/-- TRAPINFO of an ILLOP for a register range beyond the bound (R33, R191, log 14). -/
def Group.rangeTrap (g : Group) (ranges : List (Nat × Nat)) (i : Instr) : Option Dword :=
  let top := ranges.foldl (fun m r => max m (r.1 + r.2)) 0
  if top ≤ g.registerBound then none
  else if g.handler.isSome then some (BitVec.ofNat 64 i.opcode)
  else some (BitVec.ofNat 64 (top - 1))

/-- ILLOP's information, if the instruction is illegal here: the encoding first, a frame field beyond the 768 with its frame (R62, R223),
then the registers (R33). -/
def State.laneIllegal (s : State) (i : Instr) : Option Dword :=
  if !i.wf || !(featureLane i).all (fun k => s.feature k) then some (BitVec.ofNat 64 i.opcode)
  else if (frameField i).1 + (frameField i).2 > 768 then some (BitVec.ofNat 64 (frameField i).1)
  else s.grp.rangeTrap (i.named s.grp.w) i

/-! ### The scoreboard over matrix operations (R244) -/

/-- Registers a matrix operation writes. -/
def MatOp.regsOut (m : MatOp) : List (Nat × Nat) :=
  match m.instr with
  | .msta w => if w.fn.getLsbD 7 then [] else m.instr.dests 32
  | .mflag w => if w.fn = 1 then [] else m.instr.dests 32
  | _ => []

/-- The predicate a matrix operation writes. -/
def MatOp.predOut (m : MatOp) : Option Nat :=
  match m.instr with
  | .mflag w => if w.fn = 1 then some w.vd.toNat else none
  | _ => none

/-- Two register ranges meet. -/
def rangesMeet (a b : Nat × Nat) : Bool := decide (a.1 < b.1 + b.2) && decide (b.1 < a.1 + a.2)

/-- An operation writes a predicate that an instruction of the handler, or of the group, names by this number: q1 to q7 are the group's own
in both (R191). -/
def MatOp.writesPred (m : MatOp) (handler : Bool) (q : Nat) : Bool :=
  q != 0 && m.predOut == some q && (decide (q < 8) || m.inHandler == handler)

/-- An operation holds a resource that an instruction of the handler, or of the group, names: the handler's registers are the understudy's
(R191). -/
def MatOp.holds (m : MatOp) (handler : Bool) (i : Instr) (w : Nat) : Bool :=
  (m.inHandler == handler && m.regsOut.any fun a => (i.named w).any fun b => rangesMeet a b) || i.preds.any (m.writesPred handler)

/-- Vector registers that accesses on their way will write: the threads, the first register and how many (R118, R128). -/
def State.lateDests (s : State) : List (BitVec 128 × Nat × Nat) :=
  let g := s.grp
  (g.reqs.flatMap fun x =>
    match s.lateReq x with
    | some (_, a) => (a.dest.map fun d => (a.takers, d, if wideType a.type then 2 else 1)).toList
    | none => [])
  ++ g.accesses.flatMap fun a => if a.scalar then [] else a.accs.flatMap fun c => (a.instr.dests g.w).map fun r => (c.takers, r)

/-- A register that the instruction names, in a thread of its fragment, waits for an access on its way (R118); a source of a cross-lane
instruction in any thread (R128). -/
def State.awaits (s : State) (i : Instr) : Bool :=
  let g := s.grp
  s.lateDests.any fun d =>
    (d.1 &&& g.stream.frag.mask != 0 && (i.restores || (i.named g.w).any (rangesMeet d.2)))
      || (i.readsLanes && i.sources.any (rangesMeet d.2))

/-- The group's matrix operations that are not published, in issue order. -/
def Group.matOps (g : Group) : List MatOp := (g.batches.flatMap (·.ops)) ++ g.openOps

/-- A matrix instruction's predicate that an operation not yet published writes (R243). -/
def Group.predPending (g : Group) (i : Instr) : Bool :=
  match i.shape? with
  | some (_, w) => g.matOps.any fun m => m.writesPred g.handler.isSome w.q.toNat
  | none => false

/-- The stall of a lane instruction on a result still to come: of a matrix operation, where the open batch that holds it closes
first (R244), or of an access on its way (R118, R128). Operations of the handler hold the understudy's registers, those of the
group its own. The open batch closes for an instruction that is not a matrix one. A matrix instruction sees what earlier ones of
its group write (R243), and waits for its own predicate alone, until the operations that lead to it have completed (log 68). An
instruction without an active thread, which R26 gives no effect, waits and closes the batch like any other (R244, log 76). -/
def State.scoreboard (s : State) (i : Instr) : Option State :=
  let g := s.grp
  let held : List MatOp → Bool := fun ms => ms.any fun m => m.holds g.handler.isSome i g.w
  if s.awaits i then some (s.waitLane .scoreboard)
  else if i.isMatrix then
    if g.predPending i && g.matOps.any fun m => !m.done then some (s.waitLane .scoreboard) else none
  else if held g.openOps then some ((s.setGrp g.closeOpen).waitLane .scoreboard)
  else if g.batches.any fun b => held b.ops then some (s.waitLane .scoreboard)
  else none

/-! ### Active threads (R26, R31, R117) -/

/-- Threads of the current fragment's mask. -/
def State.fragThreads (s : State) : List Nat := threadsOf s.grp.stream.frag.mask

/-- Threads in which the instruction executes (R26, R117). -/
def State.activeBy (s : State) (q : PReg) (neg : Bool) : List Nat := s.fragThreads.filter fun t => s.grp.predIs t q neg

/-- Threads in which a lane instruction of R54's layout executes: with the uniform bit the lowest of the fragment, if its
predicate is true (R31). -/
def State.active (s : State) (w : LaneOps) : List Nat :=
  if w.uni then
    match s.fragThreads with
    | [] => []
    | t :: _ => if s.grp.predIs t w.q w.neg then [t] else []
  else s.activeBy w.q w.neg

/-- Threads that receive the result computed in thread `t` (R31). -/
def State.receivers (s : State) (w : LaneOps) (t : Nat) : List Nat := if w.uni then s.fragThreads else [t]

/-! ### Poisoned registers (R204) -/

/-- WINDOW offset of a register's pair, or of its understudy pair (R188). -/
def Group.pairOffset (g : Group) (t r : Nat) : Nat :=
  match g.handler with
  | some _ => (t * 64 + r / 2 * 2) * 4
  | none => (t * g.n + r) / 2 * 8

/-- POISON for the first register of the ranges whose pair in thread `t` is tagged POI. -/
def State.regPoison (s : State) (t : Nat) (ranges : List (Nat × Nat)) : Option (Nat × Dword) :=
  let regs := ranges.flatMap fun r => (List.range r.2).map (r.1 + ·)
  match regs.find? fun r => s.rdTag t r == tagPOI with
  | some r => some (cPOISON, poisonInfo 2 (BitVec.ofNat 64 (s.grp.pairOffset t r)))
  | none => none

/-- POISON of the lowest thread that reads a poisoned register. -/
def State.firstPoison (s : State) (ts : List Nat) (ranges : List (Nat × Nat)) : Option (Nat × Dword) :=
  ts.findSome? fun t => s.regPoison t ranges

/-! ### Completion -/

/-- Marks, counts and progress of the fragment's threads cleared (R153). -/
def Group.clearMarksIn (g : Group) (ts : List Nat) : Group :=
  ts.foldl (fun g t =>
    let x := g.thread t
    if x.begun then g.setThread t x.unmarked
    else g) g

/-- The lane stream changed, then settled (R118, R122 to R124); its slots count as work (R356). -/
def State.moveLane (s : State) (slots : Nat) (f : LaneStream → LaneStream) : State :=
  s.upd fun g => { g.setStream ((f (g.stream.charge slots)).after g.w) with waitL := .none, work := g.work + slots }

/-- Past an instruction that used some issue slots. -/
def State.passLane (s : State) (slots : Nat) : State :=
  let ts := s.fragThreads
  (s.upd fun g => g.clearMarksIn ts).moveLane slots LaneStream.step

/-- An instruction that has not completed is to be finished by its fragment where it waits for its own accesses, or where some of its
steps are made (R153, R190). -/
def State.noteIssued (s : State) : State :=
  let g := s.grp
  if g.waitL == .load || g.waitL == .acquire || s.fragThreads.any fun t => (g.thread t).begun then
    s.setGrp (g.setStream (g.stream.setIssued g.stream.cur true))
  else s

/-- The machine after a lane instruction's effect. -/
def finishLane (slots : Nat) (r : Res) : Ans :=
  match r with
  | .done s => .next (s.passLane slots)
  | .jump s => .next s
  | .stay s => .next s.noteIssued
  | .trap c info s => .next (s.trapLane c info)
  | .park va k a s => .next (s.parkGroup va k a true)

/-- A lane instruction issued: its legality and the scoreboard, then its own effect. -/
def issueLane (i : Instr) (slots : State → Nat) (s : State) (body : State → Res) : Ans :=
  match s.laneIllegal i with
  | some info => .next (s.trapLane cILLOP info)
  | none =>
    match s.scoreboard i with
    | some s => .next s
    | none => finishLane (slots s) (body s)

/-- Slots of an instruction of R54's layout (R29, R31). -/
def laneSlots (w : LaneOps) (s : State) : Nat := if w.uni then 1 else passes (maskOf (s.activeBy w.q w.neg))

/-! ### Register results -/

/-- What an instruction writes in a thread. -/
inductive Out where
  | w32 (v : Word)
  | w64 (v : Dword)
  | tw (v : TWord)
  | bit (v : Bool)
  | words (vs : List Word)
  /-- Nothing. -/
  | keep
deriving DecidableEq, Repr, Inhabited

/-- Consecutive registers written, every pair touched RAW (R35). -/
def State.putWords (s : State) (t r : Nat) : List Word → State
  | [] => s
  | v :: vs => (s.wrV t r v).putWords t (r + 1) vs

/-- A result written to the destination field (R26, R35). -/
def State.put (s : State) (t : Nat) (vd : VReg) (o : Out) : State :=
  match o with
  | .w32 v => s.wrV t vd.toNat v
  | .w64 v => s.wrV64 t vd.toNat v
  | .tw v => s.wrTW t vd.toNat v
  | .bit v => s.upd fun g => g.setPred t vd.toNat v
  | .words vs => s.putWords t vd.toNat vs
  | .keep => s

/-- Results written after every source has been read (R30). -/
def State.putAll (s : State) (vd : VReg) (rs : List (Nat × Out)) : State := rs.foldl (fun s r => s.put r.1 vd r.2) s

/-- A register-only instruction: each active thread's result is a function of the state before it (R30, R31, R93). -/
def aluLane (i : Instr) (w : LaneOps) (s : State) (f : State → Nat → Out) : Ans :=
  issueLane i (laneSlots w) s fun s =>
    let ts := s.active w
    match s.firstPoison ts i.sources with
    | some (c, info) => .trap c info s
    | none => .done (s.putAll w.vd (ts.flatMap fun t => let o := f s t; (s.receivers w t).map fun r => (r, o)))

end Sys2Proof.Machine
end

