-- ==== Sys2Proof/Machine/ScalarInt.lean ====
section
/-!
DEFINITION. Integer and address instructions of the scalar stream (R52, R74, R75).
-/
namespace Sys2Proof.Machine

/-- A register-register operation (R74). -/
def aluRR (sd sa sb : SReg) (s : State) (f : Word → Word → Word) : Ans := .next (s.resultS sd (f (s.sreg sa) (s.sreg sb)))
/-- A register-immediate operation on SignExtend(imm12, 32) (R50, R74). -/
def aluRI (sd sa : SReg) (imm : BitVec 12) (s : State) (f : Word → Word → Word) : Ans :=
  .next (s.resultS sd (f (s.sreg sa) (imm.signExtend 32)))
/-- A shift by an immediate count. -/
def aluShift (sd sa : SReg) (n : BitVec 5) (s : State) (f : Word → Nat → Word) : Ans :=
  .next (s.resultS sd (f (s.sreg sa) n.toNat))

/-- Bits [63:32] of the signed product (R74). -/
def mulHigh (a b : Word) : Word := ((a.signExtend 64 * b.signExtend 64) >>> 32).setWidth 32
/-- Signed quotient truncated toward zero, with the corners of R74. -/
def sdivWord (a b : Word) : Word := if b = 0 then 0xFFFFFFFF else a.sdiv b
/-- Remainder with the sign of a, with the corners of R74. -/
def sremWord (a b : Word) : Word := if b = 0 then a else a.srem b
def minWord (a b : Word) : Word := if a.slt b then a else b
def maxWord (a b : Word) : Word := if a.slt b then b else a
def sltWord (a b : Word) : Word := if a.slt b then 1 else 0
/-- Number of 1 bits. -/
def popcount {n : Nat} (a : BitVec n) : Nat := ((List.range n).filter fun i => a.getLsbD i).length
/-- Number of leading 0 bits. -/
def leading {n : Nat} (a : BitVec n) : Nat := if a = 0 then n else n - 1 - a.toNat.log2
/-- a[pos + len − 1 : pos], zero-extended. -/
def extract (a : Word) (pos len : Nat) : Word := (a >>> pos) &&& BitVec.ofNat 32 (2 ^ len - 1)
/-- Bits [pos + len − 1 : pos] of `d` replaced by the low bits of `a`. -/
def insert (d a : Word) (pos len : Nat) : Word :=
  let m : Word := BitVec.ofNat 32 (2 ^ len - 1) <<< pos
  (d &&& ~~~m) ||| ((a <<< pos) &&& m)

def execSadd (sd sa sb : SReg) (s : State) : Ans := aluRR sd sa sb s (· + ·)
def execSsub (sd sa sb : SReg) (s : State) : Ans := aluRR sd sa sb s (· - ·)
def execSmul (sd sa sb : SReg) (s : State) : Ans := aluRR sd sa sb s (· * ·)
def execSmulh (sd sa sb : SReg) (s : State) : Ans := aluRR sd sa sb s mulHigh
def execSdiv (sd sa sb : SReg) (s : State) : Ans := aluRR sd sa sb s sdivWord
def execSrem (sd sa sb : SReg) (s : State) : Ans := aluRR sd sa sb s sremWord
def execSand (sd sa sb : SReg) (s : State) : Ans := aluRR sd sa sb s (· &&& ·)
def execSor (sd sa sb : SReg) (s : State) : Ans := aluRR sd sa sb s (· ||| ·)
def execSxor (sd sa sb : SReg) (s : State) : Ans := aluRR sd sa sb s (· ^^^ ·)
/-- Shifts take b[4:0] (R74). -/
def execSshl (sd sa sb : SReg) (s : State) : Ans := aluRR sd sa sb s fun a b => a <<< (b.toNat % 32)
def execSshr (sd sa sb : SReg) (s : State) : Ans := aluRR sd sa sb s fun a b => a >>> (b.toNat % 32)
def execSsra (sd sa sb : SReg) (s : State) : Ans := aluRR sd sa sb s fun a b => a.sshiftRight (b.toNat % 32)
def execSmin (sd sa sb : SReg) (s : State) : Ans := aluRR sd sa sb s minWord
def execSmax (sd sa sb : SReg) (s : State) : Ans := aluRR sd sa sb s maxWord
def execSslt (sd sa sb : SReg) (s : State) : Ans := aluRR sd sa sb s sltWord

def execSaddi (sd sa : SReg) (imm : BitVec 12) (s : State) : Ans := aluRI sd sa imm s (· + ·)
def execSandi (sd sa : SReg) (imm : BitVec 12) (s : State) : Ans := aluRI sd sa imm s (· &&& ·)
def execSori (sd sa : SReg) (imm : BitVec 12) (s : State) : Ans := aluRI sd sa imm s (· ||| ·)
def execSxori (sd sa : SReg) (imm : BitVec 12) (s : State) : Ans := aluRI sd sa imm s (· ^^^ ·)
def execSslti (sd sa : SReg) (imm : BitVec 12) (s : State) : Ans := aluRI sd sa imm s sltWord
def execSshli (sd sa : SReg) (n : BitVec 5) (s : State) : Ans := aluShift sd sa n s fun a k => a <<< k
def execSshri (sd sa : SReg) (n : BitVec 5) (s : State) : Ans := aluShift sd sa n s fun a k => a >>> k
def execSsrai (sd sa : SReg) (n : BitVec 5) (s : State) : Ans := aluShift sd sa n s fun a k => a.sshiftRight k

/-- SLUI shifts and inserts (R52). -/
def execSlui (sd : SReg) (imm : BitVec 18) (s : State) : Ans :=
  .next (s.resultS sd ((s.sreg sd <<< 18) ||| imm.setWidth 32))

def execSpopc (sd sa : SReg) (s : State) : Ans := .next (s.resultS sd (BitVec.ofNat 32 (popcount (s.sreg sa))))
def execSclz (sd sa : SReg) (s : State) : Ans := .next (s.resultS sd (BitVec.ofNat 32 (leading (s.sreg sa))))

/-- SBFX; `len` is the field's length less one (R53, R74). -/
def execSbfx (sd sa : SReg) (len pos : BitVec 5) (s : State) : Ans :=
  issueScalar (.sbfx sd sa len pos) s fun s =>
    .done (s.upd fun g => g.wrS sd.toNat (extract (s.sreg sa) pos.toNat (len.toNat + 1)))
/-- SBFI (R74). -/
def execSbfi (sd sa : SReg) (len pos : BitVec 5) (s : State) : Ans :=
  issueScalar (.sbfi sd sa len pos) s fun s =>
    .done (s.upd fun g => g.wrS sd.toNat (insert (s.sreg sd) (s.sreg sa) pos.toNat (len.toNat + 1)))

/-- SSEL (R74). -/
def execSsel (sd sa sb sc : SReg) (s : State) : Ans :=
  .next (s.resultS sd (if s.sreg sc ≠ 0 then s.sreg sa else s.sreg sb))

/-- SADDP (R75). -/
def execSaddp (sd sa sb : SReg) (s : State) : Ans :=
  issueScalar (.saddp sd sa sb) s fun s =>
    .done (s.upd fun g => g.wrPair sd.toNat (s.spair sa + (s.sreg sb).signExtend 64))
/-- SADDPI (R75). -/
def execSaddpi (sd sa : SReg) (imm : BitVec 12) (s : State) : Ans :=
  issueScalar (.saddpi sd sa imm) s fun s =>
    .done (s.upd fun g => g.wrPair sd.toNat (s.spair sa + sext imm))

end Sys2Proof.Machine
end

