-- ==== Sys2Proof/Machine/LaneInt.lean ====
section
/-!
DEFINITION. Integer instructions of the lane stream (R60, R97 to R102).
-/
namespace Sys2Proof.Machine

/-- .S types: codes 0 to 3 and 14 (R56). -/
def signedType (t : BitVec 4) : Bool := decide (t.toNat < 4) || t == 14

/-- The integer a bit pattern stands for. -/
def readInt {n : Nat} (isSigned : Bool) (x : BitVec n) : Int := if isSigned then x.toInt else x.toNat

/-- An exact value clamped to an n-bit type (R98, R113). -/
def clampInt (n : Nat) (isSigned : Bool) (x : Int) : BitVec n :=
  let lo : Int := if isSigned then -(2 ^ (n - 1)) else 0
  let hi : Int := if isSigned then 2 ^ (n - 1) - 1 else 2 ^ n - 1
  BitVec.ofInt n (max lo (min hi x))

/-- Two-source instructions of R97's widths. -/
def intLane2 (i : Instr) (w : LaneOps) (s : State) (f : {n : Nat} → BitVec n → BitVec n → BitVec n) : Ans :=
  aluLane i w s fun s t =>
    if wideType w.type then .w64 (f (s.a64 w t) (s.bi64 w t)) else .w32 (f (s.a32 w t) (s.bi32 w t))

/-- One-source instructions. -/
def intLane1 (i : Instr) (w : LaneOps) (s : State) (f : {n : Nat} → BitVec n → BitVec n) : Ans :=
  aluLane i w s fun s t => if wideType w.type then .w64 (f (s.a64 w t)) else .w32 (f (s.a32 w t))

/-- Three-source instructions. -/
def intLane3 (i : Instr) (w : LaneOps) (s : State) (f : {n : Nat} → BitVec n → BitVec n → BitVec n → BitVec n) : Ans :=
  aluLane i w s fun s t =>
    if wideType w.type then .w64 (f (s.a64 w t) (s.b64 w t) (s.c64 w t)) else .w32 (f (s.a32 w t) (s.b32 w t) (s.c32 w t))

/-- Instructions that write a count of 32 bits. -/
def countLane (i : Instr) (w : LaneOps) (s : State) (f : {n : Nat} → BitVec n → Nat) : Ans :=
  aluLane i w s fun s t =>
    .w32 (BitVec.ofNat 32 (if wideType w.type then f (s.a64 w t) else f (s.a32 w t)))

/-- Shift count: b mod w (R98). -/
def shiftCount {n : Nat} (b : BitVec n) : Nat := b.toNat % n
/-- Bits [2w−1:w] of the exact product (R98). -/
def highProduct (isSigned : Bool) {n : Nat} (a b : BitVec n) : BitVec n :=
  BitVec.ofInt n (readInt isSigned a * readInt isSigned b / 2 ^ n)
/-- |a|, the most negative value unchanged or clamped (R98). -/
def absInt (sat : Bool) {n : Nat} (a : BitVec n) : BitVec n :=
  if sat then clampInt n true (a.toInt.natAbs : Int) else if a.msb then -a else a
/-- Bit i moved to bit n − 1 − i (R98). -/
def reverseBits {n : Nat} (a : BitVec n) : BitVec n :=
  (List.range n).foldl (fun r i => if a.getLsbD i then r ||| ((1 : BitVec n) <<< (n - 1 - i)) else r) 0
/-- The truth table applied to every bit position (R100). -/
def lut3 (table : Nat) {n : Nat} (a b c : BitVec n) : BitVec n :=
  (List.range 8).foldl (fun r k =>
    if table / 2 ^ k % 2 = 1 then
      r ||| ((if k % 2 = 1 then a else ~~~a) &&& (if k / 2 % 2 = 1 then b else ~~~b) &&& (if k / 4 = 1 then c else ~~~c))
    else r) 0

/-- IADD (R98). -/
def execIadd (w : LaneOps) (s : State) : Ans :=
  let sg := signedType w.type
  intLane2 (.iadd w) w s fun {n} a b => if w.fn.getLsbD 0 then clampInt n sg (readInt sg a + readInt sg b) else a + b
/-- ISUB (R98). -/
def execIsub (w : LaneOps) (s : State) : Ans :=
  let sg := signedType w.type
  intLane2 (.isub w) w s fun {n} a b => if w.fn.getLsbD 0 then clampInt n sg (readInt sg a - readInt sg b) else a - b
/-- IMUL (R98). -/
def execImul (w : LaneOps) (s : State) : Ans := intLane2 (.imul w) w s fun a b => a * b
/-- IMULH (R98). -/
def execImulh (w : LaneOps) (s : State) : Ans :=
  aluLane (.imulh w) w s fun s t =>
    let sg := signedType w.type
    if wideType w.type then .w64 (highProduct sg (s.a64 w t) (s.b64 w t)) else .w32 (highProduct sg (s.a32 w t) (s.b32 w t))
/-- IMAD (R98). -/
def execImad (w : LaneOps) (s : State) : Ans := intLane3 (.imad w) w s fun a b c => a * b + c
/-- IMIN (R98). -/
def execImin (w : LaneOps) (s : State) : Ans :=
  intLane2 (.imin w) w s fun a b => if compareInt (signedType w.type) 2 b a then b else a
/-- IMAX (R98). -/
def execImax (w : LaneOps) (s : State) : Ans :=
  intLane2 (.imax w) w s fun a b => if compareInt (signedType w.type) 2 a b then b else a
/-- IABS (R98). -/
def execIabs (w : LaneOps) (s : State) : Ans := intLane1 (.iabs w) w s fun a => absInt (w.fn.getLsbD 0) a
/-- AND (R98). -/
def execVand (w : LaneOps) (s : State) : Ans := intLane2 (.vand w) w s fun a b => a &&& b
/-- OR (R98). -/
def execVor (w : LaneOps) (s : State) : Ans := intLane2 (.vor w) w s fun a b => a ||| b
/-- XOR (R98). -/
def execVxor (w : LaneOps) (s : State) : Ans := intLane2 (.vxor w) w s fun a b => a ^^^ b
/-- BLUT (R100). -/
def execBlut (w : LaneOps) (s : State) : Ans := intLane3 (.blut w) w s fun a b c => lut3 w.imm.toNat a b c
/-- SHL (R98). -/
def execShl (w : LaneOps) (s : State) : Ans := intLane2 (.shl w) w s fun a b => a <<< shiftCount b
/-- SHR (R98). -/
def execShr (w : LaneOps) (s : State) : Ans := intLane2 (.shr w) w s fun a b => a >>> shiftCount b
/-- SRA (R97, R98): the type's signedness governs it, so that an unsigned type fills with zeros (log 77). -/
def execSra (w : LaneOps) (s : State) : Ans :=
  let sg := signedType w.type
  intLane2 (.sra w) w s fun a b => if sg then a.sshiftRight (shiftCount b) else a >>> shiftCount b
/-- ROTR (R98). -/
def execRotr (w : LaneOps) (s : State) : Ans := intLane2 (.rotr w) w s fun a b => a.rotateRight (shiftCount b)
/-- POPC (R98). -/
def execPopc (w : LaneOps) (s : State) : Ans := countLane (.popc w) w s fun a => popcount a
/-- CLZ (R98). -/
def execClz (w : LaneOps) (s : State) : Ans := countLane (.clz w) w s fun a => leading a
/-- BREV (R98). -/
def execBrev (w : LaneOps) (s : State) : Ans := intLane1 (.brev w) w s fun a => reverseBits a
/-- MOV (R98). -/
def execMov (w : LaneOps) (s : State) : Ans := intLane1 (.mov w) w s fun a => a

/-- Position and length of BFX and BFI for a width of `n`: the immediate's, or the register's cut to the width (R99). -/
def fieldOf (w : LaneOps) (c : Word) (n : Nat) : Nat × Nat :=
  if w.fn = 0 then (w.imm.toNat % 64, w.imm.toNat / 64 % 64 + 1)
  else
    let pos := c.toNat % 256
    let len := c.toNat / 256 % 256
    if pos ≥ n ∨ len = 0 then (pos, 0) else (pos, min len (n - pos))

/-- The field of `a`, extended by signedness; none for length 0 (R99). -/
def fieldExtract {n : Nat} (isSigned : Bool) (a : BitVec n) (pos len : Nat) : BitVec n :=
  let f := a.toNat / 2 ^ pos % 2 ^ len
  if len = 0 then 0
  else if isSigned && f / 2 ^ (len - 1) % 2 == 1 then BitVec.ofInt n ((f : Int) - 2 ^ len)
  else BitVec.ofNat n f

/-- `b` with the field replaced by the low bits of `a` (R99). -/
def fieldInsert {n : Nat} (a b : BitVec n) (pos len : Nat) : BitVec n :=
  let m : BitVec n := BitVec.ofNat n (2 ^ len - 1) <<< pos
  (b &&& ~~~m) ||| ((a <<< pos) &&& m)

/-- BFX (R99); vc names one register for every type. -/
def execBfx (w : LaneOps) (s : State) : Ans :=
  aluLane (.bfx w) w s fun s t =>
    let sg := signedType w.type
    if wideType w.type then
      let f := fieldOf w (s.c32 w t) 64
      .w64 (fieldExtract sg (s.a64 w t) f.1 f.2)
    else
      let f := fieldOf w (s.c32 w t) 32
      .w32 (fieldExtract sg (s.a32 w t) f.1 f.2)
/-- BFI (R99). -/
def execBfi (w : LaneOps) (s : State) : Ans :=
  aluLane (.bfi w) w s fun s t =>
    if wideType w.type then
      let f := fieldOf w (s.c32 w t) 64
      .w64 (fieldInsert (s.a64 w t) (s.b64 w t) f.1 f.2)
    else
      let f := fieldOf w (s.c32 w t) 32
      .w32 (fieldInsert (s.a32 w t) (s.b32 w t) f.1 f.2)

/-- ICMP (R101). -/
def execIcmp (w : LaneOps) (s : State) : Ans :=
  aluLane (.icmp w) w s fun s t =>
    let sg := signedType w.type
    let cond := w.fn.toNat % 8
    .bit (if wideType w.type then compareInt sg cond (s.a64 w t) (s.bi64 w t) else compareInt sg cond (s.a32 w t) (s.bi32 w t))

/-- SEL (R101). -/
def execSel (w : LaneOps) (s : State) : Ans :=
  aluLane (.sel w) w s fun s t =>
    let pick := s.grp.pred t (w.imm.toNat % 16) != w.imm.getLsbD 4
    if wideType w.type then .w64 (if pick then s.a64 w t else s.b64 w t)
    else .w32 (if pick then s.a32 w t else s.b32 w t)

/-- MOVI, short form: SignExtend(ctl[19:0], 32) (R60). -/
def execMovi (w : LaneOps) (s : State) : Ans :=
  aluLane (.movi w) w s fun _ _ =>
    .w32 ((BitVec.ofNat 20 (w.use.toNat * 2 ^ 17 + w.rnd.toNat * 2 ^ 14 + w.imm.toNat)).signExtend 32)

/-- A long form of MOVI: every active thread (R60). -/
def moviLong (i : Instr) (vd : VReg) (q : PReg) (neg : Bool) (o : Out) (s : State) : Ans :=
  issueLane i (fun s => passes (maskOf (s.activeBy q neg))) s fun s =>
    .done (s.putAll vd ((s.activeBy q neg).map fun t => (t, o)))

/-- MOVI, long 32 (R60). -/
def execMoviLong32 (vd : VReg) (q : PReg) (neg : Bool) (imm : BitVec 64) (s : State) : Ans :=
  moviLong (.moviLong32 vd q neg imm) vd q neg (.w32 (imm.setWidth 32)) s
/-- MOVI, long 64 (R60). -/
def execMoviLong64 (vd : VReg) (q : PReg) (neg : Bool) (imm : BitVec 64) (s : State) : Ans :=
  moviLong (.moviLong64 vd q neg imm) vd q neg (.w64 imm) s

/-- The value of an SREGR selector (R41). -/
def Group.selected (g : Group) (t sel : Nat) : Nat :=
  match sel with
  | 0 => t
  | 1 => g.w
  | 2 => g.groupId
  | 3 => g.castId
  | 4 => g.companyId
  | 5 => g.houseId
  | 6 => g.n
  | _ => g.groupCount

/-- SREGR (R41, R102). -/
def execSregr (w : LaneOps) (s : State) : Ans :=
  aluLane (.sregr w) w s fun s t => .w32 (BitVec.ofNat 32 (s.grp.selected t w.imm.toNat))

end Sys2Proof.Machine
end

