-- ==== Sys2Proof/Machine/LaneFloat.lean ====
section
/-!
DEFINITION. Floating-point and conversion instructions of the lane stream (R103 to R116).
-/
namespace Sys2Proof.Machine

/-- The format of a floating-point type code (R56, R103, R113). -/
def fmtOf (t : BitVec 4) : Fmt :=
  match t.toNat with
  | 8 => fmtF16
  | 9 => fmtB16
  | 11 => fmtF64
  | 12 => fmtE4M3
  | 13 => fmtE5M2
  | _ => fmtF32

/-- The rounding of an instruction: its code, or RNDMODE as the block captured it (R57, R68, R104). -/
def State.rndOf (s : State) (code : BitVec 3) : Rnd :=
  Rnd.ofCode (if code = 5 then s.cap.rndMode.toNat % 8 else code.toNat)

/-- Types of two 16-bit elements in a register (R103). -/
def packedType (t : BitVec 4) : Bool := t == 8 || t == 9

/-- Low and high element of a register. -/
def lowHalf (x : Nat) : Nat := x % 65536
def highHalf (x : Nat) : Nat := x / 65536 % 65536

/-- A source with its modifiers: fn bits `k` negate and `k + 1` magnitude (R106). -/
def modified (w : LaneOps) (k : Nat) (x : Nat) : Nat :=
  (fmtOf w.type).modify (w.fn.getLsbD k) (w.fn.getLsbD (k + 1)) x

/-- A floating-point result in the operand format: both halves of a packed type, a register, or a pair (R103). -/
def floatOut (t : BitVec 4) (f : Nat → Nat → Nat → Nat) (a b c : Nat) : Out :=
  if packedType t then
    .w32 (BitVec.ofNat 32 (f (lowHalf a) (lowHalf b) (lowHalf c) + 65536 * f (highHalf a) (highHalf b) (highHalf c)))
  else if wideType t then .w64 (BitVec.ofNat 64 (f a b c))
  else .w32 (BitVec.ofNat 32 (f a b c))

/-- A floating-point instruction of up to three sources. -/
def floatLane (i : Instr) (w : LaneOps) (s : State) (f : Fmt → Rnd → Nat → Nat → Nat → Nat) : Ans :=
  aluLane i w s fun s t =>
    floatOut w.type
      (fun a b c => f (fmtOf w.type) (s.rndOf w.rnd) (modified w 0 a) (modified w 2 b) (modified w 4 c))
      (s.aN w w.type t) (s.bN w w.type t) (s.cN w w.type t)

/-- FADD (R107). -/
def execFadd (w : LaneOps) (s : State) : Ans := floatLane (.fadd w) w s fun f r a b _ => f.add r a b
/-- FSUB (R107). -/
def execFsub (w : LaneOps) (s : State) : Ans := floatLane (.fsub w) w s fun f r a b _ => f.sub r a b
/-- FMUL (R107). -/
def execFmul (w : LaneOps) (s : State) : Ans := floatLane (.fmul w) w s fun f r a b _ => f.mul r a b
/-- FFMA (R107). -/
def execFfma (w : LaneOps) (s : State) : Ans := floatLane (.ffma w) w s fun f r a b c => f.fma r a b c
/-- FMIN (R108). -/
def execFmin (w : LaneOps) (s : State) : Ans := floatLane (.fmin w) w s fun f _ a b _ => f.minMax false a b
/-- FMAX (R108). -/
def execFmax (w : LaneOps) (s : State) : Ans := floatLane (.fmax w) w s fun f _ a b _ => f.minMax true a b
/-- FDIV (R107). -/
def execFdiv (w : LaneOps) (s : State) : Ans := floatLane (.fdiv w) w s fun f r a b _ => f.div r a b
/-- FSQRT (R107). -/
def execFsqrt (w : LaneOps) (s : State) : Ans := floatLane (.fsqrt w) w s fun f r a _ _ => f.sqrt r a
/-- FRND (R112). -/
def execFrnd (w : LaneOps) (s : State) : Ans := floatLane (.frnd w) w s fun f r a _ _ => f.rnd r a

/-- FCMP (R109): the low halves of a packed type. -/
def execFcmp (w : LaneOps) (s : State) : Ans :=
  aluLane (.fcmp w) w s fun s t =>
    let pick : Nat → Nat := fun x => if packedType w.type then lowHalf x else x
    .bit ((fmtOf w.type).cmp w.imm.toNat (modified w 0 (pick (s.aN w w.type t))) (modified w 2 (pick (s.bN w w.type t))))

/-- FCLASS (R111). -/
def execFclass (w : LaneOps) (s : State) : Ans :=
  aluLane (.fclass w) w s fun s t =>
    let f := fmtOf w.type
    let a := s.aN w w.type t
    .w32 (BitVec.ofNat 32
      (if packedType w.type then f.classify (lowHalf a) + 65536 * f.classify (highHalf a) else f.classify a))

/-- A special function (R110). -/
def specialLane (i : Instr) (fn : Special) (w : LaneOps) (s : State) : Ans :=
  floatLane i w s fun f _ a _ _ => fn.eval f a

def execFrcp (w : LaneOps) (s : State) : Ans := specialLane (.frcp w) .rcp w s
def execFrsq (w : LaneOps) (s : State) : Ans := specialLane (.frsq w) .rsq w s
def execFex2 (w : LaneOps) (s : State) : Ans := specialLane (.fex2 w) .ex2 w s
def execFlg2 (w : LaneOps) (s : State) : Ans := specialLane (.flg2 w) .lg2 w s
def execFsin (w : LaneOps) (s : State) : Ans := specialLane (.fsin w) .sin w s
def execFcos (w : LaneOps) (s : State) : Ans := specialLane (.fcos w) .cos w s
def execFsinpi (w : LaneOps) (s : State) : Ans := specialLane (.fsinpi w) .sinpi w s
def execFcospi (w : LaneOps) (s : State) : Ans := specialLane (.fcospi w) .cospi w s
def execFtanh (w : LaneOps) (s : State) : Ans := specialLane (.ftanh w) .tanh w s

/-! ### Conversion (R113 to R116) -/

/-- Bits of an element of a type code (R56). -/
def typeBits (t : BitVec 4) : Nat :=
  match t.toNat with
  | 0 | 4 | 12 | 13 => 8
  | 1 | 5 | 8 | 9 => 16
  | 2 | 6 | 10 => 32
  | 14 | 15 => 4
  | _ => 64

/-- The integer an element stands for. -/
def elementInt (t : BitVec 4) (x : Nat) : Int :=
  let n := typeBits t
  let x := x % 2 ^ n
  if signedType t && decide (x ≥ 2 ^ (n - 1)) then (x : Int) - 2 ^ n else x

/-- The exact value of an element (R113). -/
def elementValue (t : BitVec 4) (x : Nat) : Num :=
  if integerCode t then Num.ofInt false (elementInt t x) 0 else (fmtOf t).read (x % 2 ^ typeBits t)

/-- An exact integer clamped to a type (R113). -/
def clampTo (t : BitVec 4) (x : Int) : Nat :=
  let n := typeBits t
  let lo : Int := if signedType t then -(2 ^ (n - 1)) else 0
  let hi : Int := if signedType t then 2 ^ (n - 1) - 1 else 2 ^ n - 1
  (max lo (min hi x) % 2 ^ n).toNat

/-- The conversion of one element (R113, R114): the destination's bits. -/
def convert (dst src : BitVec 4) (r : Rnd) (sat : Bool) (x : Nat) : Nat :=
  if integerCode dst then
    if integerCode src then
      if sat then clampTo dst (elementInt src x) else (elementInt src x % 2 ^ typeBits dst).toNat
    else
      match (fmtOf src).read (x % 2 ^ typeBits src) with
      | .nan => 0
      | .inf neg => clampTo dst (if neg then -(2 ^ 64) else 2 ^ 64)
      | v => clampTo dst (v.integral r).toInt
  else (fmtOf dst).round r (sat && dst != 11) (elementValue src x)

/-- A converted element as a register: small signed ones sign-extended (R113). -/
def placed (t : BitVec 4) (x : Nat) : Word :=
  let n := typeBits t
  if signedType t && decide (x ≥ 2 ^ (n - 1)) && decide (n < 32) then BitVec.ofInt 32 ((x : Int) - 2 ^ n) else BitVec.ofNat 32 x

/-- CVT (R113, R114). -/
def execCvt (w : LaneOps) (s : State) : Ans :=
  aluLane (.cvt w) w s fun s t =>
    let d := convert w.type w.src (s.rndOf w.rnd) (w.fn.getLsbD 0) (s.aN w w.src t)
    if wideType w.type then .w64 (BitVec.ofNat 64 d) else .w32 (placed w.type d)

/-- Element `i` of `n` bits of a packed value. -/
def elementAt (x n i : Nat) : Nat := x / 2 ^ (n * i) % 2 ^ n

/-- PACK (R115): the source elements of a and then of b, side by side. -/
def execPack (w : LaneOps) (s : State) : Ans :=
  aluLane (.pack w) w s fun s t =>
    let sn := typeBits w.src
    let dn := typeBits w.type
    let per := 32 / sn
    let x := (s.a32 w t).toNat
    let y := (s.b32 w t).toNat
    let cv : Nat → Nat := convert w.type w.src (s.rndOf w.rnd) (w.fn.getLsbD 0)
    .w32 (BitVec.ofNat 32 ((List.range per).foldl (fun acc i =>
      acc + cv (elementAt x sn i) * 2 ^ (dn * i) + cv (elementAt y sn i) * 2 ^ (dn * (per + i))) 0))

/-- UNPACK (R116): integers extended by the source's signedness. -/
def execUnpack (w : LaneOps) (s : State) : Ans :=
  aluLane (.unpack w) w s fun s t =>
    let sn := typeBits w.src
    let dn := typeBits w.type
    let x := (s.a32 w t).toNat
    .w64 (BitVec.ofNat 64 ((List.range (32 / sn)).foldl (fun acc i =>
      acc + convert w.type w.src .rne false (elementAt x sn i) * 2 ^ (dn * i)) 0))

end Sys2Proof.Machine
end

