-- ==== Sys2Proof/Machine/LaneControl.lean ====
section
/-!
DEFINITION. Control and cross-lane instructions of the lane stream (R120 to R124, R127 to R135).
-/
namespace Sys2Proof.Machine

/-! ### BRM, RCV, LEND (R120 to R124) -/

/-- The first slot of BRM that thread `t` takes; 4 is the fall-through (R120). -/
def State.brmSlot (s : State) (slots : List BrmSlot) (t : Nat) : Nat :=
  (slots.findIdx? fun x => s.grp.predIs t x.q x.neg).getD 4

/-- Address of a slot's target; of the next instruction for slot 4 (R120). -/
def brmTarget (pc : Dword) (slots : List BrmSlot) (k : Nat) : Dword :=
  match slots[k]? with
  | some x => pc + sext x.off * 12
  | none => pc + 12

/-- The distinct addresses of some threads in the order of a list, each with its threads (R120, R167). -/
def groupBy (order : List Dword) (ts : List Nat) (dest : Nat → Dword) : List (Dword × BitVec 128) :=
  order.eraseDups.filterMap fun a =>
    let m := maskOf (ts.filter fun t => dest t == a)
    if m = 0 then none else some (a, m)

/-- The fragments that dividing the current one into `n` sets would leave (R120). -/
def LaneStream.countWith (l : LaneStream) (n : Nat) : Nat := l.frags.length - 1 + n

/-- BRM (R120): every thread of the fragment takes part. -/
def execBrm (s0 s1 s2 s3 : BrmSlot) (s : State) : Ans :=
  issueLane (.brm s0 s1 s2 s3) (fun s => passes s.grp.stream.frag.mask) s fun s =>
    let l := s.grp.stream
    let slots := [s0, s1, s2, s3]
    let ts := s.fragThreads
    let target := brmTarget l.frag.pc slots
    let used := (List.range 5).filter fun k => ts.any fun t => s.brmSlot slots t == k
    let sets := groupBy (used.map target) ts fun t => target (s.brmSlot slots t)
    let n := l.countWith sets.length
    if n > 16 then .trap cILLCONV (BitVec.ofNat 64 n) s
    else .jump (s.moveLane (passes l.frag.mask) fun l => l.divide sets)

/-- The bottom entry of a full stack discarded: fragments parked under it go under the topmost remaining entry that
contains them and has their address, or run on (R121). -/
def LaneStream.dropBottom (l : LaneStream) : LaneStream :=
  match l.stack.getLast? with
  | none => l
  | some b =>
    let stack := l.stack.dropLast
    let again : Fragment → Fragment := fun f =>
      match stack.find? fun e => contains e.mask f.mask && e.addr == f.pc with
      | some e => { f with state := .parked e.id }
      | none => { f with state := .ready }
    { l with
      stack := stack
      frags := l.frags.map fun x => (x.1, if x.2.state = .parked b.id then again x.2 else x.2) }

/-- Entries of the reconvergence stack (R121). -/
def stackDepth : Nat := 8

/-- An entry pushed for the current fragment (R121). -/
def LaneStream.push (l : LaneStream) (addr : Dword) : LaneStream :=
  let l := if l.stack.length ≥ stackDepth then l.dropBottom else l
  { l with stack := ⟨l.nextId, addr, l.frag.mask⟩ :: l.stack, nextId := l.nextId + 1 }

/-- RCV (R121). -/
def execRcv (w : LaneOps) (s : State) : Ans :=
  issueLane (.rcv w) (fun s => passes s.grp.stream.frag.mask) s fun s =>
    .done (s.upd fun g => g.setStream (g.stream.push (g.stream.frag.pc + BitVec.ofNat 64 (12 * w.imm.toNat))))

/-- LEND: the fragment parks; when all W threads stand there the block retires (R124). -/
def execLend (w : LaneOps) (s : State) : Ans :=
  issueLane (.lend w) (fun s => passes s.grp.stream.frag.mask) s fun s =>
    .jump (s.moveLane (passes s.grp.stream.frag.mask) fun l => l.setFrag l.cur { l.frag with state := .ended })

/-! ### GSET, QLOP, LNOP (R127) -/

/-- A source predicate in imm14: number at bit `lo`, negate bit above it. -/
def LaneOps.srcPred (w : LaneOps) (lo : Nat) (g : Group) (t : Nat) : Bool :=
  g.pred t (w.imm.toNat / 2 ^ lo % 16) != w.imm.getLsbD (lo + 4)

/-- ANY, ALL, NONE and SAME over the values in the active threads (R127, R132). -/
def vote (mode : Nat) (vs : List Bool) : Bool :=
  match mode with
  | 0 => vs.any id
  | 1 => vs.all id
  | 2 => !vs.any id
  | _ => vs.all id || !vs.any id

/-- GSET (R127): one issue slot, whatever its active set (R26). -/
def execGset (w : LaneOps) (s : State) : Ans :=
  issueLane (.gset w) (fun _ => 1) s fun s =>
    let vs := (s.active w).map fun t => LaneOps.srcPred w 4 s.grp t
    .done (s.upd fun g => g.resolve (BitVec.ofNat 4 w.imm.toNat) (vote (w.fn.toNat % 4) vs))

/-- QLOP (R127). -/
def execQlop (w : LaneOps) (s : State) : Ans :=
  aluLane (.qlop w) w s fun s t =>
    .bit (w.imm.getLsbD (2 * bitOf (s.grp.pred t w.va.toNat) + bitOf (s.grp.pred t w.vb.toNat)))

/-- LNOP (R127): no effect. It takes the issue slots that R29 gives a lane instruction, and none without an active thread (R26, log
67). -/
def execLnop (w : LaneOps) (s : State) : Ans := issueLane (.lnop w) (laneSlots w) s .done

/-! ### Cross-lane instructions (R128 to R135) -/

/-- Source thread of SHFL (R130). -/
def shflSource (mode width t : Nat) (b : Int) : Nat :=
  let m : Int → Nat := fun x => (x % width).toNat
  match mode with
  | 0 => m b
  | 1 => m (t + b)
  | 2 => t ^^^ m b
  | _ => m (b - t)

/-- SHFL's offset in thread `t` (R130). -/
def State.shflOffset (s : State) (w : LaneOps) (t : Nat) : Int :=
  if w.immForm then w.imm.toNat % 128 else (s.b32 w t).toInt

/-- SHFL (R130): the source thread need not be active (R128). -/
def execShfl (w : LaneOps) (s : State) : Ans :=
  issueLane (.shfl w) (laneSlots w) s fun s =>
    let ts := s.active w
    let src : Nat → Nat := fun t => shflSource (w.fn.toNat % 4) s.grp.w t (s.shflOffset w t)
    let offs := if w.immForm then [] else [(w.vb.toNat, 1)]
    let vals := (opdOf w.type).range w.va
    match ts.findSome? fun t => (s.regPoison t offs).orElse fun _ => s.regPoison (src t) vals with
    | some (c, info) => .trap c info s
    | none =>
      .done (s.putAll w.vd (ts.map fun t =>
        (t, if wideType w.type then .w64 (s.rdV64 (src t) w.va.toNat) else .w32 (s.rdV (src t) w.va.toNat))))

/-- A mask as the registers of R131. -/
def maskWords (width : Nat) (m : BitVec 128) : Out :=
  .words ((List.range (maskRegs width)).map fun k => BitVec.ofNat 32 (m.toNat / 2 ^ (32 * k)))

/-- BALLOT (R131). -/
def execBallot (w : LaneOps) (s : State) : Ans :=
  issueLane (.ballot w) (laneSlots w) s fun s =>
    let ts := s.active w
    let m := maskOf (ts.filter fun t => LaneOps.srcPred w 0 s.grp t)
    .done (s.putAll w.vd (ts.map fun t => (t, maskWords s.grp.w m)))

/-- VOTE (R132). -/
def execVote (w : LaneOps) (s : State) : Ans :=
  issueLane (.vote w) (laneSlots w) s fun s =>
    let ts := s.active w
    let v := vote (w.fn.toNat % 4) (ts.map fun t => LaneOps.srcPred w 0 s.grp t)
    .done (s.putAll w.vd (ts.map fun t => (t, .bit v)))

/-- An instruction whose results depend on the sources of every active thread: poisoned sources first, then the results. -/
def crossLane (i : Instr) (w : LaneOps) (s : State) (f : State → List Nat → State) : Ans :=
  issueLane i (laneSlots w) s fun s =>
    let ts := s.active w
    match s.firstPoison ts i.sources with
    | some (c, info) => .trap c info s
    | none => .done (f s ts)

/-- MATCH (R133). -/
def execVmatch (w : LaneOps) (s : State) : Ans :=
  crossLane (.vmatch w) w s fun s ts =>
    s.putAll w.vd (ts.map fun t =>
      (t, maskWords s.grp.w (maskOf (ts.filter fun u => s.aN w w.type u == s.aN w w.type t))))

/-- The value a thread contributes to a reduction (R134). -/
def contribution (op x : Nat) : Nat := if op = 6 then bitOf (x != 0) else x

/-- Two partial results combined (R134). -/
def combine (op : Nat) (type : BitVec 4) (a b : Nat) : Nat :=
  let n := typeBits type
  let less := if signedType type then decide (elementInt type a < elementInt type b) else decide (a < b)
  if type = 10 then
    match op with
    | 0 => fmtF32.add .rne a b
    | 1 => fmtF32.minMax false a b
    | _ => fmtF32.minMax true a b
  else
    match op with
    | 1 => if less then a else b
    | 2 => if less then b else a
    | 3 => a &&& b
    | 4 => a ||| b
    | 5 => a ^^^ b
    | _ => (a + b) % 2 ^ n

/-- The identity of .EXCL (R134). -/
def reduceIdentity (op : Nat) (type : BitVec 4) : Nat :=
  let n := typeBits type
  match op with
  | 1 => if type = 10 then fmtF32.inf else if signedType type then 2 ^ (n - 1) - 1 else 2 ^ n - 1
  | 2 => if type = 10 then fmtF32.pack true fmtF32.inf else if signedType type then 2 ^ (n - 1) else 0
  | 3 => 2 ^ n - 1
  | _ => 0

/-- Running reductions in ascending lane order: for each thread the partial result before it and with it (R134). -/
def scan (op : Nat) (type : BitVec 4) : Option Nat → List (Nat × Nat) → List (Nat × Option Nat × Nat)
  | _, [] => []
  | acc, (t, x) :: rest =>
    let v := contribution op x
    let y := match acc with
      | none => v
      | some a => combine op type a v
    (t, acc, y) :: scan op type (some y) rest

/-- A typed result. -/
def typedOut (type : BitVec 4) (x : Nat) : Out :=
  if wideType type then .w64 (BitVec.ofNat 64 x) else .w32 (BitVec.ofNat 32 x)

/-- REDUX (R134). -/
def execRedux (w : LaneOps) (s : State) : Ans :=
  crossLane (.redux w) w s fun s ts =>
    match (scan (w.fn.toNat % 8) w.type none (ts.map fun t => (t, s.aN w w.type t))).getLast? with
    | some (_, _, total) => s.putAll w.vd (ts.map fun t => (t, typedOut w.type total))
    | none => s

/-- PSUM (R134). -/
def execPsum (w : LaneOps) (s : State) : Ans :=
  crossLane (.psum w) w s fun s ts =>
    let op := w.fn.toNat % 8
    s.putAll w.vd ((scan op w.type none (ts.map fun t => (t, s.aN w w.type t))).map fun x =>
      (x.1, typedOut w.type (if w.fn.getLsbD 3 then x.2.1.getD (reduceIdentity op w.type) else x.2.2)))

/-- VTOS (R67, R135): the value of the lowest active thread. -/
def execVtos (w : LaneOps) (s : State) : Ans :=
  issueLane (.vtos w) (laneSlots w) s fun s =>
    match s.active w with
    | [] => .done s
    | t :: _ =>
      match s.regPoison t (Instr.vtos w).sources with
      | some (c, info) => .trap c info s
      | none =>
        .done (s.upd fun g =>
          if wideType w.type then g.wrPair w.vd.toNat (s.a64 w t) else g.wrS w.vd.toNat (s.a32 w t))

end Sys2Proof.Machine
end

