-- ==== Sys2Proof/Machine/LaneMem.lean ====
section
/-!
DEFINITION. Memory instructions of the lane stream (R176 to R184): every active thread's checks first, then the accesses of
all of them.
-/
namespace Sys2Proof.Machine

/-! ### Operands and checks (R177, R178, R184) -/

/-- Effective value of a lane memory operand (R178). -/
def State.address (s : State) (w : LaneOps) (disp : Dword) (t : Nat) : Dword :=
  let base := if w.nb then (s.a32 w t).setWidth 64 else s.a64 w t
  base + (if w.ix then sext (s.b32 w t) * BitVec.ofNat 64 (2 ^ w.scale) else 0) + disp

/-- Threads of the active set that have not finished the instruction (R153, R184). -/
def State.unmarked (s : State) (w : LaneOps) : List Nat := (s.active w).filter fun t => !(s.grp.thread t).mark

/-- A thread's bit of a free value: where one thread stops, any subset of the others may have finished (R153, R184, log 5). -/
def State.drawn (s : State) (t : Nat) : Bool := (Config.freeWord (s.free + t / 64)).getLsbD (t % 64)
/-- The free value is used up. -/
def State.spend (s : State) : State := { s with free := s.free + 2 }
/-- Threads have finished the instruction (R153). -/
def State.finished (s : State) (ts : List Nat) : State :=
  ts.foldl (fun (s : State) t => s.upd fun g => g.setThread t { g.thread t with mark := true }) s

/-- An address on a VIEW page whose mapping permits the access: it takes no store and no atomic (R290). One that the mapping does not
permit meets its translation fault when the access is made. -/
def State.onView (s : State) (space access : Nat) (e : Dword) : Bool :=
  space == 0 && (match s.xlate s.grp e access with
    | .ok pa _ => isView pa
    | .fault _ => false)

/-- The checks of one access before any thread's is made (R184, R189); `bare` gives the access code of one that a VIEW page turns
away. -/
def State.checkThread (s : State) (space size : Nat) (write : Bool) (bare : Option Nat) (e : Dword) : Except (Nat × Dword) Target :=
  let turned := bare.any fun access => s.onView space access e
  match s.checkAccess space e size write with
  | .error x => .error (if x.1 == cRANGELOCK && turned then (cPROT, e) else x)
  | .ok t => if turned then .error (cPROT, e) else .ok t

/-- The checks of every given thread: the first cause by R189, or the targets. -/
def State.checkThreads (s : State) (space size : Nat) (write : Bool) (bare : Option Nat) (addr : Nat → Dword) (ts : List Nat) :
    Except (Nat × Dword) (List (Nat × Target)) :=
  let rs := ts.map fun t => (t, s.checkThread space size write bare (addr t))
  match firstCause (rs.filterMap fun r =>
    match r.2 with
    | .error x => some x
    | .ok _ => none) with
  | some x => .error x
  | none => .ok (rs.filterMap fun r =>
      match r.2 with
      | .error _ => none
      | .ok tg => some (r.1, tg))

/-! ### The window's bytes (R34) -/

/-- Bytes of the window that hold registers of a thread. -/
def Group.regBytes (g : Group) (t : Nat) (r : Nat × Nat) : Nat × Nat := ((t * g.n + r.1) * 4, 4 * r.2)

/-- A thread's access of the window meets bytes of the list. -/
def meetsAny (e : Dword) (size : Nat) (bs : List (Nat × Nat)) : Bool :=
  bs.any fun b => decide (b.1 < e.toNat + size) && decide (e.toNat < b.1 + b.2)

/-- Bytes of the window that matrix operations of the group will write. -/
def Group.matrixBytes (g : Group) (ops : List MatOp) : List (Nat × Nat) :=
  (ops.filter fun m => !m.inHandler).flatMap fun m => m.regsOut.flatMap fun r => (List.range g.w).map fun t => g.regBytes t r

/-- Bytes of the window that accesses on their way will write (R118); those of a handler's go to its understudy. -/
def State.loadingBytes (s : State) : List (Nat × Nat) :=
  let g := s.grp
  if g.handler.isSome then [] else s.lateDests.flatMap fun d => (threadsOf d.1).map fun t => g.regBytes t d.2

/-- A WINDOW access waits for the registers among its bytes that a result still to come will write (R34); the open batch closes
as it does for a named register (R244). -/
def State.windowStall (s : State) (w : LaneOps) (size : Nat) : Option State :=
  let g := s.grp
  let meets := fun bs => (s.unmarked w).any fun t => meetsAny (s.address w (sext w.imm) t) size bs
  if w.space ≠ 2 then none
  else if meets (g.matrixBytes g.openOps) then some ((s.setGrp g.closeOpen).waitLane .scoreboard)
  else if meets (g.matrixBytes (g.batches.flatMap fun b => b.ops)) || meets s.loadingBytes then some (s.waitLane .scoreboard)
  else none

/-- A memory instruction issued: without an active thread it does nothing (R26, R31). -/
def memLane (i : Instr) (w : LaneOps) (size : Nat) (s : State) (body : State → Res) : Ans :=
  issueLane i (laneSlots w) s fun s =>
    if (s.active w).isEmpty then .done s
    else
      match s.windowStall w size with
      | some s => .stay s
      | none => body s

/-! ### Loads of several threads -/

/-- What the loads of all threads come to: what the threads whose loads are made brought; whether the others wait for the L1, for lines
that it lacks; and why a thread stops. -/
structure Loads where
  got : List (Nat × Nat × List Tag)
  /-- Threads whose loads are on their way. -/
  rest : List (Nat × Target)
  lines : List Nat
  fault : Option (Dword × Nat)
  poison : Option Dword
deriving DecidableEq, Repr, Inhabited

/-- One thread's load: a translation fault comes before a poisoned source register or word (R189). -/
def State.loadThread (s : State) (i : Instr) (n : Nat) (a : Nat × Target) : LoadRes :=
  match s.loadAt s.grp a.2 n with
  | .fault k => .fault k
  | r =>
    match s.regPoison a.1 i.sources with
    | some (_, info) => .poison info
    | none => r

/-- It stops its thread (R184). -/
def LoadRes.stops (r : LoadRes) : Bool :=
  match r with
  | .fault _ => true
  | .poison _ => true
  | _ => false

/-- The loads of all threads together. Beside a thread that stops, those drawn load (R184, log 5). -/
def State.loads (s : State) (i : Instr) (n : Nat) (acc : List (Nat × Target)) : Loads :=
  let rs := acc.map fun a => (a, s.loadThread i n a)
  let go := if rs.any fun r => r.2.stops then rs.filter fun r => !r.2.stops && s.drawn r.1.1 else rs
  { got := go.filterMap fun r => match r.2 with | .ok v ts => some (r.1.1, v, ts) | _ => none
    rest := (go.filter fun r => match r.2 with | .miss _ => true | .wait => true | _ => false).map (·.1)
    lines := (go.filterMap fun r => match r.2 with | .miss l => some l | _ => none).eraseDups
    fault := rs.findSome? fun r => match r.2 with | .fault k => some (r.1.2.e, k) | _ => none
    poison := rs.findSome? fun r => match r.2 with | .poison x => some x | _ => none }

/-- The lane stream waits. -/
def State.holdLane (s : State) (w : Wait) : Res := .stay (s.waitLane w)

/-- What a stream that waits for an access waits for: nothing passes an ordered one (R179). -/
def accessWait (ordered : Bool) : Wait := if ordered then .acquire else .load

/-- The lines that loads lack asked for. -/
def State.fetchAll (s : State) (lines : List Nat) (ordered : Bool) (scope : Nat) : State :=
  lines.foldl (fun s l => s.fetchLine s.cur l ordered scope true) s

/-- The threads of a lane load with its results written, `out` of the bytes and the tag that each brought (R31). -/
def State.loaded (s : State) (w : LaneOps) (out : Nat → Tag → Out) (vs : List (Nat × Nat × List Tag)) : State :=
  s.putAll w.vd (vs.flatMap fun x => (s.receivers w x.1).map fun r => (r, out x.2.1 (x.2.2.headD 0)))

/-- Where a thread of a load stops, the others that have finished are marked; with none, the continuation. -/
def Loads.settle (r : Loads) (s : State) (k : State → Res) : Res :=
  let partly := (s.finished (r.got.map (·.1))).spend
  match r.fault, r.poison with
  | some (e, kind), _ => .park e kind aRead partly
  | none, some x => .trap cPOISON x partly
  | none, none => k s

/-- Loads of an acquire: the instruction waits until every thread's is made (R179), then goes on. -/
def orderedLoads (s : State) (i : Instr) (w : LaneOps) (n : Nat) (acc : List (Nat × Target)) (scope : Nat) (out : Nat → Tag → Out)
    (k : State → Res) : Res :=
  let r := s.loads i n acc
  if !r.rest.isEmpty then .stay ((s.fetchAll r.lines true scope).waitLane .acquire)
  else r.settle (s.loaded w out r.got) k

/-- One access of a thread to a checked target, on its way; an address of GLOBAL space is translated once. -/
def State.accOf (s : State) (w : LaneOps) (access : Nat) (a : Nat × Target) : Option Acc :=
  let acc := fun (at_ : Nat) (tagged : Bool) =>
    some { thread := a.1, space := a.2.space, core := a.2.core, at_ := at_, e := a.2.e, tagged := tagged
           takers := maskOf (s.receivers w a.1), value := 0, atom := none : Acc }
  if a.2.space = 0 then
    match s.xlate s.grp a.2.e access with
    | .fault _ => none
    | .ok pa tagged => acc pa tagged
  else acc a.2.at_ true

/-- Accesses of the lane stream's instruction on their way, while the stream goes on (R118). -/
def State.pendLane (s : State) (i : Instr) (accs : List Acc) : State :=
  let l := s.grp.stream
  s.pend { id := 0, scalar := false, inHandler := s.grp.handler.isSome, instr := i, pc := l.frag.pc, frag := l.cur, accs := accs, sent := none }

/-- Relaxed loads: what the L1 holds is written at once; the other threads' loads are on their way, and the registers are held until they
are made (R71, R118). Beside a thread that stops, those have not finished. -/
def relaxedLoads (s : State) (i : Instr) (w : LaneOps) (n : Nat) (acc : List (Nat × Target)) (out : Nat → Tag → Out) : Res :=
  let r := s.loads i n acc
  r.settle (s.loaded w out r.got) fun t => .done ((t.fetchAll r.lines false 0).pendLane i (r.rest.filterMap (s.accOf w aRead)))

/-- An acquire of the lane stream, then the end of the instruction (R179, R283). -/
def acquireLane (s : State) (scope : Nat) : Res :=
  match s.acquire scope true with
  | .done s => .done s
  | .wait s => .stay (s.waitLane .acquire)
  | .trap c i s => .trap c i s

/-- A release of the lane stream, then the continuation (R179). -/
def releaseLane (s : State) (scope : Nat) (k : State → Res) (full : Bool := false) : Res :=
  match s.release scope true full with
  | .done s => k s
  | .wait s => .stay (s.waitLane .release)
  | .trap c i s => .trap c i s

/-! ### Stores of several threads -/

/-- Stores of all threads, ascending, so that the highest thread's byte remains (R180). -/
def State.stores (s : State) (n : Nat) (mode : TagMode) (store : State → Target → Nat → Nat → TagMode → StoreRes) :
    List (Target × Nat) → StoreRes
  | [] => .ok s
  | (t, v) :: rest =>
    match store s t n v mode with
    | .ok s => s.stores n mode store rest
    | r => r

/-- Stores of all threads, where none meets a translation fault, a poisoned source register or a crossbar error; beside a thread that
does, those of the threads drawn (R184, R189, R275, log 5). -/
def withStores (s : State) (i : Instr) (acc : List (Nat × Target)) (glob : Bool) (probe : Target → StoreRes)
    (run : List (Nat × Target) → StoreRes) : Res :=
  let fault := fun (a : Nat × Target) => match probe a.2 with | .fault k => some (a.2.e, k) | _ => none
  let poison := fun (a : Nat × Target) => match probe a.2 with | .trap c x => some (c, x) | _ => s.regPoison a.1 i.sources
  let go := acc.filter fun a => (fault a).isNone && (poison a).isNone
  let go := if go.length = acc.length then go else go.filter fun a => s.drawn a.1
  match run go with
  | .ok s' =>
    let s' := if glob && !go.isEmpty then s'.setEffect else s'
    let partly := (s'.finished (go.map (·.1))).spend
    match acc.findSome? fault, acc.findSome? poison with
    | some (e, k), _ => .park e k aWrite partly
    | none, some (c, x) => .trap c x partly
    | none, none => .done s'
  | .fault k => .park 0 k aWrite s
  | .trap c x => .trap c x s
  | .wait => s.holdLane .store

/-! ### LD, ST, LDV, STV (R177 to R181) -/

/-- A loaded value in its register (R178). -/
def loadedOut (type : BitVec 4) (v : Nat) : Out :=
  match type.toNat with
  | 0 => .w32 ((BitVec.ofNat 8 v).signExtend 32)
  | 1 => .w32 ((BitVec.ofNat 16 v).signExtend 32)
  | 3 | 7 => .w64 (BitVec.ofNat 64 v)
  | _ => .w32 (BitVec.ofNat 32 v)

/-- LD (R178, R179): with .ACQ the acquire follows the accesses. -/
def execLd (w : LaneOps) (s : State) : Ans :=
  memLane (.ld w) w (elemBytes w.type) s fun s =>
    let size := elemBytes w.type
    let scope := w.scope.toNat
    let loads : (List (Nat × Target) → Res) → State → Res := fun go s =>
      match s.checkThreads w.space size false none (s.address w (sext w.imm)) (s.unmarked w) with
      | .error (c, i) => .trap c i s
      | .ok acc => go acc
    if s.grp.acqL.isSome then acquireLane s scope
    else if w.order = 1 then
      withoutClampTrap s scope fun s =>
        loads (fun acc => orderedLoads s (.ld w) w size acc scope (fun v _ => loadedOut w.type v) fun s => acquireLane s scope) s
    else loads (fun acc => relaxedLoads s (.ld w) w size acc fun v _ => loadedOut w.type v) s

/-- ST (R178, R179): with .REL the release's conditions come first. -/
def execSt (w : LaneOps) (s : State) : Ans :=
  memLane (.st w) w (elemBytes w.type) s fun s =>
    let size := elemBytes w.type
    let mode : TagMode := if size = 8 then .keep else .set 0
    let data : Nat → Nat := fun t => s.cN w w.type t % 2 ^ (8 * size)
    match s.checkThreads w.space size true (some aWrite) (s.address w (sext w.imm)) (s.unmarked w) with
    | .error (c, i) => .trap c i s
    | .ok acc =>
      let store := fun (f : State → Target → Nat → Nat → TagMode → StoreRes) (s : State) =>
        withStores s (.st w) acc (w.space == 0) (fun t => f s t size 0 mode) fun xs =>
          s.stores size mode f (xs.map fun a => (a.2, data a.1))
      if w.order = 2 then releaseLane s w.scope.toNat (store fun s t n v m => releasingStore s t w.scope.toNat n v m)
      else store (fun s t n v m => s.storeAt t n v m) s

/-- Words of a value of several registers. -/
def wordsOf (count v : Nat) : List Word := (List.range count).map fun k => BitVec.ofNat 32 (v / 2 ^ (32 * k))

/-- LDV (R181). -/
def execLdv (w : LaneOps) (s : State) : Ans :=
  memLane (.ldv w) w (4 * w.vcount) s fun s =>
    match s.checkThreads w.space (4 * w.vcount) false none (s.address w (sext w.imm)) (s.unmarked w) with
    | .error (c, i) => .trap c i s
    | .ok acc => relaxedLoads s (.ldv w) w (4 * w.vcount) acc fun v _ => .words (wordsOf w.vcount v)

/-- Registers of a thread as one value. -/
def State.regsValue (s : State) (t r count : Nat) : Nat :=
  (List.range count).foldl (fun v k => v + (s.rdV t (r + k)).toNat * 2 ^ (32 * k)) 0

/-- STV (R181). -/
def execStv (w : LaneOps) (s : State) : Ans :=
  memLane (.stv w) w (4 * w.vcount) s fun s =>
    match s.checkThreads w.space (4 * w.vcount) true (some aWrite) (s.address w (sext w.imm)) (s.unmarked w) with
    | .error (c, i) => .trap c i s
    | .ok acc =>
      let n := 4 * w.vcount
      withStores s (.stv w) acc (w.space == 0) (fun t => s.storeAt t n 0 .keep) fun xs =>
        s.stores n .keep (fun s t n v m => s.storeAt t n v m) (xs.map fun a => (a.2, s.regsValue a.1 w.vc.toNat w.vcount))

/-! ### PREF and CWB (R182, R183) -/

/-- Physical lines named by the active threads, those of failed or locked accesses left out. PREF moves no datum of a size, so no
address is misaligned for it (R182, log 63). -/
def State.namedLines (s : State) (i : Instr) (w : LaneOps) (locked : Bool) : List Nat :=
  ((s.active w).filterMap fun t =>
    let e := s.address w (sext w.imm) t
    let lock := locked && (s.checkLock s.grp ⟨0, s.grp.core, e.toNat, e⟩ 1 false).isSome
    if (s.regPoison t i.sources).isSome || !canonical e || lock then none
    else
      match s.xlate s.grp e aRead with
      | .ok pa _ => if isView pa then none else some (pa / 128)
      | .fault _ => none).eraseDups

/-- The L1 of the executing group is sweeping (R284). -/
def State.sweepingHere (s : State) : Bool := (s.l1 (s.l1Of s.grp.core)).sweeping

/-- A line asked into the L1 by a prefetch alone (R182). -/
def State.prefetchLine (s : State) (line : Nat) : State :=
  if s.readPending s.cur (s.l1Of s.grp.core) line false true then s
  else
    let (id, s) := s.post s.cur line .read false 0 true
    s.setReq id ((s.req? id).map fun r => { r with prefetch := true })

/-- PREF (R182): line requests, and nothing else. -/
def execPref (w : LaneOps) (s : State) : Ans :=
  issueLane (.pref w) (laneSlots w) s fun s =>
    let ask : State → Nat → State := fun s line =>
      if w.fn.getLsbD 6 then (s.post s.cur line .prefetch false 0 true).2 else s.prefetchLine line
    if s.sweepingHere then s.holdLane .load
    else .done ((s.namedLines (.pref w) w true).foldl ask s)

/-- A line's dirty bytes written back for the executing group (R183): what groups have not sent leaves as their own requests; where
the executing group has none among them, a request of its own without bytes follows, and its acknowledgement tells that the
bytes are home (R45). -/
def State.writeBack (s : State) (k line : Nat) : State :=
  match (s.l1 k).lines.get none line with
  | none => s
  | some x =>
    if x.pinned then s.unpin k line s.cur
    else if x.dirty = 0 then s
    else
      let s := s.sendLine k line
      if x.unsent.get 0 s.cur ≠ 0 then s
      else ((s.post s.cur line (.write x.data 0 x.tags 0 false) false 0 true).2).upd fun g => { g with unack := g.unack + 1 }

/-- A line's copy dropped. -/
def State.dropLine (s : State) (k line : Nat) : State :=
  let l := s.l1 k
  s.setL1 k { l with lines := l.lines.set none line none }

/-- CWB (R183). -/
def execCwb (w : LaneOps) (s : State) : Ans :=
  issueLane (.cwb w) (laneSlots w) s fun s =>
    match s.firstPoison (s.active w) (Instr.cwb w).sources with
    | some (c, info) => .trap c info s
    | none =>
      let lines := s.namedLines (.cwb w) w false
      if s.sweepingHere then s.holdLane .load
      else if s.grp.unack + lines.length + (s.l1 (s.l1Of s.grp.core)).pins.length > unackMax then s.holdLane .store
      else
        let one : State → Nat → State := fun s line =>
          let k := s.l1Of s.grp.core
          let s := s.writeBack k line
          if w.fn.getLsbD 6 then s.dropLine k line else s
        .done (lines.foldl one s)

end Sys2Proof.Machine
end

