-- ==== Sys2Proof/Machine/Exchange.lean ====
section
/-!
DEFINITION. XCHG, the exchange of registers between groups of two clusters (R269, R270).
-/
namespace Sys2Proof.Machine

/-- An operation made for another group. -/
def State.within (s : State) (k : Nat) (f : State → State) : State :=
  let c := s.cur
  { f { s with cur := k } with cur := c }

/-- One side of an exchange as it stands: the group, its operands and its active threads. -/
structure XchgSide where
  group : Nat
  ops : LaneOps
  active : List Nat
deriving DecidableEq, Repr, Inhabited

/-- The side of a group with given operands. -/
def State.xchgSide (s : State) (k : Nat) (w : LaneOps) : XchgSide := ⟨k, w, State.active { s with cur := k } w⟩

/-- Registers moved (R269). -/
def LaneOps.xchgCount (w : LaneOps) : Nat := 2 ^ (w.fn.toNat / 64)

/-- Wait code 3, .NOWAIT. -/
def LaneOps.noWait (w : LaneOps) : Bool := w.imm.toNat / 4096 == 3

/-- What thread `i` of a side receives: words, with pair tags where whole even pairs move (R269, log 21). -/
def State.xchgValue (s : State) (dst : XchgSide) (src : XchgSide) (i : Nat) : List Word × Option (List Tag) :=
  let n := LaneOps.xchgCount dst.ops
  let g := s.group src.group
  let va := src.ops.va.toNat
  let words := (List.range n).map fun k => s.rdVOf g i (va + k)
  let whole := n % 2 == 0 && va % 2 == 0 && dst.ops.vd.toNat % 2 == 0
  (words, if whole then some ((List.range (n / 2)).map fun k => s.tagOf g i (va + 2 * k)) else none)

/-- Those words written to a thread of the executing group. -/
def State.putMoved (s : State) (w : LaneOps) (i : Nat) (v : List Word × Option (List Tag)) : State :=
  let s := s.putWords i w.vd.toNat v.1
  match v.2 with
  | none => s
  | some ts => (ts.foldl (fun (p : State × Nat) t => (p.1.setTag i (w.vd.toNat + 2 * p.2) t, p.2 + 1)) (s, 0)).1

/-- The status register of every active thread of a side (R269). -/
def State.putStatus (s : State) (x : XchgSide) (st : Word) : State :=
  s.within x.group fun s => x.active.foldl (fun s i => s.wrV i x.ops.vc.toNat st) s

/-- The status of a match (R269). -/
def xchgStatus (wa wb : Nat) (a b : LaneOps) : Word :=
  if wa ≠ wb then 2 else if LaneOps.xchgCount a ≠ LaneOps.xchgCount b then 3 else 0

/-- Both sides of a match resolved at one instant (R269). -/
def State.exchange (s : State) (a b : XchgSide) : State :=
  let st := xchgStatus (s.group a.group).w (s.group b.group).w a.ops b.ops
  let s :=
    if st = 0 then
      let moved : XchgSide → XchgSide → List (Nat × List Word × Option (List Tag)) := fun x y =>
        x.active.map fun i => (i, s.xchgValue x (if y.active.contains i then y else x) i)
      let ma := moved a b
      let mb := moved b a
      let write : State → XchgSide → List (Nat × List Word × Option (List Tag)) → State := fun s x m =>
        s.within x.group fun s => (m.foldl (fun s v => s.putMoved x.ops v.1 v.2) s).setEffect
      write (write s a ma) b mb
    else s
  (s.putStatus a st).putStatus b st

/-- The oldest waiter that a group's XCHG matches: same launch and tag, another cluster (R269). -/
def State.xchgPartner (s : State) (tag : BitVec 12) : Option (Nat × XchgWait) :=
  let g := s.grp
  s.groups.foldl (fun best x =>
    match x.2.xchg with
    | none => best
    | some f =>
      if x.2.life != .resident || x.2.launch != g.launch || clusterOfCore x.2.core == clusterOfCore g.core || f.tag != tag then
        best
      else
        match best with
        | none => some (x.1, f)
        | some (_, b) => if f.arrival < b.arrival then some (x.1, f) else best) none

/-- A waiting group's XCHG completes: the wait ends and its lane stream passes the instruction. -/
def State.leaveXchg (s : State) (k : Nat) (w : LaneOps) : State :=
  s.within k fun s =>
    let slots := laneSlots w s
    (s.upd fun g => { g with xchg := none }).passLane slots

/-- XCHG (R269); without an active thread it does nothing (R26). -/
def execXchg (w : LaneOps) (s : State) : Ans :=
  issueLane (.xchg w) (laneSlots w) s fun s =>
    if (s.active w).isEmpty then .done s
    else if s.grp.xchg.isSome then s.holdLane .xchg
    else
      let me := s.xchgSide s.cur w
      match s.firstPoison me.active (Instr.xchg w).sources with
      | some (c, info) => .trap c info s
      | none =>
        match s.xchgPartner (w.imm.setWidth 12) with
        | some (k, f) => .done ((s.exchange me (s.xchgSide k f.ops)).leaveXchg k f.ops)
        | none =>
          if LaneOps.noWait w then .done (s.putStatus me 1)
          else
            let (n, s) := s.take
            (s.upd fun g => { g with xchg := some ⟨w.imm.setWidth 12, n, g.stream.cur, w⟩ }).holdLane .xchg

end Sys2Proof.Machine
end

