-- ==== Sys2Proof/Machine/LaneAtomic.lean ====
section
/-!
DEFINITION. Atomics of the lane stream (R298 to R313): checks of every active thread, then one step per thread at its site.
A GLOBAL atomic is sent to its home. One with an acquire completes when every thread's step has been performed; the stream goes on past
another, whose registers are held until its steps are (R118).
-/
namespace Sys2Proof.Machine

/-- How an atomic instruction is performed: form and operation of `AtomReq`. -/
structure AtomKind where
  form : Nat
  op : Nat
  /-- A result is written to vd. -/
  result : Bool
  /-- It is a write for R45 and R46. -/
  writes : Bool
deriving DecidableEq, Repr, Inhabited

/-- Displacement imm14[9:0] (R299). -/
def LaneOps.atomDisp (w : LaneOps) : Dword := (w.imm.setWidth 10).signExtend 64

/-- An atomic with an acquire, which its instruction waits for (R302). -/
def LaneOps.acquires (w : LaneOps) : Bool := w.order == 1 || w.order == 3

/-- The request of thread `t` for a translated word (R302). -/
def State.atomReq (s : State) (w : LaneOps) (k : AtomKind) (t pa : Nat) (tagged late : Bool) (va : Dword) : AtomReq :=
  { thread := t, pa := pa, size := elemBytes w.type, form := k.form, op := k.op, type := w.type
    operand := ⟨BitVec.ofNat 64 (s.cN w w.type t), 0⟩, own := ⟨BitVec.ofNat 64 (s.cN w w.type t), 0⟩
    expect := ⟨if wideType w.type then s.rdV64 t w.vd.toNat else (s.rdV t w.vd.toNat).setWidth 64, 0⟩
    dest := if k.result then some w.vd.toNat else none
    scalar := false, takers := maskOf (s.receivers w t), counted := k.writes && w.use != 1 && w.use != 2
    use := w.use.toNat, tagged := tagged, late := late, frag := s.grp.stream.cur, pc := s.grp.stream.frag.pc
    va := va, inHandler := s.grp.handler.isSome, seen := [] }

/-- The first address that two threads name (R304), that of the lowest thread. -/
def sameAddress (es : List Dword) : Option Dword :=
  (es.zipIdx.find? fun x => es.zipIdx.any fun y => x.2 != y.2 && x.1 == y.1).map (·.1)

/-- An old value as a result (R302); SCOND's status is 32 bits (R300). -/
def atomOut (type : BitVec 4) (form v : Nat) : Out := if form = 3 then .w32 (BitVec.ofNat 32 v) else typedOut type v

/-- A thread has finished the instruction (R153). -/
def Group.markThread (g : Group) (t : Nat) : Group := g.setThread t { g.thread t with mark := true, done := [] }

/-- The steps of threads at their scratch ALUs, with their results written (R298, R312). -/
def State.scratchSteps (s : State) (w : LaneOps) (k : AtomKind) (acc : List (Nat × Target)) : State :=
  let r := acc.foldl (fun (p : State × List (Nat × Out)) a =>
    let (o, s') := p.1.atomAtScratch a.2 (s.atomReq w k a.1 0 true false a.2.e)
    (s', if k.result then p.2 ++ ((s.receivers w a.1).map fun u => (u, typedOut w.type o.old)) else p.2)) (s, [])
  if acc.isEmpty then r.1 else (r.1.putAll w.vd r.2).setEffect

/-- POISON of a thread's step on scratchpad: a source register of it, a crossbar error (R275), or its word. -/
def State.scratchPoison (s : State) (i : Instr) (a : Nat × Target) : Option Dword :=
  match ((s.regPoison a.1 i.sources).map (·.2)).orElse fun _ => s.aperturePoison s.grp a.2 with
  | some info => some info
  | none => if (s.core a.2.core).scratchTags.get 0 (a.2.at_ / 8) = tagPOI then some (poisonInfo a.2.space a.2.e) else none

/-- A use that lets an atomic take effect after later accesses, or become visible after a later release (R307). -/
def LaneOps.mayLag (w : LaneOps) : Bool := w.use == 1 || w.use == 2 || w.use == 3

/-- Steps on scratchpad that are still to come, by a free bit, where the use allows it (R307). -/
def State.scratchLater (s : State) (i : Instr) (w : LaneOps) (k : AtomKind) (acc : List (Nat × Target)) : State :=
  s.pendLane i (acc.map fun a =>
    { thread := a.1, space := a.2.space, core := a.2.core, at_ := a.2.at_, e := a.2.e, tagged := true
      takers := maskOf (s.receivers w a.1), value := 0, atom := some (s.atomReq w k a.1 0 true true a.2.e) })

/-- A thread's scratchpad place is one where an earlier access of the group is still to come (R180). -/
def State.scratchHeld (s : State) (w : LaneOps) (acc : List (Nat × Target)) : Bool :=
  w.use != 3 && acc.any fun a => heldAt s.grp.accesses (1 + a.2.core, a.2.at_ / 128)

/-- Atomics on scratchpad; beside a thread that meets poison, those drawn take their step (R184, log 5). -/
def State.scratchAtomics (s : State) (i : Instr) (w : LaneOps) (k : AtomKind) (acc : List (Nat × Target)) :
    Except (Dword × State) State :=
  match acc.findSome? (s.scratchPoison i) with
  | some info =>
    let go := acc.filter fun a => (s.scratchPoison i a).isNone && s.drawn a.1
    .error (info, ((s.scratchSteps w k go).finished (go.map (·.1))).spend)
  | none =>
    if !LaneOps.mayLag w then .ok (s.scratchSteps w k acc)
    else
      let t := { s with free := s.free + 1 }
      .ok (if (Config.freeWord s.free).getLsbD 0 then t.scratchLater i w k acc else t.scratchSteps w k acc)

/-- A GLOBAL step that may be sent: thread, address, physical address, whether the page keeps tags. -/
structure Site where
  thread : Nat
  e : Dword
  pa : Nat
  tagged : Bool
deriving DecidableEq, Repr, Inhabited

/-- What a thread's GLOBAL atomic comes to before it is sent: a translation fault, a poisoned source register, or its site
(R184, R189, R196). -/
inductive Sent where
  | fault (e : Dword) (kind : Nat)
  | poison (info : Dword)
  | site (x : Site)
deriving DecidableEq, Repr, Inhabited

/-- A thread's GLOBAL atomic translated. -/
def State.siteOf (s : State) (i : Instr) (access : Nat) (a : Nat × Target) : Sent :=
  match s.xlate s.grp a.2.e access with
  | .fault k => .fault a.2.e k
  | .ok pa tagged =>
    match s.regPoison a.1 i.sources with
    | some (_, info) => .poison info
    | none => .site ⟨a.1, a.2.e, pa, tagged⟩

/-- The sites among them. -/
def sitesOf (xs : List Sent) : List Site :=
  xs.filterMap fun x => match x with
    | .site y => some y
    | _ => none

/-- The steps of GLOBAL atomics sent to their homes, in ascending thread order. Where two threads name one word through two aliases of it
the order of their steps is unspecified (R304); that it is this one is the model's choice (log 76). -/
def State.sendAtomics (s : State) (w : LaneOps) (k : AtomKind) (late : Bool) (sites : List Site) : State :=
  sites.foldl (fun (s : State) x =>
    let (id, s') := s.sendAtomic (s.atomReq w k x.thread x.pa x.tagged late x.e) (w.order != 0) w.scope.toNat
    s'.upd fun g => { g with reqs := g.reqs ++ [(id, x.thread)] }) s

/-- An atomic waits for earlier accesses of its group to the line that are still to come, and for an earlier atomic that its home may
refuse (R180, R287, R306); one declared .NOR does not (R307). -/
def State.sitesHeld (s : State) (w : LaneOps) (sites : List Site) : Bool :=
  let g := s.grp
  w.use != 3 && sites.any fun x =>
    heldAt g.accesses (0, x.pa / 128) || g.reqs.any fun r => (s.lateReq r).any fun y => y.1.line == x.pa / 128 && y.1.ordered

/-- Steps on their way that the instruction of the current fragment waits for. -/
def State.stepsOut (s : State) : Bool :=
  s.grp.reqs.any fun x => inMask s.grp.stream.frag.mask x.2 && (s.lateReq x).isNone

/-- The lowest thread of the current fragment whose word was poisoned (R188). -/
def State.metPoison (s : State) : Option Nat := s.fragThreads.find? fun t => s.grp.poisoned.contains t

/-- The trap of a thread that met a poisoned word. -/
def State.poisonTrap (s : State) (addr : Nat → Dword) (t : Nat) : Res :=
  let ts := s.fragThreads
  .trap cPOISON (poisonInfo 0 (addr t)) (s.upd fun g => { g with poisoned := g.poisoned.filter fun x => !ts.contains x })

/-- The access that a translation checks. -/
def AtomKind.access (k : AtomKind) : Nat := if k.form = 2 then aRead else aAtomic

/-- GLOBAL steps sent for every thread given; beside one that faults or reads poison, those drawn come first (R184, log 5). A
late instruction ends here, the others when every step has been performed. -/
def globalAtomics (i : Instr) (w : LaneOps) (k : AtomKind) (s : State) (acc : List (Nat × Target)) (ended : State → Res) : Res :=
  let xs := acc.map (s.siteOf i k.access)
  let sites := sitesOf xs
  let all := sites.length == xs.length
  let go := if all then sites else sites.filter fun x => s.drawn x.thread
  let stop : State → Res := fun t =>
    match xs.findSome? fun x => match x with | .fault e kind => some (e, kind) | _ => none,
          xs.findSome? fun x => match x with | .poison info => some info | _ => none with
    | some (e, kind), _ => .park e kind k.access t
    | none, some info => .trap cPOISON info t
    | none, none => .done t
  if s.grp.unack + go.length > unackMax || s.sitesHeld w go then s.holdLane .store
  else if go.isEmpty then (if all then ended s else stop s)
  else
    let t := s.sendAtomics w k (!LaneOps.acquires w) go
    let t := if all then t else t.spend
    if LaneOps.acquires w then .stay (t.waitLane .acquire)
    else if all then ended t
    else stop (t.finished (go.map (·.thread)))

/-- An atomic instruction (R302, R306, R313). The release comes before the first steps, once (R302). -/
def atomicLane (i : Instr) (w : LaneOps) (k : AtomKind) (s : State) : Ans :=
  issueLane i (laneSlots w) s fun s =>
    let scope := w.scope.toNat
    let acq := LaneOps.acquires w
    let rel := w.order == 2 || w.order == 3
    let addr := s.address w (LaneOps.atomDisp w)
    let ended : State → Res := fun s =>
      let t := s.upd fun g => { g with fellL := g.fellL && acq, lostL := false }
      if acq && !s.grp.lostL then acquireLane t scope else .done (t.upd fun g => { g with fellL := false })
    let ts := s.unmarked w
    if (s.active w).isEmpty then .done s
    else if s.grp.acqL.isSome then ended s
    else if s.stepsOut then s.holdLane .acquire
    else
      match s.metPoison with
      | some t => s.poisonTrap addr t
      | none =>
        let body : State → Res := fun s =>
          if ts.isEmpty then ended s
          else
            match s.checkThreads w.space (elemBytes w.type) k.writes (some k.access) addr ts with
            | .error (c, info) => .trap c info s
            | .ok acc =>
              match if k.form = 2 then none else sameAddress (acc.map fun a => a.2.e) with
              | some e => .trap cSAMEADDR e s
              | none =>
                let go : State → Res := fun s =>
                  if w.space = 0 then (if s.sweepingHere then s.holdLane .load else globalAtomics i w k s acc ended)
                  else if s.scratchHeld w acc then s.holdLane .store
                  else
                    match s.scratchAtomics i w k acc with
                    | .error (info, s) => .trap cPOISON info s
                    | .ok s => ended s
                if rel && ts.length == (s.active w).length then releaseLane s scope go (w.order == 3) else go s
        if acq then withoutClampTrap s scope body else body s

/-- How an instruction of this family is performed. -/
def atomicForm (i : Instr) : Option (LaneOps × AtomKind) :=
  match i with
  | .atom w => some (w, ⟨0, w.atomOp, true, true⟩)
  | .cas w => some (w, ⟨1, 6, true, true⟩)
  | .red w => some (w, ⟨0, w.atomOp, false, true⟩)
  | .fatom w => some (w, ⟨0, w.atomOp, true, true⟩)
  | _ => none

/-- A relaxed atomic issued ahead of the instruction that its stream stands at (R307): its steps are sent, or made on scratchpad, if no
thread's meets anything. -/
def earlyAtomic (i : Instr) (w : LaneOps) (k : AtomKind) (s : State) : Option State :=
  if (s.laneIllegal i).isSome || (s.scoreboard i).isSome || w.order != 0 then none
  else
    match s.checkThreads w.space (elemBytes w.type) k.writes (some k.access) (s.address w (LaneOps.atomDisp w)) (s.active w) with
    | .error _ => none
    | .ok acc =>
      let xs := acc.map (s.siteOf i k.access)
      let sites := sitesOf xs
      if (sameAddress (acc.map fun a => a.2.e)).isSome then none
      else if w.space = 0 then
        if s.sweepingHere || sites.length != xs.length || decide (s.grp.unack + sites.length > unackMax) || s.sitesHeld w sites then none
        else some (s.sendAtomics w k true sites)
      else if s.scratchHeld w acc || acc.any fun a => (s.scratchPoison i a).isSome then none
      else some (s.scratchSteps w k acc)

/-- ATOM (R301, R302). -/
def execAtom (w : LaneOps) (s : State) : Ans := atomicLane (.atom w) w ⟨0, w.atomOp, true, true⟩ s
/-- CAS: the expected value stands in vd (R302, R303). -/
def execCas (w : LaneOps) (s : State) : Ans := atomicLane (.cas w) w ⟨1, 6, true, true⟩ s
/-- RED (R302). -/
def execRed (w : LaneOps) (s : State) : Ans := atomicLane (.red w) w ⟨0, w.atomOp, false, true⟩ s
/-- FATOM (R301, R302). -/
def execFatom (w : LaneOps) (s : State) : Ans := atomicLane (.fatom w) w ⟨0, w.atomOp, true, true⟩ s
/-- LRES (R309). -/
def execLres (w : LaneOps) (s : State) : Ans := atomicLane (.lres w) w ⟨2, 0, true, false⟩ s
/-- SCOND (R310). -/
def execScond (w : LaneOps) (s : State) : Ans := atomicLane (.scond w) w ⟨3, 0, true, true⟩ s

end Sys2Proof.Machine
end

