-- ==== Sys2Proof/Machine/Terms.lean ====
section
/-!
DEFINITION. Operations of the term unit (R146 to R151, R153, R160 to R162): the steps of a thread, term words, wings, the trail,
dereferencing, binding and the steps of unification.
-/
namespace Sys2Proof.Machine

/-! ### Steps (R153) -/

/-- Why a thread's instruction stops short. -/
inductive Stop where
  | trap (cause : Nat) (info : Dword)
  | park (e : Dword) (kind access : Nat)
  /-- The L1 does not hold the line. -/
  | miss (line : Nat)
  | wait (w : Wait)
deriving DecidableEq, Repr, Inhabited

/-- A thread's instruction: the thread, and whether the instruction sets the effect bit (R154). -/
structure Runner where
  t : Nat
  effect : Bool
deriving DecidableEq, Repr, Inhabited

/-- Steps of a thread: from the state and the number of steps gone through, to the state, and a value with the number of steps or
the reason why the thread stops. A completed step stands in the thread's `done` with what it brought, and a reissue goes through it
without making it again. -/
def Act (α : Type) : Type := Runner → State → Nat → State × Except Stop (α × Nat)

/-- No step. -/
def Act.pure {α : Type} (a : α) : Act α := fun _ s k => (s, .ok (a, k))
/-- A step that cannot be made. -/
def Act.stop {α : Type} (x : Stop) : Act α := fun _ s _ => (s, .error x)
/-- A trap. -/
def Act.trap {α : Type} (cause : Nat) (info : Dword) : Act α := .stop (.trap cause info)

/-- One part after another. -/
def Act.bind {α β : Type} (x : Act α) (f : α → Act β) : Act β := fun c s k =>
  match x c s k with
  | (s, .ok (a, k)) => f a c s k
  | (s, .error e) => (s, .error e)

/-- The thread. -/
def Act.self : Act Nat := fun c s k => (s, .ok (c.t, k))
/-- A value of the state that no step of the instruction changes. -/
def Act.see {α : Type} (f : State → Nat → α) : Act α := fun c s k => (s, .ok (f s c.t, k))

/-- The executing group's thread. -/
def State.thr (s : State) (t : Nat) : Thread := s.grp.thread t
def State.setThr (s : State) (t : Nat) (x : Thread) : State := s.upd fun g => g.setThread t x

/-- A step completed. -/
def State.noteStep (s : State) (t : Nat) (v : TWord) : State := s.setThr t { s.thr t with done := (s.thr t).done ++ [v] }

/-- A step: what it brought before, or its performance now. -/
def Act.step (f : State → Nat → State × Except Stop TWord) (performs : Bool) : Act TWord := fun c s k =>
  match (s.thr c.t).done[k]? with
  | some v => (s, .ok (v, k + 1))
  | none =>
    match f s c.t with
    | (s, .ok v) =>
      let s := s.noteStep c.t v
      (if performs && c.effect then s.setEffect else s, .ok (v, k + 1))
    | (s, .error e) => (s, .error e)

/-- A value read from the thread's registers as a step. R153 does not say whether a handler's change of them after a trap of a later load
is seen: here the value first read stands, as a step that is complete, unless the thread stands as before its instruction (log 76). -/
def Act.note (f : State → Nat → Except Stop TWord) : Act TWord := .step (fun s t => (s, f s t)) false
/-- A load. -/
def Act.load (f : State → Nat → Except Stop TWord) : Act TWord := .step (fun s t => (s, f s t)) true

/-- A step that changes the state; a stopped one changes nothing. -/
def changeStep (f : State → Nat → Except Stop State) (s : State) (t : Nat) : State × Except Stop TWord :=
  match f s t with
  | .ok s => (s, .ok ⟨0, 0⟩)
  | .error e => (s, .error e)

/-- A store. -/
def Act.store (f : State → Nat → Except Stop State) : Act Unit :=
  (Act.step (changeStep f) true).bind fun _ => .pure ()
/-- A change of registers as a step. -/
def Act.change (f : State → Nat → State) : Act Unit :=
  (Act.step (changeStep fun s t => .ok (f s t)) false).bind fun _ => .pure ()

/-- The steps so far become one, with a last change: those after the first `keep` are forgotten. -/
def Act.commit (keep : Nat) (f : Thread → Thread) : Act Unit := fun c s _ =>
  (s.setThr c.t { f (s.thr c.t) with done := (s.thr c.t).done.take keep }, .ok ((), keep))

/-- A trap after which the thread begins the instruction afresh: nothing that it has read for it is kept. -/
def Act.afresh {α : Type} (cause : Nat) (info : Dword) : Act α := fun c s _ =>
  (s.setThr c.t { s.thr c.t with progress := 0, done := [] }, .error (.trap cause info))

/-- Tags of R144. -/
def tagVAR : Tag := 1
def tagREF : Tag := 2
def tagSTR : Tag := 3
def tagFUN : Tag := 4
def tagLST : Tag := 5

/-- TRAPINFO of R145 and R148: a code or tag and a thread. -/
def threadInfo (code t : Nat) : Dword := BitVec.ofNat 64 (code + 256 * t)

/-- PROT of R148. -/
def Act.misuse {α : Type} (code : Nat) : Act α := Act.self.bind fun t => .trap cPROT (threadInfo code t)

/-- The registers of the thread in the ranges hold no poison (R145, R204). -/
def Act.clean (ranges : List (Nat × Nat)) : Act Unit :=
  (Act.note fun s t =>
    match s.regPoison t ranges with
    | some (c, i) => .error (.trap c i)
    | none => .ok ⟨0, 0⟩).bind fun _ => .pure ()

/-! ### Term words (R146) -/

/-- A load as a step. -/
def gotLoad (e : Dword) (r : LoadRes) : Except Stop TWord :=
  match r with
  | .ok v ts => .ok ⟨BitVec.ofNat 64 v, ts.headD 0⟩
  | .miss l => .error (.miss l)
  | .fault k => .error (.park e k aRead)
  | .poison i => .error (.trap cPOISON i)
  | .wait => .error (.wait .load)

/-- An 8-byte load with its tag in a space (R146, R176). -/
def State.wordLoad (s : State) (space : Nat) (e : Dword) : Except Stop TWord :=
  match s.checkAccess space e 8 false with
  | .error (c, i) => .error (.trap c i)
  | .ok t => gotLoad e (s.loadAt s.grp t 8)

/-- An 8-byte store with its tag in a space. -/
def State.wordStore (s : State) (space : Nat) (e : Dword) (v : TWord) : Except Stop State :=
  match s.checkAccess space e 8 true with
  | .error (c, i) => .error (.trap c i)
  | .ok t =>
    match s.storeAt t 8 v.value.toNat (.word v.tag) with
    | .ok s => .ok s
    | .fault k => .error (.park e k aWrite)
    | .trap c i => .error (.trap c i)
    | .wait => .error (.wait .store)

/-- TermLoad and TermStore: GLOBAL, relaxed. -/
def Act.termLoad (a : Dword) : Act TWord := .load fun s _ => s.wordLoad 0 a
def Act.termStore (a : Dword) (v : TWord) : Act Unit := .store fun s _ => s.wordStore 0 a v

/-- InShared (R160). -/
def State.inShared (s : State) (a : Dword) : Bool := decide (s.cap.termBase ≤ a) && decide (a < s.cap.termLim)

/-! ### The wings (R149) -/

/-- K as the block captured it. -/
def State.wingK (s : State) : Nat := s.cap.wingSize.toNat % 16

/-- SCRATCH byte of entry `k` of thread `t`. -/
def State.wingAt (s : State) (t k : Nat) : Dword :=
  BitVec.ofNat 64 (s.cap.wingBase.toNat / 16 * 16 + t * 16 * 2 ^ s.wingK + 16 * k)

/-- The slots probed for an address: its home slot and the seven after it. -/
def State.wingSlots (s : State) (a : Dword) : List Nat :=
  (List.range 8).map fun i => (a.toNat / 8 + i) % 2 ^ s.wingK

/-- Where a probe ends. -/
inductive Probe where
  | found (slot : Nat)
  | empty (slot : Nat)
  | absent
deriving DecidableEq, Repr, Inhabited

/-- The probe of R149 over some slots. -/
def probe (a : Dword) : List Nat → Act Probe
  | [] => .pure .absent
  | k :: rest =>
    (Act.load fun s t => s.wordLoad 1 (s.wingAt t k)).bind fun w =>
      if w.value = 0 then .pure (.empty k) else if w.value = a then .pure (.found k) else probe a rest

/-- The wings searched; no table stands with K = 0. -/
def wingProbe (a : Dword) : Act Probe :=
  (Act.see fun s _ => if s.wingK = 0 then [] else s.wingSlots a).bind fun ks => probe a ks

/-- WingsFind (R149). -/
def wingFind (a : Dword) : Act (Option TWord) :=
  (wingProbe a).bind fun p =>
    match p with
    | .found k => (Act.load fun s t => s.wordLoad 1 (s.wingAt t k + 8)).bind fun v => .pure (some v)
    | _ => .pure none

/-- A thread's count of live wings entries changed. -/
def State.setWtop (s : State) (t : Nat) (f : Nat → Nat) : State := s.setThr t { s.thr t with wtop := f (s.thr t).wtop }

/-- WingsInsert into an empty slot; WTOP rises (R149, R161). Where ordinary stores have emptied live entries it may rise beyond its 9 bits:
it counts on, TGET.WTOP gives the whole count and CHOICE keeps 9 bits of it (log 76). -/
def wingInsert (k : Nat) (a : Dword) (v : TWord) : Act Unit :=
  (Act.store fun s t => s.wordStore 1 (s.wingAt t k) ⟨a, 0⟩).bind fun _ =>
    (Act.store fun s t => s.wordStore 1 (s.wingAt t k + 8) v).bind fun _ => .change fun s t => s.setWtop t (· + 1)

/-- WingsRemove: the entry's address word cleared, WTOP lowered; nothing if absent (R149, R167). An ordinary store may have made an
entry that WTOP does not count: the spec gives no value to WTOP - 1 where WTOP is 0 (R9), and here it stays 0 (log 76). -/
def wingRemove (a : Dword) : Act Unit :=
  (wingProbe a).bind fun p =>
    match p with
    | .found k =>
      (Act.store fun s t => s.wordStore 1 (s.wingAt t k) ⟨0, 0⟩).bind fun _ => .change fun s t => s.setWtop t (· - 1)
    | _ => .pure ()

/-! ### Dereferencing and binding (R160, R161) -/

/-- A tag that Deref follows. -/
def isLink (w : TWord) : Bool := w.tag == tagREF || w.tag == tagVAR

/-- Deref with `n` loads left (R160). -/
def deref : Nat → TWord → Act TWord
  | 0, w => .pure (if isLink w then ⟨w.value, tagREF⟩ else w)
  | n + 1, w =>
    if !isLink w then .pure w
    else
      (Act.termLoad w.value).bind fun m =>
        if m.tag = tagVAR ∧ m.value = w.value then
          (Act.see fun s _ => s.inShared w.value).bind fun shared =>
            if shared then
              (wingFind w.value).bind fun e =>
                match e with
                | none => .pure m
                | some v => deref n v
            else .pure m
        else deref n m

/-- Links followed inside BIND and UNIFY (R161, R162). -/
def derefLimit : Nat := 1024

/-- TrailPush (R150), at TTOP as each of its steps finds it. -/
def trailPush (a : Dword) (kind : Nat) (old : TWord) : Act Unit :=
  (Act.see fun s t => (s.thr t).ttop).bind fun top =>
    (Act.termStore top ⟨a ||| BitVec.ofNat 64 kind, 0⟩).bind fun _ =>
      (Act.termStore (top + 8) old).bind fun _ => .change fun s t => s.setThr t { s.thr t with ttop := (s.thr t).ttop + 16 }

/-- Room on the trail (R161), a step whose trap keeps nothing that it has read: whether TTOP + 16 lies beyond TLIM. -/
def trailFull : Act Bool :=
  (Act.note fun s t =>
    let x := s.thr t
    if x.ttop = 0 then .error (.trap cPROT (threadInfo 2 t))
    else .ok ⟨BitVec.ofNat 64 (bitOf (decide (x.ttop.toNat + 16 > x.tlim.toNat))), 0⟩).bind fun v => .pure (v.value != 0)

/-- BindVar (R161): the status. -/
def bindVar (a : Dword) (v : TWord) : Act Nat :=
  trailFull.bind fun full =>
    (Act.see fun s _ => s.inShared a).bind fun shared =>
      if full then .pure 3
      else if shared then
        (wingProbe a).bind fun p =>
          match p with
          | .empty k => (trailPush a 1 ⟨a, tagVAR⟩).bind fun _ => (wingInsert k a v).bind fun _ => .pure 0
          | _ => .pure 3
      else (trailPush a 0 ⟨a, tagVAR⟩).bind fun _ => (Act.termStore a v).bind fun _ => .pure 0

/-- A pair of the thread's registers as a step: poison in it stops the thread (R145, R204). -/
def Act.pair (ranges : List (Nat × Nat)) (f : State → Nat → TWord) : Act TWord :=
  .note fun s t =>
    match s.regPoison t ranges with
    | some (c, i) => .error (.trap c i)
    | none => .ok (f s t)

/-- BIND's own effect (R161), each pair read as it is dereferenced: the status. -/
def bindTerms (a b : Act TWord) : Act Nat :=
  (a.bind (deref derefLimit)).bind fun x =>
    (b.bind (deref derefLimit)).bind fun y =>
      if x.tag = tagREF ∨ y.tag = tagREF then .pure 3
      else if x.tag ≠ tagVAR then .pure 1
      else if y.tag = tagVAR then
        if y.value = x.value then .pure 0 else bindVar x.value ⟨y.value, tagREF⟩
      else bindVar x.value y

/-! ### Unification (R162) -/

/-- POISON of a unify-stack entry (R204): the spec gives TRAPINFO no place for the reserved area of R174; the model names the bytes
after the window (log 64). -/
def State.entryInfo (s : State) (t : Nat) : Dword :=
  poisonInfo 2 (BitVec.ofNat 64 (s.grp.w * s.grp.n * 4 + t * (s.recordOf s.grp).udepth * 32))

/-- US.Take: the pair to examine and the stack without it. -/
def takePair (us : List UEntry) : Act (TWord × TWord × List UEntry) :=
  match us with
  | [] => .pure (⟨0, 0⟩, ⟨0, 0⟩, [])
  | .root x y :: rest => .pure (x, y, rest)
  | .poisoned :: _ => (Act.see fun s t => s.entryInfo t).bind fun i => .trap cPOISON i
  | .range x y n :: rest =>
    (Act.termLoad x).bind fun a =>
      (Act.termLoad y).bind fun b => .pure (a, b, if n ≤ 1 then rest else .range (x + 8) (y + 8) (n - 1) :: rest)

/-- The header of a structure as one step (R162): another tag than FUN is ILLTAG, and the step that met it is made again. -/
def Act.header (a : Dword) : Act TWord := fun c s k =>
  Act.step (fun s _ =>
    match s.wordLoad 0 a with
    | .ok h => if h.tag = tagFUN then (s, .ok h) else (if c.effect then s.setEffect else s, .error (.trap cILLTAG a))
    | .error e => (s, .error e)) true c s k

/-- What an examined pair comes to: the unify stack goes on, or the instruction ends with a status. -/
inductive Examined where
  | next (us : List UEntry)
  | ends (status : Nat)
deriving DecidableEq, Repr, Inhabited

/-- A push on the unify stack, or status 3 where `us`, the stack before the take, is full. -/
def pushRange (us : List UEntry) (x y : Dword) (n : Nat) (full : Bool) : Examined :=
  if full then .ends 3 else .next (.range x y n :: us)

/-- One pair examined (R162), its words followed for `limit` loads at most. -/
def examineWith (limit : Nat) : Act Examined :=
  (Act.see fun s t => ((s.thr t).ustack, (s.recordOf s.grp).udepth)).bind fun (stack, depth) =>
    (takePair stack).bind fun (a, b, us) =>
      (deref limit a).bind fun x =>
        (deref limit b).bind fun y =>
          let bound := fun (r : Act Nat) => r.bind fun st => .pure (if st = 3 then Examined.ends 3 else .next us)
          let full := decide (us.length ≥ depth)
          if x.tag = tagREF ∨ y.tag = tagREF then .pure (.ends 3)
          else if x.tag = tagVAR ∧ y.tag = tagVAR then
            if x.value = y.value then .pure (.next us)
            else if x.value < y.value then bound (bindVar y.value ⟨x.value, tagREF⟩)
            else bound (bindVar x.value ⟨y.value, tagREF⟩)
          else if x.tag = tagVAR then bound (bindVar x.value y)
          else if y.tag = tagVAR then bound (bindVar y.value x)
          else if x.tag ≠ y.tag then .pure (.ends 1)
          else if x.tag = tagSTR then
            (Act.header x.value).bind fun hx =>
              (Act.header y.value).bind fun hy =>
                if hx.value ≠ hy.value then .pure (.ends 1)
                else if hx.value.toNat % 65536 = 0 then .pure (.next us)
                else .pure (pushRange us (x.value + 8) (y.value + 8) (hx.value.toNat % 65536) full)
          else if x.tag = tagLST then .pure (pushRange us x.value y.value 2 full)
          else if x.value ≠ y.value then .pure (.ends 1)
          else .pure (.next us)

/-- A pair as UNIFY examines it (R162). -/
def examine : Act Examined := examineWith derefLimit

/-- Steps of unification until the instruction ends, with its status; the steps made are carried in the thread (R153). A failure
empties the unify stack, an overflow leaves it as it stood. -/
def unifyRun (budget : Nat) : Nat → Act Nat
  | 0 => .stop (.wait .none)
  | n + 1 =>
    (Act.see fun s t => s.thr t).bind fun x =>
      if x.ustack.isEmpty then .pure 0
      else if x.carry ≥ budget then .pure 2
      else
        examine.bind fun r =>
          match r with
          | .ends 1 => (Act.commit 0 fun x => { x with ustack := [] }).bind fun _ => .pure 1
          | .ends st => .pure st
          | .next us =>
            (Act.commit 0 fun x => { x with ustack := us, carry := x.carry + 1 }).bind fun _ => unifyRun budget n

/-! ### Threads of one instruction (R153, R188, R189) -/

/-- One thread from its first incomplete step; one that finishes is marked, and sets the effect bit if its instruction does. While no
access has set the bit the thread stays as it was, so that a replay of the region finds its term state as at the region's entry (R46,
R170). -/
def runThread (effect : Bool) (run : Act Unit) (t : Nat) (s : State) : State × Option Stop :=
  match run ⟨t, effect⟩ s 0 with
  | (s, .ok _) => ((if effect then s.setEffect else s).upd fun g => g.markThread t, none)
  | (s', .error e) => (if effect && !s'.grp.effect && s'.thr t != s.thr t then s'.setThr t (s.thr t) else s', some e)

/-- The threads run one after the other: the state, and why some stop. -/
def runThreads (effect : Bool) (run : Act Unit) : List Nat → State → State × List Stop
  | [], s => (s, [])
  | t :: ts, s =>
    let (s, r) := runThread effect run t s
    let (s, rest) := runThreads effect run ts s
    (s, r.toList ++ rest)

/-- The threads of an instruction; where one of them stops, those drawn have not run yet (R153, log 5). -/
def runBeside (effect : Bool) (run : Act Unit) (ts : List Nat) (s : State) : State × List Stop :=
  let r := runThreads effect run ts s
  if r.2.isEmpty then r
  else
    let q := runThreads effect run (ts.filter fun t => !(r.1.thr t).mark || !s.drawn t) s.spend
    if q.2.isEmpty then r else q

/-- The instruction's outcome: lines that miss are fetched first, then the first cause of all threads is raised. -/
def settleThreads (s : State) (rs : List Stop) : Res :=
  let misses := rs.filterMap fun r => match r with | .miss l => some l | _ => none
  let waits := rs.filterMap fun r => match r with | .wait w => some w | _ => none
  if rs.isEmpty then .done s
  else if !misses.isEmpty then
    .stay ((s.fetchAll misses.eraseDups false 0).waitLane .load)
  else
    match waits with
    | w :: _ => .stay (s.waitLane w)
    | [] =>
      let causes := rs.filterMap fun r =>
        match r with
        | .trap c i => some (c, i)
        | .park e _ _ => some (cPAGEFAULT, e)
        | _ => none
      match firstCause causes with
      | none => .done s
      | some (c, i) =>
        if c = cPAGEFAULT then
          match rs.findSome? fun r => match r with | .park e k a => some (e, k, a) | _ => none with
          | some (e, k, a) => .park e k a s
          | none => .done s
        else .trap c i s

/-- A term instruction that runs separately in each active thread (R153). -/
def termLane (i : Instr) (w : LaneOps) (s : State) (effect : Bool) (run : Act Unit) : Ans :=
  issueLane i (laneSlots w) s fun s =>
    let (s, rs) := runBeside effect run (s.unmarked w) s
    settleThreads s rs

end Sys2Proof.Machine
end

