-- ==== Sys2Proof/Machine/LaneTerm.lean ====
section
/-!
DEFINITION. Term instructions (R152 to R168).
-/
namespace Sys2Proof.Machine

/-! ### TLD and TST (R155) -/

/-- TLD. -/
def execTld (w : LaneOps) (s : State) : Ans :=
  memLane (.tld w) w 8 s fun s =>
    match s.checkThreads w.space 8 false none (s.address w (sext w.imm)) (s.unmarked w) with
    | .error (c, i) => .trap c i s
    | .ok acc =>
      relaxedLoads s (.tld w) w 8 acc fun v tag => .tw ⟨BitVec.ofNat 64 v, tag⟩

/-- TST. -/
def execTst (w : LaneOps) (s : State) : Ans :=
  memLane (.tst w) w 8 s fun s =>
    match s.checkThreads w.space 8 true (some aWrite) (s.address w (sext w.imm)) (s.unmarked w) with
    | .error (c, i) => .trap c i s
    | .ok acc =>
      withStores s (.tst w) acc (w.space == 0) (fun t => s.storeAt t 8 0 .keep) fun xs =>
        xs.foldl (fun (r : StoreRes) a =>
          match r with
          | .ok s' => s'.storeAt a.2 8 (s.rdV64 a.1 w.vc.toNat).toNat (.word (s.rdTag a.1 w.vc.toNat))
          | _ => r) (.ok s)

/-! ### Tags (R145, R156 to R159) -/

/-- The lowest thread whose tag would be 9 to 15, and that tag (R145). -/
def badTag (ts : List (Nat × Tag)) : Option Dword :=
  (ts.find? fun x => decide (x.2.toNat ≥ 9)).map fun x => threadInfo x.2.toNat x.1

/-- TMK (R156). -/
def execTmk (w : LaneOps) (s : State) : Ans :=
  issueLane (.tmk w) (laneSlots w) s fun s =>
    let ts := s.active w
    let tag : Tag := w.imm.setWidth 4
    let v : Nat → Dword := fun t => if w.immForm then BitVec.signExtend 64 (BitVec.ofNat 10 (w.imm.toNat / 16)) else s.a64 w t
    match badTag (ts.map fun t => (t, tag)), s.firstPoison ts (Instr.tmk w).sources with
    | some i, _ => .trap cILLTAG i s
    | none, some (c, i) => .trap c i s
    | none, none => .done (s.putAll w.vd (ts.map fun t => (t, .tw ⟨v t, tag⟩)))

/-- TGET (R157); .TAG reads the tag alone (log 22). -/
def execTget (w : LaneOps) (s : State) : Ans :=
  issueLane (.tget w) (laneSlots w) s fun s =>
    let out : Nat → Out := fun t =>
      let x := s.thr t
      match w.fn.toNat with
      | 0 => .w32 ((s.rdTag t w.va.toNat).setWidth 32)
      | 1 => .w64 x.htop
      | 2 => .w64 x.ttop
      | 3 => .w64 x.ctop
      | 4 => .w32 (BitVec.ofNat 32 x.wtop)
      | 5 => .w64 x.hlim
      | 6 => .w64 x.tlim
      | 7 => .w64 x.cbase
      | _ => .w64 x.clim
    .done (s.putAll w.vd ((s.active w).map fun t => (t, out t)))

/-- A change of the thread's state that reads its sources: what their values raise comes before their poison (R189). -/
def settled (ranges : List (Nat × Nat)) (check : State → Nat → Option (Nat × Dword)) (change : State → Nat → State) : Act Unit :=
  (Act.see check).bind fun bad =>
    match bad with
    | some (c, i) => .trap c i
    | none => (Act.clean ranges).bind fun _ => .change change

/-- What the values of TSET.HEAP, .TRAIL and .CHOICE raise (R158): alignment before the limit. -/
def tsetBad (a b : Dword) (s : State) (t : Nat) : Option (Nat × Dword) :=
  if a.toNat % 8 ≠ 0 then some (cMISALIGN, a)
  else if b.toNat % 8 ≠ 0 then some (cMISALIGN, b)
  else if b < a ∨ (s.thr t).ctop ≠ 0 then some (cPROT, threadInfo 8 t)
  else none

/-- Their effect. -/
def tsetSegment (sel : Nat) (a b : Dword) (x : Thread) : Thread :=
  match sel with
  | 1 => { x with htop := a, hlim := b }
  | 2 => { x with ttop := a, tlim := b }
  | _ => { x with cbase := a, clim := b, ctop := 0 }

/-- TSET.HEAP, .TRAIL and .CHOICE in one thread (R158). -/
def tsetThread (w : LaneOps) : Act Unit :=
  settled (Instr.tset w).sources (fun s t => tsetBad (s.a64 w t) (s.b64 w t) s t)
    fun s t => s.setThr t (tsetSegment w.fn.toNat (s.a64 w t) (s.b64 w t) (s.thr t))

/-- TSET (R145, R158). -/
def execTset (w : LaneOps) (s : State) : Ans :=
  if w.fn = 0 then
    issueLane (.tset w) (laneSlots w) s fun s =>
      let ts := s.active w
      let tag : Nat → Tag := fun t => (s.a32 w t).setWidth 4
      match badTag (ts.map fun t => (t, tag t)), s.firstPoison ts (Instr.tset w).sources with
      | some i, _ => .trap cILLTAG i s
      | none, some (c, i) => .trap c i s
      | none, none => .done (ts.foldl (fun s' t => s'.setTag t w.vd.toNat (tag t)) s)
  else
    termLane (.tset w) w s true (tsetThread w)

/-- TTEST (R159): any tag may be tested, so the pair's tag alone is read (log 22). -/
def execTtest (w : LaneOps) (s : State) : Ans :=
  issueLane (.ttest w) (laneSlots w) s fun s =>
    .done (s.putAll w.vd ((s.active w).map fun t => (t, .bit (s.rdTag t w.va.toNat == w.imm.setWidth 4))))

/-- FUNC.NAME, .ARITY and .ARG in one thread (R146, R159): va's pair, for .ARG its header, then vb. -/
def funcThread (w : LaneOps) : Act Unit :=
  if w.fn = 1 then .change fun s t => s.wrV64 t w.vd.toNat (s.a64 w t >>> 16)
  else if w.fn = 2 then .change fun s t => s.wrV t w.vd.toNat ((s.a64 w t &&& 0xFFFF).setWidth 32)
  else
    (Act.note fun s t => .ok (s.aTW w t)).bind fun p =>
      (Act.header p.value).bind fun h =>
        (Act.clean [(w.vb.toNat, 1)]).bind fun _ =>
          .change fun s t =>
            let k := (s.b32 w t).toNat
            s.wrV64 t w.vd.toNat (if 1 ≤ k ∧ k ≤ h.value.toNat % 65536 then p.value + BitVec.ofNat 64 (8 * k) else 0)

/-- Lowest active thread whose pair va has another tag than asked, and that tag (R159): POI is such a tag, and ILLTAG comes before its
poison (R189). -/
def State.wrongTag (s : State) (w : LaneOps) (tag : Tag) (ts : List Nat) : Option Dword :=
  (ts.find? fun t => s.rdTag t w.va.toNat != tag).map fun t => threadInfo (s.rdTag t w.va.toNat).toNat t

/-- FUNC (R159). With ILLTAG in one thread any subset of the others may have completed (R153): here none has (log 5). -/
def execFunc (w : LaneOps) (s : State) : Ans :=
  if w.fn = 0 then
    aluLane (.func w) w s fun s t =>
      .tw ⟨BitVec.ofNat 64 ((s.a32 w t).toNat * 65536 + (s.b32 w t).toNat % 65536), tagFUN⟩
  else
    issueLane (.func w) (laneSlots w) s fun s =>
      let ts := s.unmarked w
      match s.wrongTag w (if w.fn = 3 then tagSTR else tagFUN) ts with
      | some i => .trap cILLTAG i s
      | none =>
        let (s, rs) := runBeside false (funcThread w) ts s
        settleThreads s rs

/-! ### DEREF, BIND, UNIFY, HALLOC (R160 to R163) -/

/-- DEREF in one thread (R160). -/
def derefThread (w : LaneOps) : Act Unit :=
  (Act.clean (Instr.deref w).sources).bind fun _ =>
    (Act.note fun s t => .ok (s.aTW w t)).bind fun p =>
      (deref (if w.imm = 0 then derefLimit else w.imm.toNat) p).bind fun r => .change fun s t => s.wrTW t w.vd.toNat r

/-- DEREF (R160). -/
def execDeref (w : LaneOps) (s : State) : Ans := termLane (.deref w) w s false (derefThread w)

/-- A pair with its tag in the second source. -/
def State.bTW (s : State) (w : LaneOps) (t : Nat) : TWord := s.rdTW t w.vb.toNat

/-- BIND in one thread (R161). -/
def bindThread (w : LaneOps) : Act Unit :=
  (bindTerms (.pair (if w.ska then [] else [(w.va.toNat, 2)]) fun s t => s.aTW w t) (.pair [(w.vb.toNat, 2)] fun s t => s.bTW w t)).bind
    fun st => .change fun s t => s.wrV t w.vd.toNat (BitVec.ofNat 32 st)

/-- BIND (R161). -/
def execBind (w : LaneOps) (s : State) : Ans := termLane (.bind w) w s true (bindThread w)

/-- The unify stack made ready once (R162): emptied with .RESET, and the root pair pushed on an empty one. -/
def unifyReady (w : LaneOps) : Act Unit := fun c s k =>
  let x := s.thr c.t
  if x.progress ≠ 0 then (s, .ok ((), k))
  else
    let us := if w.fn.getLsbD 0 then [] else x.ustack
    match if us.isEmpty then s.regPoison c.t (Instr.unify w).sources else none with
    | some (e, i) => (s, .error (.trap e i))
    | none =>
      let us := if us.isEmpty then [.root (s.aTW w c.t) (s.bTW w c.t)] else us
      (s.setThr c.t { x with ustack := us, progress := 1 }, .ok ((), k))

/-- UNIFY in one thread (R162). -/
def unifyThread (w : LaneOps) : Act Unit :=
  (unifyReady w).bind fun _ =>
    (unifyRun w.imm.toNat (w.imm.toNat + 1)).bind fun st => .change fun s t => s.wrV t w.vd.toNat (BitVec.ofNat 32 st)

/-- UNIFY (R162). -/
def execUnify (w : LaneOps) (s : State) : Ans := termLane (.unify w) w s true (unifyThread w)

/-- The words of HALLOC.VAR from the first not yet written (R163). -/
def hallocRun (base : Dword) : Nat → Nat → Act Unit
  | 0, _ => .pure ()
  | n + 1, j =>
    let a := base + BitVec.ofNat 64 (8 * j)
    (Act.store fun s _ => s.wordStore 0 a ⟨a, tagVAR⟩).bind fun _ =>
      (Act.commit 0 fun x => { x with progress := j + 1 }).bind fun _ => hallocRun base n (j + 1)

/-- HALLOC in one thread (R163). The rule gives no order between the words of .VAR and HTOP: here HTOP rises last, and a trap in
between leaves it as it was (log 65). -/
def hallocThread (w : LaneOps) : Act Unit :=
  (Act.see fun s t => s.thr t).bind fun x =>
    let n := w.imm.toNat
    if x.htop = 0 then .misuse 1
    else if x.htop.toNat + 8 * n > x.hlim.toNat then .misuse 4
    else
      (if w.fn.getLsbD 0 then hallocRun x.htop (n - x.progress) x.progress else .pure ()).bind fun _ =>
        .change fun s t => (s.setThr t { s.thr t with htop := x.htop + BitVec.ofNat 64 (8 * n) }).wrV64 t w.vd.toNat x.htop

/-- HALLOC (R163). -/
def execHalloc (w : LaneOps) (s : State) : Ans := termLane (.halloc w) w s true (hallocThread w)

/-! ### CHOICE, NEXTALT, CUT (R164 to R166) -/

/-- An alternative as a lane-instruction index (R151, R164). -/
def State.altIndex (s : State) (off : Dword) : Nat :=
  let l := s.grp.stream
  (((l.frag.pc - (s.recordOf s.grp).lcode + off * 12).toInt / 12) % 2 ^ 32).toNat

/-- Mask bits of a choice record. -/
def maskBits (m : Nat) : List Nat := (List.range 8).filter fun i => m / 2 ^ i % 2 == 1

/-- Pairs saved in a record, each a store of its own (R164): a pair is read when it is stored. -/
def savePairs (r : Dword) (first : Nat) : List Nat → Act Unit
  | [] => .pure ()
  | i :: rest =>
    (Act.store fun s t =>
      match s.regPoison t [(first + 2 * i, 2)] with
      | some (c, x) => .error (.trap c x)
      | none => s.wordStore 0 (r + BitVec.ofNat 64 (32 + 8 * i)) (s.rdTW t (first + 2 * i))).bind fun _ => savePairs r first rest

/-- CHOICE in one thread (R164); the record's address is a sum of integers (R9). -/
def choiceThread (w : LaneOps) : Act Unit :=
  (Act.see fun s t => (s.thr t, s.altIndex (sext w.imm))).bind fun (x, alt) =>
    let at_ := if x.ctop = 0 then x.cbase.toNat else x.ctop.toNat + 96
    let r : Dword := BitVec.ofNat 64 at_
    if x.cbase = 0 then .misuse 3
    else if at_ + 96 > x.clim.toNat then .misuse 5
    else
      let word := x.wtop % 512 * 2 ^ 51 + w.va.toNat * 2 ^ 40 + w.fn.toNat * 2 ^ 32 + alt
      (Act.termStore r ⟨x.ctop, 0⟩).bind fun _ =>
        (Act.termStore (r + 8) ⟨x.ttop, 0⟩).bind fun _ =>
          (Act.termStore (r + 16) ⟨x.htop, 0⟩).bind fun _ =>
            (Act.termStore (r + 24) ⟨BitVec.ofNat 64 word, 0⟩).bind fun _ =>
              (savePairs r w.va.toNat (maskBits w.fn.toNat)).bind fun _ =>
                .change fun s t => s.setThr t { s.thr t with ctop := r }

/-- CHOICE (R164). -/
def execChoice (w : LaneOps) (s : State) : Ans := termLane (.choice w) w s true (choiceThread w)

/-- NEXTALT: bits [31:0] of the word at CTOP + 24 (R165). The rule does not say whether the word is read: here it is, so a
poisoned one raises POISON (log 65). -/
def nextaltThread (w : LaneOps) : Act Unit :=
  (Act.see fun s t => ((s.thr t).ctop, s.altIndex (sext w.imm))).bind fun (top, alt) =>
    if top = 0 then .misuse 7
    else
      (Act.termLoad (top + 24)).bind fun v =>
        Act.termStore (top + 24) ⟨pairOf (BitVec.ofNat 32 alt) (hiHalf v.value), 0⟩

/-- NEXTALT (R165). -/
def execNextalt (w : LaneOps) (s : State) : Ans := termLane (.nextalt w) w s true (nextaltThread w)

/-- What the level of CUT raises (R166). -/
def cutBad (v : Dword) (s : State) (t : Nat) : Option (Nat × Dword) :=
  let x := s.thr t
  if v = 0 ∨ (x.cbase ≤ v ∧ v ≤ x.ctop ∧ (v - x.cbase).toNat % 96 = 0) then none else some (cPROT, threadInfo 6 t)

/-- The choice stack cut at a level. -/
def State.cutTo (s : State) (t : Nat) (v : Dword) : State := s.setThr t { s.thr t with ctop := v }

/-- CUT in one thread (R166). -/
def cutThread (w : LaneOps) : Act Unit :=
  if w.fn = 1 then
    (Act.see fun s t => (s.thr t).ctop).bind fun top =>
      if top = 0 then .pure () else (Act.termLoad top).bind fun v => .change fun s t => s.cutTo t v.value
  else settled (Instr.cut w).sources (fun s t => cutBad (s.a64 w t) s t) fun s t => s.cutTo t (s.a64 w t)

/-- CUT (R166). -/
def execCut (w : LaneOps) (s : State) : Ans := termLane (.cut w) w s true (cutThread w)

/-! ### BACKTRACK (R167) -/

/-- First saved register, register mask and alternative of the word at CTOP + 24 (R151). -/
def choiceFields (v : Dword) : Nat × Nat × Nat := (v.toNat / 2 ^ 40 % 2048, v.toNat / 2 ^ 32 % 256, v.toNat % 2 ^ 32)

/-- Undo steps of the record at `r` (R167): the top trail entry is read whole, undone, and TTOP lowered with it. The rest of a long
trail goes on at the next attempt. "TTOP = 0 raises PROT 2" stands beside the subtraction: here TTOP is tested before it, where the
loop's own condition leaves it above 0, so that the trap never arises. A record that software has altered may leave TTOP at 8, where
TTOP - 16 has no value by R9: here it wraps modulo 2^64, and the load is made there (log 76). -/
def undoRun (r : Dword) : Nat → Act Unit
  | 0 => .stop (.wait .none)
  | n + 1 =>
    (Act.see fun s t => (s.thr t).ttop).bind fun top =>
      (Act.termLoad (r + 8)).bind fun mark =>
        if top ≤ mark.value then .pure ()
        else if top = 0 then .misuse 2
        else
          (Act.termLoad (top - 16)).bind fun e =>
            (Act.termLoad (top - 16 + 8)).bind fun old =>
              let a := e.value &&& ~~~7
              (if e.value.getLsbD 0 then wingRemove a else Act.termStore a old).bind fun _ =>
                (Act.commit 1 fun x => { x with ttop := top - 16 }).bind fun _ => undoRun r n

/-- Pairs restored from a record, each a step of its own. -/
def restorePairs (r : Dword) (first : Nat) : List Nat → Act Unit
  | [] => .pure ()
  | i :: rest =>
    (Act.termLoad (r + BitVec.ofNat 64 (32 + 8 * i))).bind fun v =>
      (Act.change fun s t => s.wrTW t (first + 2 * i) v).bind fun _ => restorePairs r first rest

/-- BACKTRACK of one thread whose destination is known (R167); the first completed step holds the word at CTOP + 24. -/
def backtrackThread (qd : Nat) : Act Unit :=
  (Act.see fun s t => (s.thr t, s.grp.registerBound)).bind fun (x, bound) =>
    if x.progress = 1 then .change fun s t => s.upd fun g => g.setPred t qd false
    else
      (Act.termLoad (x.ctop + 24)).bind fun v =>
        let (first, mask, _) := choiceFields v.value
        if (maskBits mask).any fun i => decide (first + 2 * i + 1 ≥ bound) then
          Act.self.bind fun t => .afresh cPROT (threadInfo 9 t)
        else
          (undoRun x.ctop 64).bind fun _ =>
            (Act.termLoad (x.ctop + 16)).bind fun h =>
              (Act.change fun s t => s.setThr t { s.thr t with htop := h.value }).bind fun _ =>
                (restorePairs x.ctop first (maskBits mask)).bind fun _ =>
                  .change fun s t => (s.setThr t { s.thr t with ustack := [] }).upd fun g => g.setPred t qd true

/-- The choice words of the active threads that have a record, each load a completed step of its thread. -/
def choiceWords (ts : List Nat) (s : State) : State × List Stop :=
  ts.foldl (fun (p : State × List Stop) t =>
    let top := (p.1.thr t).ctop
    if top = 0 then p
    else
      match Act.termLoad (top + 24) ⟨t, true⟩ p.1 0 with
      | (s, .ok _) => (s, p.2)
      | (s, .error e) => (s, p.2 ++ [e])) (s, [])

/-- Where a thread of the fragment goes: its progress holds 1 for the next instruction, its alternative + 2 otherwise. -/
def State.backtrackDest (s : State) (t : Nat) : Dword :=
  let p := (s.thr t).progress
  if p ≤ 1 then s.grp.stream.frag.pc + 12 else (s.recordOf s.grp).lcode + BitVec.ofNat 64 (12 * (p - 2))

/-- Sets of threads by destination, in order of their lowest thread (R167). -/
def State.backtrackSets (s : State) : List (Dword × BitVec 128) :=
  groupBy (s.fragThreads.map s.backtrackDest) s.fragThreads s.backtrackDest

/-- The first part of BACKTRACK: every destination read, and the limit of 16 fragments checked before anything changes. -/
def backtrackPlan (s : State) (ts : List Nat) : Except Res State :=
  let (s, stops) := choiceWords ts s
  if !stops.isEmpty then .error (settleThreads s stops)
  else
    let planned := ts.foldl (fun (s : State) t =>
      let x := s.thr t
      s.setThr t { x with progress := match x.done with
        | v :: _ => v.value.toNat % 2 ^ 32 + 2
        | [] => 1 }) s
    let n := s.grp.stream.countWith planned.backtrackSets.length
    if n > 16 then .error (.trap cILLCONV (BitVec.ofNat 64 n) s) else .ok planned

/-- BACKTRACK (R167): the threads are divided by destination when all have finished. A thread whose destination is not known, because
the instruction begins or because its record was refused, is planned first. -/
def execBacktrack (w : LaneOps) (s : State) : Ans :=
  issueLane (.backtrack w) (laneSlots w) s fun s =>
    let ts := s.unmarked w
    let due := ts.filter fun t => (s.thr t).progress == 0
    match if due.isEmpty then .ok s else backtrackPlan s due with
    | .error r => r
    | .ok s =>
      let slots := laneSlots w s
      let (s, rs) := runBeside true (backtrackThread w.vd.toNat) ts s
      match settleThreads s rs with
      | .done s =>
        let sets := s.backtrackSets
        let all := s.fragThreads
        .jump ((s.upd fun g => g.clearMarksIn all).moveLane slots fun l => l.divide sets)
      | r => r

/-! ### COMMIT (R168) -/

/-- The compare-and-swap of a wings entry sent to the home of its word (R168). -/
def State.sendCommit (s : State) (t : Nat) (a : Dword) (v : TWord) : State × Option Stop :=
  match s.checkAccess 0 a 8 true with
  | .error (c, i) => (s, some (.trap c i))
  | .ok _ =>
    match s.xlate s.grp a aAtomic with
    | .fault kind => (s, some (.park a kind aAtomic))
    | .ok pa tagged =>
      if isView pa then (s, some (.trap cPROT a))
      else if s.sweepingHere then (s, some (.wait .load))
      else if s.grp.unack ≥ unackMax then (s, some (.wait .store))
      else
        let req : AtomReq :=
          { thread := t, pa := pa, size := 8, form := 4, op := 6, type := 7, operand := v, expect := ⟨a, tagVAR⟩
            own := v, dest := none, scalar := false, takers := 0, counted := true
            use := 0, tagged := tagged, late := false, frag := s.grp.stream.cur, pc := s.grp.stream.frag.pc, va := a
            inHandler := s.grp.handler.isSome, seen := [] }
        let (id, s) := s.sendAtomic req true 0
        (s.upd fun g => { g with reqs := g.reqs ++ [(id, t)] }, none)

/-- A thread's COMMIT up to its next compare-and-swap (R168): true where its wings are exhausted, false where a request has left.
The thread's progress counts half entries of its table, `last` in all: an odd one has had its compare-and-swap and is to be
cleared. The first argument bounds the number of half entries left. Of an empty entry the address word alone is read: whether the
rule's e ← Wings(t, s) reads its value word too, which could be poisoned or locked, the spec does not say (log 76). -/
def commitScan (last : Nat) : Nat → Act Bool
  | 0 => .pure true
  | n + 1 =>
    (Act.see fun s t => (s.thr t).progress).bind fun p =>
      if p ≥ last then .pure true
      else if p % 2 = 1 then
        (Act.store fun s t => s.wordStore 1 (s.wingAt t (p / 2)) ⟨0, 0⟩).bind fun _ =>
          (Act.commit 0 fun x => { x with progress := p + 1 }).bind fun _ => commitScan last n
      else
        (Act.load fun s t => s.wordLoad 1 (s.wingAt t (p / 2))).bind fun a =>
          if a.value = 0 then (Act.commit 0 fun x => { x with progress := p + 2 }).bind fun _ => commitScan last n
          else
            (Act.load fun s t => s.wordLoad 1 (s.wingAt t (p / 2) + 8)).bind fun v => fun c s k =>
              match s.sendCommit c.t a.value v with
              | (s, none) => (s, .ok (false, k))
              | (s, some e) => (s, .error e)

/-- The compare-and-swap of a COMMIT has come back: a conflict is counted, and the entry is to be cleared (R168). -/
def State.commitReply (s : State) (t : Nat) (stored : Bool) : State :=
  let x := s.thr t
  s.setThr t { x with carry := x.carry + bitOf (!stored), progress := x.progress + 1, done := [] }

/-- The threads of a COMMIT in ascending lane order, up to the next compare-and-swap. -/
def commitThreads (vd : Nat) : List Nat → State → Res
  | [], s => .done s
  | t :: ts, s =>
    let table := if s.wingK = 0 then 0 else 2 ^ s.wingK
    match commitScan (2 * table) (2 * table - (s.thr t).progress) ⟨t, true⟩ s 0 with
    | (s, .ok (true, _)) =>
      let c := (s.thr t).carry
      commitThreads vd ts
        (((s.setThr t { s.thr t with wtop := 0 }).wrV t vd (BitVec.ofNat 32 c)).upd fun g => g.markThread t).setEffect
    | (s, .ok (false, _)) => .stay (s.waitLane .load)
    | (s, .error (.trap c i)) => .trap c i s
    | (s, .error (.park e k a)) => .park e k a s
    | (s, .error (.miss l)) => .stay ((s.fetchLine s.cur l false 0 true).waitLane .load)
    | (s, .error (.wait w)) => .stay (s.waitLane w)

/-- COMMIT (R168): the release, then the threads one after the other; without an active thread nothing (R26). -/
def execCommit (w : LaneOps) (s : State) : Ans :=
  issueLane (.commit w) (laneSlots w) s fun s =>
    let ts := s.unmarked w
    let begun := (s.active w).any fun t => (s.thr t).begun
    if (s.active w).isEmpty then .done s
    else if s.stepsOut then s.holdLane .load
    else
      match s.metPoison with
      | some t => s.poisonTrap (fun t => ((s.thr t).done.headD ⟨0, 0⟩).value) t
      | none =>
        if begun then commitThreads w.vd.toNat ts s
        else releaseLane s w.scope.toNat fun s => commitThreads w.vd.toNat ts s

end Sys2Proof.Machine
end

