-- ==== Sys2Proof/Machine/Access.lean ====
section
/-!
DEFINITION. Accesses on their way (R65, R71, R118): the registers of the scalar stream that they hold (R58, R70), and their performance,
in the order that their group's accesses to one place keep (R180).
-/
namespace Sys2Proof

/-! ### Registers of the scalar stream (R58, R70, R249) -/

/-- The registers of a pair. -/
def pairRegs (r : SReg) : List Nat := [r.toNat, r.toNat + 1]

/-- Scalar registers that a scalar instruction reads or writes. -/
def Instr.scalarRegs (i : Instr) : List Nat :=
  match i with
  | .sadd d a b | .ssub d a b | .smul d a b | .smulh d a b | .sdiv d a b | .srem d a b | .sand d a b | .sor d a b | .sxor d a b
  | .sshl d a b | .sshr d a b | .ssra d a b | .smin d a b | .smax d a b | .sslt d a b => [d.toNat, a.toNat, b.toNat]
  | .saddi d a _ | .sandi d a _ | .sori d a _ | .sxori d a _ | .sslti d a _ => [d.toNat, a.toNat]
  | .sshli d a _ | .sshri d a _ | .ssrai d a _ => [d.toNat, a.toNat]
  | .spopc d a | .sclz d a => [d.toNat, a.toNat]
  | .sbfx d a _ _ | .sbfi d a _ _ => [d.toNat, a.toNat]
  | .slui d _ => [d.toNat]
  | .ssel d a b c => [d.toNat, a.toNat, b.toNat, c.toNat]
  | .saddp d a b => pairRegs d ++ pairRegs a ++ [b.toNat]
  | .saddpi d a _ => pairRegs d ++ pairRegs a
  | .sld d b _ | .sst d b _ | .sldaq d b _ _ | .sstrl d b _ _ => d.toNat :: pairRegs b
  | .sldp d b _ | .sstp d b _ => pairRegs d ++ pairRegs b
  | .zld _ b _ | .zst _ b _ => pairRegs b
  | .samo d a b _ _ | .scas d a b _ => d.toNat :: b.toNat :: pairRegs a
  | .racq a _ | .lrunr _ _ a | .gsets _ _ a | .scsrw a _ | .qpush a _ _ | .zset _ a _ | .mkset _ a _ | .mksetPre _ a => [a.toNat]
  | .sbeq a b _ | .sbne a b _ | .sblt a b _ | .sbge a b _ | .sblo a b _ | .sbhs a b _ => [a.toNat, b.toNat]
  | .sjal d _ => pairRegs d
  | .sjr d a _ => pairRegs d ++ pairRegs a
  | .sloop a _ => [a.toNat]
  | .wsplit d _ | .scsrr d _ | .qpop d _ _ | .zget d _ _ | .xwait d _ | .cwait d _ => [d.toNat]
  | .wfuse d a _ => [d.toNat, a.toNat]
  | .cpy _ _ _ _ a | .cpyq _ _ _ _ a => [a.toNat]
  | .cpys _ _ _ a => pairRegs a
  | .mcast _ _ _ _ a | .xput _ _ _ a | .xget _ _ _ a => [a.toNat, a.toNat + 1, a.toNat + 2]
  | .collAred _ _ _ _ a _ | .collAgath _ _ _ _ a | .collRscat _ _ _ _ a _ => pairRegs a
  | .qtryPop d _ _ | .qtryCount d _ => pairRegs d
  | .qtryPush d a _ _ => [d.toNat, a.toNat]
  | .qbind a b _ => pairRegs a ++ [b.toNat]
  | _ => []

/-- Shape registers that a scalar instruction reads or writes. -/
def Instr.shapeRegs (i : Instr) : List Nat :=
  match i with
  | .zld z _ _ | .zst z _ _ | .zset z _ _ | .zget _ z _ | .cpys _ _ z _ | .xput _ _ z _ | .xget _ _ z _ => [z.toNat]
  | .cpy _ _ d a _ | .cpyq _ _ d a _ | .mcast _ _ d a _ | .collAred _ _ d a _ _ | .collAgath _ _ d a _ | .collRscat _ _ d a _ _ =>
    [d.toNat, a.toNat]
  | .gath _ _ d a b | .scat _ _ d a b => [d.toNat, a.toNat, b.toNat]
  | _ => []

/-- Scalar registers that an access of the scalar stream brings; a write to s0 is discarded (R27). -/
def Instr.brings (i : Instr) : List Nat :=
  match i with
  | .sld d _ _ | .samo d _ _ _ _ | .scas d _ _ _ => [d.toNat].filter (· != 0)
  | .sldp d _ _ => (pairRegs d).filter (· != 0)
  | _ => []

/-- The shape register that one brings. -/
def Instr.bringsShape (i : Instr) : List Nat :=
  match i with
  | .zld z _ _ => [z.toNat]
  | _ => []

end Sys2Proof

namespace Sys2Proof.Machine

/-- The scalar instruction waits on the scoreboard (R70): it names a register that an access on its way brings; LRUN and LRUNR, whose
block captures them, wait for every one (R58, R249). -/
def State.scalarHeld (s : State) (i : Instr) : Bool :=
  let as := s.grp.accesses.filter (·.scalar)
  let captures := match i with
    | .lrun _ _ _ => true
    | .lrunr _ _ _ => true
    | _ => false
  as.any fun a =>
    if captures then !a.instr.brings.isEmpty || !a.instr.bringsShape.isEmpty
    else a.instr.brings.any i.scalarRegs.contains || a.instr.bringsShape.any i.shapeRegs.contains

/-! ### Performance -/

/-- Bytes that one access of an instruction moves. -/
def accessBytes (i : Instr) : Nat :=
  match i with
  | .sldp _ _ _ | .sstp _ _ _ | .tld _ => 8
  | .zld _ _ _ | .zst _ _ _ => 64
  | .ldv w => 4 * w.vcount
  | .ld w | .atom w | .cas w | .red w | .fatom w => elemBytes w.type
  | _ => 4

/-- A store of the scalar stream. -/
def isScalarStore (i : Instr) : Bool :=
  match i with
  | .sst _ _ _ | .sstp _ _ _ | .zst _ _ _ => true
  | _ => false

/-- A result written in the threads that take it. -/
def State.putIn (s : State) (takers : BitVec 128) (vd : VReg) (o : Out) : State :=
  (threadsOf takers).foldl (fun (s : State) t => s.put t vd o) s

/-- What a load brings, in its registers (R76, R155, R178, R181, R247). -/
def State.landLoad (s : State) (i : Instr) (takers : BitVec 128) (v : Nat) (tag : Tag) : State :=
  match i with
  | .sld sd _ _ => s.upd fun g => g.wrS sd.toNat (BitVec.ofNat 32 v)
  | .sldp sd _ _ => s.upd fun g => g.wrPair sd.toNat (BitVec.ofNat 64 v)
  | .zld z _ _ => s.upd fun g => { g with zs := g.zs.set 0 z.toNat (BitVec.ofNat 512 v) }
  | .ld w => s.putIn takers w.vd (loadedOut w.type v)
  | .ldv w => s.putIn takers w.vd (.words (wordsOf w.vcount v))
  | .tld w => s.putIn takers w.vd (.tw ⟨BitVec.ofNat 64 v, tag⟩)
  | _ => s

/-- The registers of an atomic's result. -/
def State.atomWrites (s : State) (a : AtomReq) (o : AtomOut) : State :=
  match a.dest with
  | some d => s.putIn a.takers (BitVec.ofNat 11 d) (atomOut a.type a.form o.old)
  | none => s

/-- Earlier accesses of the group to the same place come first (R180), but for an atomic declared .NOR (R307). -/
def State.accWaits (s : State) (a : Access) (c : Acc) : Bool :=
  let g := s.grp
  c.atom.all (·.use != 3)
    && (heldAt (g.accesses.takeWhile fun x => x.id != a.id) c.spot || (c.space == 0 && s.atomOn g (c.at_ / 128)))

/-- What an access on its way comes to. -/
inductive Performed where
  /-- Not performed yet. -/
  | later (s : State)
  | done (s : State)
  /-- The request of a scalar atomic has left. -/
  | sent (id : Nat) (s : State)
  | poison (info : Dword)

/-- An access performed, if it can be: a load takes its bytes from the scratchpad or the L1, and asks for the line that it lacks. -/
def State.performAcc (s : State) (a : Access) (c : Acc) : Performed :=
  let k := s.l1Of s.grp.core
  let free := !(s.l1 k).sweeping && decide (s.grp.unack < unackMax)
  if s.accWaits a c then .later s
  else
    match c.atom with
    | some q =>
      if c.space ≠ 0 then
        let (o, s) := s.atomAtScratch ⟨c.space, c.core, c.at_, c.e⟩ q
        if o.poison then .poison (poisonInfo c.space c.e)
        else .done (if s.grp.life == .resident then s.atomWrites q o else s).setEffect
      else if a.sent.isSome || !free then .later s
      else
        let (id, s) := s.sendAtomic q false 0
        .sent id s
    | none =>
      if isScalarStore a.instr then
        if free then .done (s.storeL1 s.cur c.at_ (accessBytes a.instr) c.value (.onPage (.set 0) c.tagged)).noteStore.setEffect
        else .later s
      else
        match if c.space = 0 then s.loadL1 k c.at_ (accessBytes a.instr) c.tagged (poisonInfo 0 c.e)
          else s.loadScratch s.grp ⟨c.space, c.core, c.at_, c.e⟩ (accessBytes a.instr) with
        | .ok v ts => .done (s.landLoad a.instr c.takers v (ts.headD 0))
        | .miss line => .later (s.fetchLine s.cur line false 0 (!a.scalar))
        | .poison info => .poison info
        | _ => .later s

/-- The accesses of a group with one of them changed; one that has nothing left to perform is gone. -/
def Group.setAccess (g : Group) (a : Access) : Group :=
  { g with accesses := (g.accesses.map fun x => if x.id = a.id then a else x).filter fun x => !x.accs.isEmpty }

/-- An access of a group that its launch's end has stopped: it completes (R190 step 3, R342), but has no register left to write. -/
def State.bringsNothing (s : State) (a : Access) (c : Acc) : Bool :=
  s.grp.life != .resident && (a.sent.isSome || (c.atom.isNone && !isScalarStore a.instr))

/-- One access of the executing group's instruction number `id` performed, if it can be; one that meets poison traps by itself (R184,
log 61). -/
def State.performOne (s : State) (id : Nat) (c : Acc) : State :=
  match s.grp.accesses.find? fun x => x.id == id with
  | none => s
  | some a =>
    let rest : Access := { a with accs := a.accs.erase c }
    if s.bringsNothing a c then s.upd fun g => g.setAccess rest
    else
      match s.performAcc a c with
      | .later s => s
      | .done s => s.upd fun g => g.setAccess rest
      | .sent n s => s.upd fun g => g.setAccess { a with sent := some n }
      | .poison info =>
        (s.upd fun g => g.setAccess rest).meetLate s.cur a.inHandler ⟨a.scalar, a.frag, a.pc, info, .access { a with accs := [c], sent := none }⟩

/-- The accesses of an instruction that are on their way are performed, as far as they can be. -/
def State.runAccess (s : State) (k id : Nat) : State :=
  match (s.group k).accesses.find? fun x => x.id == id with
  | none => s
  | some a => { a.accs.foldl (fun (s : State) c => s.performOne id c) { s with cur := k } with cur := s.cur }

end Sys2Proof.Machine
end

