-- ==== Sys2Proof/Machine/Ahead.lean ====
section
/-!
DEFINITION. Atomics that a lane stream issues ahead of the instruction it stands at (R307), and the merging of RED.COM requests (R308).
-/
namespace Sys2Proof.Machine

/-! ### The instruction after the ones issued -/

/-- The lane instruction at an address of the executing group's lane section. -/
def State.laneAt (s : State) (pc : Dword) : Option Instr :=
  if !inSection (s.recordOf s.grp).lcode (s.recordOf s.grp).llen pc then none
  else
    match s.fetchAt s.grp pc 12 with
    | .ok bytes =>
      match decodeBytes true bytes with
      | .ok i => some i
      | .error _ => none
    | _ => none

/-- Address of the first instruction that the current fragment has not issued. -/
def Fragment.nextPc (f : Fragment) : Dword := f.pc + BitVec.ofNat 64 (12 * (1 + f.ahead))

/-- No register that one of two instructions writes is named by the other. -/
def apart (i j : Instr) (w : Nat) : Bool :=
  let meet := fun (xs ys : List (Nat × Nat)) => xs.any fun x => ys.any fun y => rangesMeet x y
  !meet (i.dests w) (j.named w) && !meet (j.dests w) (i.named w)

/-- The order of a memory instruction (R57); none for another instruction. -/
def memOrder (i : Instr) : Option Nat :=
  match i with
  | .ld w | .st w | .atom w | .cas w | .red w | .fatom w | .lres w | .scond w => some w.order.toNat
  | .ldv _ | .stv _ | .tld _ | .tst _ => some 0
  | _ => none

/-- Atomic `w` may take effect before instruction `i`, at which the stream stands (R307): one declared .SPC before an acquire that has not
completed, one declared .NOR before a relaxed access. -/
def State.mayLead (s : State) (i : Instr) (w : LaneOps) : Bool :=
  w.order == 0 && ((w.use == 5 && s.grp.waitL == .acquire) || (w.use == 3 && memOrder i == some 0 && !s.grp.stream.frag.issued))

/-- The current fragment parks at the instruction after those it has issued, which stands at the address of its entry (R122). -/
def LaneStream.parksNext (l : LaneStream) : Bool := (l.topEntry l.frag.mask).any fun e => e.addr == l.frag.nextPc

/-- A trap, a fault, a pre-emption or an overdue watchdog holds the lane stream (R126, R190, R196, R200): it finishes what it has begun
and issues nothing else. -/
def State.laneBound (s : State) : Bool := s.grp.laneHeld || (s.overdue s.grp).isSome

/-- The atomic that the executing group's lane stream may issue ahead of the instruction it stands at. -/
def State.leading (s : State) : Option (Instr × LaneOps × AtomKind) :=
  let g := s.grp
  let f := g.stream.frag
  if !g.laneRuns || s.laneBound || !g.poisonDue.isEmpty || g.stream.parksNext then none
  else
    match s.laneAt f.pc, s.laneAt f.nextPc with
    | some i, some j =>
      match atomicForm j with
      | some (w, k) => if apart i j g.w && s.mayLead i w then some (j, w, k) else none
      | none => none
    | _, _ => none

/-- The group as the later instruction finds it: its fragment stands there, and nothing is marked for it. -/
def Group.movedOn (g : Group) : Group :=
  let l := g.stream
  { g.clearMarks.setStream (l.setFrag l.cur { l.frag with pc := l.frag.nextPc, ahead := 0, issued := false }) with waitL := .none }

/-- The group after it: the fragment stands again at the instruction it stood at, `g`; the slots are used (R118). -/
def Group.movedBack (t g : Group) (slots : Nat) : Group :=
  let l := t.stream
  let f := g.stream.frag
  let l := (l.setFrag l.cur { f with ahead := f.ahead + 1 }).charge slots
  { (t.putMarks g.marksOf).setStream l with waitL := g.waitL, work := t.work + slots }

/-- The atomic after the instructions issued is issued ahead. -/
def State.leadAtomic (s : State) : State :=
  match s.leading with
  | none => s
  | some (j, w, k) =>
    let m := s.upd Group.movedOn
    match earlyAtomic j w k m with
    | none => s
    | some t => t.upd fun x => x.movedBack s.grp (laneSlots w m)

/-! ### Merging (R308) -/

/-- Two RED.COM requests of one operation and type to one word that have not reached its site. -/
def AtomReq.joins (a b : AtomReq) : Bool :=
  a.use == 2 && b.use == 2 && a.form == 0 && b.form == 0 && a.dest.isNone && b.dest.isNone
    && a.op == b.op && a.type == b.type && a.pa == b.pa && a.size == b.size

/-- The ways of two sectors to a home sector share a hop: they start in one sector, or neither is the home's and one of them comes over
the die-to-die link, or round the ring past a failed link (R297, R308, log 59). -/
def State.sharesHop (s : State) (a b home : Nat) : Bool :=
  a == b || (a != home && b != home && (a / 3 != home / 3 || b / 3 != home / 3 || !s.directLink a home || !s.directLink b home))

/-- The L1s that sent a request and those merged into it. -/
def Req.sources (r : Req) : List Nat :=
  match r.kind with
  | .atomic a => r.l1 :: a.joined.map (·.l1)
  | _ => [r.l1]

/-- They meet: at one L1, or at a hop of the ways they share (R308); so do any two of the requests that they were merged from. -/
def State.meet (s : State) (r q : Req) : Bool :=
  r.stage == .waiting && q.stage == .waiting && r.slice == q.slice && r.sources.all fun a => q.sources.all fun b =>
    a == b || s.sharesHop (sectorOfL1 a) (sectorOfL1 b) (s.homeSector (128 * r.line))

/-- Two requests that meet become one, which reaches the site when the later one does: the operands are combined, a sum of floats
rounded once (R308). -/
def State.mergeReqs (s : State) (first second : Nat) : State :=
  let late := match s.req? first, s.req? second with
    | some r, some q => decide (r.arrived < q.arrived)
    | _, _ => false
  let id := if late then second else first
  let other := if late then first else second
  match s.req? id, s.req? other with
  | some r, some q =>
    match r.kind, q.kind with
    | .atomic a, .atomic b =>
      if id ≠ other ∧ a.joins b ∧ s.meet r q then
        let m := 2 ^ (8 * a.size)
        let v := atomValue a.op a.type a.size (a.operand.value.toNat % m) (b.operand.value.toNat % m)
        let a := { a with operand := ⟨BitVec.ofNat 64 v, 0⟩, joined :=
          a.joined ++ ⟨other, q.l1, q.group, b.thread, b.frag, b.pc, b.va, b.inHandler, b.own⟩ :: b.joined }
        let x := s.slice q.slice
        let x := { x with queue := x.queue.filter (· != other), held := x.held.filter (· != other) }
        ((s.setReq id (some { r with kind := .atomic a })).setSlice q.slice x).setReq other none
      else s
    | _, _ => s
  | _, _ => s

end Sys2Proof.Machine
end

