-- ==== Sys2Proof/Machine/SliceService.lean ====
section
/-!
DEFINITION. The service of tenants in a slice (R291 to R293, R315), cycle by cycle of the die clock, and the passing of time (R351).
-/
namespace Sys2Proof.Machine

/-- Tokens a request costs (R291). -/
def Req.cost (r : Req) : Nat :=
  match r.kind with
  | .read => 2
  | .prefetch => 2
  | .write _ mask _ _ _ =>
    bitOf (mask.setWidth 64 != (0 : BitVec 64)) + bitOf ((mask >>> 64).setWidth 64 != (0 : BitVec 64))
  | _ => 1

/-- The oldest waiting request of a context. -/
def State.oldestOf (s : State) (x : Slice) (ctx : Nat) : Option (Nat × Req) :=
  (x.queue.filterMap fun id => (s.req? id).map fun r => (id, r)).find? fun y => y.2.context == ctx

/-- The context pays, or is not throttled (R293 step 1). -/
def SliceContext.pays (c : SliceContext) (cost : Nat) : Bool := c.rate == 0 || decide (cost ≤ c.tokens.toNat)

/-- The context may borrow (R293 step 2). -/
def SliceContext.borrows (c : SliceContext) (cost : Nat) : Bool :=
  decide (c.debt.toNat + cost ≤ c.borrow.toNat) || (c.tokens == c.depth && c.debt == 0 && decide (c.depth.toNat < cost))

/-- The context's record after a request is served under a step. -/
def SliceContext.charge (c : SliceContext) (cost : Nat) (paying : Bool) : SliceContext :=
  if paying then { c with tokens := c.tokens - BitVec.ofNat 16 cost }
  else if c.debt.toNat + cost ≤ c.borrow.toNat then { c with debt := c.debt + BitVec.ofNat 16 cost }
  else { c with tokens := 0, debt := BitVec.ofNat 16 cost - c.tokens }

/-- The first context from a pointer on, modulo 64, whose oldest request satisfies a condition. -/
def State.roundRobin (s : State) (k from_ : Nat) (ok : SliceContext → Req → Bool) : Option (Nat × Nat × Req) :=
  ((List.range 64).map fun i => (from_ + i) % 64).findSome? fun ctx =>
    match s.oldestOf (s.slice k) ctx with
    | some (id, r) => if ok (s.acting k ctx) r then some (ctx, id, r) else none
    | none => none

/-- A request granted under a step. -/
def State.grant (s : State) (k ctx id : Nat) (r : Req) (paying : Bool) : State :=
  let x := s.slice k
  let c := x.contexts.get SliceContext.start ctx
  let c := if (s.acting k ctx).rate = 0 then c else c.charge r.cost paying
  let x := { x with contexts := x.contexts.set SliceContext.start ctx c, queue := x.queue.filter (· != id) }
  (s.setSlice k (if paying then { x with payNext := (ctx + 1) % 64 } else { x with borrowNext := (ctx + 1) % 64 })).setReq id
    (some { r with stage := .granted })

/-- A step's selection: the step, and the request it serves if it fits into the cycle's tokens left (R293). -/
def State.selection (s : State) (k left : Nat) : Bool × Option (Nat × Nat × Req) :=
  let x := s.slice k
  let fits : Req → Bool := fun r => decide (r.cost ≤ left)
  if (s.roundRobin k x.payNext fun c r => c.pays r.cost).isSome then
    (true, s.roundRobin k x.payNext fun c r => c.pays r.cost && fits r)
  else (false, s.roundRobin k x.borrowNext fun c r => c.borrows r.cost && fits r)

/-- Contexts whose oldest request is eligible now, under step 1 or, where none is, under step 2 (R293). -/
def State.eligible (s : State) (k : Nat) : List Nat :=
  let paying := (s.selection k 0).1
  (List.range 64).filter fun ctx =>
    match s.oldestOf (s.slice k) ctx with
    | some (_, r) => (s.acting k ctx).pays r.cost || (!paying && (s.acting k ctx).borrows r.cost)
    | none => false

/-- Selection within one cycle with `left` tokens, at most `n` times more, both steps evaluated afresh after each request served
(R293); and the contexts that were eligible meanwhile. -/
def State.serveSlice (s : State) (k : Nat) : Nat → Nat → State × List Nat
  | 0, _ => (s, s.eligible k)
  | n + 1, left =>
    match s.selection k left with
    | (paying, some (ctx, id, r)) =>
      let (t, more) := (s.grant k ctx id r paying).serveSlice k n (left - r.cost)
      (t, s.eligible k ++ more)
    | (_, none) => (s, s.eligible k)

/-- SLWAIT of the contexts that have a request waiting and were eligible under neither step in the cycle (R290, R315). -/
def State.countWaits (s : State) (k : Nat) (eligible : List Nat) : State :=
  let x := s.slice k
  let ctxs := (List.range 64).filter fun ctx => (s.oldestOf x ctx).isSome && !eligible.contains ctx
  s.setSlice k { x with contexts := ctxs.foldl (fun (t : Table SliceContext) ctx =>
    let c := t.get SliceContext.start ctx
    t.set SliceContext.start ctx { c with wait := c.wait + 1 }) x.contexts }

/-- The requests served in one cycle, as many as its 4 tokens reach for; those that cost nothing use up none (R293, R315). -/
def State.serve (s : State) (k : Nat) : State :=
  let (t, e) := s.serveSlice k ((s.slice k).queue.length + 1) 4
  let t := t.countWaits k e
  t.setSlice k { t.slice k with served := true }

/-- `n` whole tokens given to a context: repayment first, a full bucket drops them (R292). -/
def SliceContext.give (c : SliceContext) (n : Nat) : SliceContext :=
  let repaid := min n c.debt.toNat
  let room := c.depth.toNat - c.tokens.toNat
  { c with debt := c.debt - BitVec.ofNat 16 repaid, tokens := c.tokens + BitVec.ofNat 16 (min (n - repaid) room) }

/-- The refill of a throttled context in `n` cycles (R292). -/
def SliceContext.refill (c : SliceContext) (n : Nat) : SliceContext :=
  if c.rate = 0 then c
  else
    let credit := c.credit + n * c.rate.toNat
    ({ c with credit := credit % 256 }).give (credit / 256)

/-- The refill of `n` cycles, which are then over. A context whose partition does not own the slice acts as RATE 0 and is not
refilled (R292, R347). -/
def State.refillSlice (s : State) (k n : Nat) : State :=
  let x := s.slice k
  let one : Nat × SliceContext → Nat × SliceContext := fun c => if (s.acting k c.1).rate = 0 then c else (c.1, c.2.refill n)
  s.setSlice k { x with
    contexts := (x.contexts.map one).filter fun c => c.2 != SliceContext.start, cycle := x.cycle + n, served := false }

/-- `n` whole cycles of a slice (R291): service and refill by turns while requests wait, refill alone after that. -/
def State.sliceCycles (k : Nat) : Nat → State → State
  | 0, s => s
  | n + 1, s =>
    if (s.slice k).queue.isEmpty then s.refillSlice k (n + 1)
    else
      let t := if (s.slice k).served then s else s.serve k
      sliceCycles k n (t.refillSlice k 1)

/-- Time passes (R291, R351): `ns` nanoseconds, or more where a slice has passed more cycles already; every slice that has work
passes the cycles of that time. -/
def State.passTime (s : State) (ns : Nat) : State :=
  let ahead := s.slices.foldl (fun m x => max m x.2.cycle) 0
  let ns := max ns ((ahead - s.clock + 2) / 3)
  let s := { s with hostTime := s.hostTime + ns, clock := s.clock + 3 * ns }
  s.slices.foldl (fun s x => State.sliceCycles x.1 (s.clock - (s.slice x.1).cycle) s) s

end Sys2Proof.Machine
end

