-- ==== Sys2Proof/Machine/System.lean ====
section
/-!
DEFINITION. System instructions and the control and status registers (R87 to R91, R194), with time (R351), the dimmer (R353)
and the fade (R355).
-/
namespace Sys2Proof.Machine

/-! ### Fade and dimmer -/

/-- The level of ramp-up step k (R355). -/
def rampLevel (t k : Nat) : Nat := 1 + k * (t - 1) / 7

/-- A launch's limit on its islands (R353, R355), and whether its ramp sets it; none during the ramp-down. -/
def Launch.limit (l : Launch) : Option (Nat × Bool) :=
  match l.fade.phase with
  | 2 => none
  | 1 => some (rampLevel l.record.ftarget l.fade.step, true)
  | _ => some (l.record.ftarget, false)

/-- The limits of the launches with a group resident on a cluster. -/
def State.launchLimits (s : State) (cluster : Nat) : List (Nat × Bool) :=
  s.launches.filterMap fun x =>
    match x.2 with
    | none => none
    | some l =>
      if s.groups.any fun g => g.2.launch == x.1 && g.2.life == .resident && clusterOfCore g.2.core == cluster then l.limit
      else none

/-- A partition's power cap in W (R346); 0 means none. -/
def State.capOf (s : State) (p : Nat) : Nat := (s.partUnit p 9).toNat % 65536

/-- Partitions with a launch resident on a cluster. -/
def State.partitionsOn (s : State) (cluster : Nat) : List Nat :=
  (List.range 16).filter fun p =>
    s.groups.any fun g => g.2.life == .resident && clusterOfCore g.2.core == cluster && s.partitionOf g.2 == p

/-- The partition limit of an island (R347, R353): the lowest of the partitions with a launch there that have a cap. -/
def State.partLimit (s : State) (cluster : Nat) : Nat :=
  (s.partitionsOn cluster).foldl (fun m p => if s.capOf p = 0 then m else min m ((s.island cluster).part.get 7 p)) 7

/-- LEVEL of a cluster's island (R353). -/
def State.level (s : State) (cluster : Nat) : Nat :=
  let i := s.island cluster
  let base := min (min i.cap i.thermal) (min (s.partLimit cluster) i.row)
  min 7 ((s.launchLimits cluster).foldl (fun m x => min m x.1) base)

/-- DIMMER (R90, R353). -/
def State.dimmer (s : State) (cluster : Nat) : Word :=
  let i := s.island cluster
  let v := s.level cluster
  let bit : Nat → Nat → Nat := fun k limit => if limit < 7 ∧ limit = v then 2 ^ k else 0
  let fade := (s.launchLimits cluster).any fun x => x.2 && decide (x.1 < 7) && x.1 == v
  BitVec.ofNat 32 (bit 15 i.cap + bit 14 i.thermal + bitOf fade * 2 ^ 13 + bit 12 (s.partLimit cluster) + bit 11 i.row + v)

/-- Step length in units of 10 ns; 0 selects 200 (R337, R355). -/
def LaunchRecord.step (r : LaunchRecord) : Nat := if r.steplen = 0 then 200 else r.steplen

/-- FADE (R90, R355). -/
def Launch.fadeWord (l : Launch) : Word :=
  BitVec.ofNat 32 (l.fade.phase * 2 ^ 30 + l.record.ftarget * 2 ^ 27 + l.fade.step * 2 ^ 24 + l.record.step * 2 ^ 8)

/-! ### Time -/

/-- Guest time of a partition from host time (R351), TSCALE 0 read as 1.0 (R346). -/
def State.guestTime (s : State) (p : Nat) : Dword :=
  let scale := if s.partUnit p 12 = 0 then 2 ^ 32 else (s.partUnit p 12).toNat
  let g : Int := (s.hostTime * scale / 2 ^ 32 : Nat) + (s.partUnit p 13).toInt
  BitVec.ofInt 64 (max ((s.part p).floor.toNat : Int) g)

/-- Host time moves on by a free amount, and the slices with it (R291, log 9). -/
def State.tickTime (s : State) : State := { s.passTime (Config.freeTicks s.free) with free := s.free + 1 }

/-- The clock of an island moves on by a free amount (log 9). -/
def State.tickIsland (s : State) (c : Nat) : State :=
  let i := s.island c
  { s with islands := s.islands.set Island.start c { i with cycles := i.cycles + Config.freeTicks s.free }, free := s.free + 1 }

/-! ### Reading a CSR (R88 to R90) -/

/-- A 64-bit CSR by the number of its LO half, with the state its reading leaves. -/
def State.csr64 (s : State) (n : Nat) : Option (Dword × State) :=
  let g := s.grp
  match n with
  | 0x000 =>
    let s := s.tickIsland (clusterOfCore g.core)
    some (BitVec.ofNat 64 (s.island (clusterOfCore g.core)).cycles, s)
  | 0x002 =>
    let s := s.tickTime
    some (s.guestTime (s.partitionOf g), s)
  | 0x004 => some (((s.launch? g.launch).map (·.energy)).getD 0, s)
  | 0x00A => some (g.termBase, s)
  | 0x00C => some (g.termLim, s)
  | 0x012 => some (g.trapPc, s)
  | 0x014 => some (g.trapInfo, s)
  | _ => none

/-- A 32-bit CSR. -/
def State.csr32 (s : State) (n : Nat) : Option Word :=
  let g := s.grp
  match n with
  | 0x006 => some (s.dimmer (clusterOfCore g.core))
  | 0x007 => some (((s.launch? g.launch).map Launch.fadeWord).getD 0)
  | 0x008 => some g.sticky
  | 0x009 => some (((s.launch? g.launch).map (·.launchId)).getD 0)
  | 0x00E => some g.wingBase
  | 0x00F => some g.wingSize
  | 0x010 => some g.rndMode
  | 0x011 => some g.trapCause
  | _ => none

/-- A CSR number R88 assigns. -/
def csrAssigned (n : Nat) : Bool := decide (n ≤ 0x015)
/-- The HI half of a 64-bit CSR. -/
def csrHi (n : Nat) : Bool := n == 1 || n == 3 || n == 5 || n == 0xB || n == 0xD || n == 0x13 || n == 0x15

/-- The latches of the group, or the handler's own (R89). -/
def Group.latches (g : Group) : Word × Word :=
  match g.handler with
  | some h => (h.readLatch, h.writeLatch)
  | none => (g.readLatch, g.writeLatch)

def Group.setLatches (g : Group) (r w : Word) : Group :=
  match g.handler with
  | some h => { g with handler := some { h with readLatch := r, writeLatch := w } }
  | none => { g with readLatch := r, writeLatch := w }

/-- SCSRR (R87, R89). -/
def execScsrr (sd : SReg) (csr : BitVec 12) (s : State) : Ans :=
  issueScalar (.scsrr sd csr) s fun s =>
    let n := csr.toNat
    if !csrAssigned n then .trap cILLOP (csr.setWidth 64) s
    else if csrHi n then .done (s.upd fun g => g.wrS sd.toNat g.latches.1)
    else
      match s.csr64 n with
      | some (v, s) => .done (s.upd fun g => (g.setLatches (hiHalf v) g.latches.2).wrS sd.toNat (loHalf v))
      | none => .done (s.upd fun g => g.wrS sd.toNat ((s.csr32 n).getD 0))

/-! ### Writing a CSR (R87 to R91) -/

/-- Some thread of the group has live wings entries (R91). -/
def Group.wingsLive (g : Group) : Bool := g.threads.any fun x => x.2.wtop != 0

/-- Values of WINGSIZE.K that a write may give (R90, R395). -/
def State.wingSizeOk (s : State) (k : Nat) : Bool := k == 0 || (decide (4 ≤ k) && decide (k ≤ 8) && s.feature 2)

/-- SCSRW (R87, R89, R90, R91). -/
def execScsrw (ss : SReg) (csr : BitVec 12) (s : State) : Ans :=
  issueScalar (.scsrw ss csr) s fun s =>
    let n := csr.toNat
    let g := s.grp
    let v := s.sreg ss
    let latch : Res := .done (s.upd fun g => g.setLatches g.latches.1 v)
    let whole : Dword := pairOf g.latches.2 v
    if !csrAssigned n then .trap cILLOP (csr.setWidth 64) s
    else
      match n with
      | 0x008 => .done (s.setGrp { g with sticky := g.sticky &&& ~~~v })
      | 0x00A => latch
      | 0x00C => latch
      | 0x012 => latch
      | 0x00B => .done (s.setGrp { g with termBase := whole &&& ~~~7 })
      | 0x00D => .done (s.setGrp { g with termLim := whole &&& ~~~7 })
      | 0x013 => .done (s.setGrp { g with trapPc := whole })
      | 0x00E =>
        if g.wingsLive then .trap cPROT (csr.setWidth 64) s else .done (s.setGrp { g with wingBase := v &&& 0x001FFFF0 })
      | 0x00F =>
        if g.wingsLive then .trap cPROT (csr.setWidth 64) s
        else .done (s.setGrp (if s.wingSizeOk (v.toNat % 16) then { g with wingSize := v &&& 15 } else g))
      | 0x010 => .done (s.setGrp (if v.toNat % 8 ≤ 4 then { g with rndMode := v &&& 7 } else g))
      | _ => .done s

/-! ### Traps and return (R87, R194) -/

/-- STRAP (R87). -/
def execStrap (code : BitVec 18) (s : State) : Ans :=
  issueScalar (.strap code) s fun s => .trap cSWTRAP (code.setWidth 64) s

/-- SBRK (R87). -/
def execSbrk (code : BitVec 18) (s : State) : Ans :=
  issueScalar (.sbrk code) s fun s => .trap cBREAK (code.setWidth 64) s

/-- A late access is taken again (R184, R194): an atomic's step is sent, another access is on its way once more. -/
def State.takeAgain (s : State) (x : Again) : State :=
  match x with
  | .step a =>
    let (id, s) := s.sendAtomic a false 0
    s.upd fun g => { g with reqs := g.reqs ++ [(id, a.thread)] }
  | .access a => s.pend a

/-- Late accesses after the return from the trap of one of them: at an unchanged TRAPPC those of its instruction are taken again, in the
threads that met poison alone; at another they are given up. One of another instruction that met poison traps next (log 61). -/
def State.resumeLate (s : State) (t : TrapInfo) : State :=
  let g := s.grp
  let mine : Late → Bool := fun a => t.late && a.scalar == !t.lane && a.pc == t.pc && a.frag == t.frag
  let again := if g.trapPc = t.pc then g.lates.filter mine else []
  let s := s.setGrp { g with lates := g.lates.filter fun a => !mine a }
  (again.foldl (fun (s : State) a => s.takeAgain a.again) s).raiseLate s.cur

/-- STRET (R194): outside a handler it is illegal; it waits for the handler's lane block. -/
def execStret (s : State) : Ans :=
  issueScalar .stret s fun s =>
    match s.grp.handler with
    | none => .trap cILLOP (opcodeInfo .stret) s
    | some h =>
      if h.lane.running || !s.grp.accesses.isEmpty then s.hold .handlerBlock else .jump ((s.returnFromTrap s.cur h).resumeLate h.trap)

/-- SNOP (R87). -/
def execSnop (s : State) : Ans := .next (s.upd Group.advance)

end Sys2Proof.Machine
end

