-- ==== Sys2Proof/Machine/Width.lean ====
section
/-!
DEFINITION. Register windows in a core's register area (R32, R173, R174) and the width instructions (R136 to R143).
-/
namespace Sys2Proof.Machine

/-! ### Windows in the register area -/

/-- Bytes of a group's window (R32). -/
def Group.windowBytes (g : Group) : Nat := g.w * g.n * 4

/-- Bytes of the register area of a core as admitted (R172). -/
def State.registerArea (s : State) (core : Nat) : Nat :=
  match (s.core core).partition with
  | some (_, r) => r * 65536
  | none => 0

/-- The lowest base for a window of `bytes` and a unify area of `unify` beside the windows of a core's residents, the group
`without` left out (log 17). -/
def State.placeWindow (s : State) (core bytes unify : Nat) (without : Option Nat) : Option Nat :=
  let others := (s.residents core).filter fun x => some x.1 != without
  let area := s.registerArea core
  let windows := others.map fun x => (x.2.rwb, x.2.rwb + x.2.windowBytes)
  let unified := others.foldl (fun n x => n + x.2.area) unify
  let total := others.foldl (fun n x => n + x.2.windowBytes) bytes
  let fits : Nat → Bool := fun b =>
    decide (b + bytes + unified ≤ area) && windows.all fun x => decide (b + bytes ≤ x.1) || decide (x.2 ≤ b)
  let candidates := (0 :: windows.map (·.2)).filter fits
  if total + unified ≤ area then candidates.min? else none

/-- Entries of a window relaid from `n` to `n'` cells a thread (R141). -/
def relay {β : Type} [DecidableEq β] (d : β) (t : Table β) (base n base' n' w : Nat) : Table β :=
  let old := t.slice base (base + w * n)
  let t := (t.clear base (base + w * n)).clear base' (base' + w * n')
  old.foldl (fun t x => t.set d (base' + x.1 / n * n' + x.1 % n) x.2) t

/-- The window of a group moved to a base with a larger size (R141). -/
def State.growWindow (s : State) (k base n' : Nat) : State :=
  let g := s.group k
  let c := s.core g.core
  let s := s.setCore g.core { c with
    regs := relay 0 c.regs (g.rwb / 4) g.n (base / 4) n' g.w
    regTags := relay 0 c.regTags (g.rwb / 8) (g.n / 2) (base / 8) (n' / 2) g.w }
  s.setGroup k { g with rwb := base, n := n' }

/-- The lowest free resident place of a core (R14). -/
def State.freePlace (s : State) (core : Nat) : Option Nat :=
  (List.range 64).find? fun p => !(s.residents core).any fun x => x.2.place == p

/-- A group number not in use. -/
def State.newKey (s : State) : Nat := s.groups.foldl (fun m x => max m (x.1 + 1)) 0

/-! ### Common conditions (R136) -/

/-- The wait of R136; no access or atomic has a register still to write. -/
def Group.widthReady (g : Group) : Bool := g.laneIdle && g.syncIdle && g.unack == 0 && g.accesses.isEmpty && g.reqs.isEmpty

/-- A guard slot is pending. -/
def Group.anyPending (g : Group) : Bool := g.guards.any fun x => x.2 == .pending

/-! ### WSPLIT (R138) -/

/-- `count` threads from position `start` of an origin list whose first segment stands at `at_` (R36). -/
def sliceOrigin (start count : Nat) : Nat → List (Nat × Nat × Nat) → List (Nat × Nat × Nat)
  | _, [] => []
  | at_, (k, t0, c) :: rest =>
    let lo := max at_ start
    let hi := min (at_ + c) (start + count)
    let tail := sliceOrigin start count (at_ + c) rest
    if lo < hi then (k, t0 + (lo - at_), hi - lo) :: tail else tail

/-- The part of a handler's understudy that belongs to a child's threads (R191). -/
def Handler.child (h : Handler) (lo wc : Nat) : Handler :=
  { h with
    regs := h.regs.slice (lo * 64) ((lo + wc) * 64), tags := h.tags.slice (lo * 32) ((lo + wc) * 32)
    preds := h.preds.slice lo (lo + wc), marks := h.marks.slice lo (lo + wc), lane := .idle wc }

/-- Child k of a split into c (R36, R138, R143); what the group has used since the last update of the energy counts stays with child 0
(R356). A deferred POISON that waits for a lane instruction (R239) goes to every child: R143 does not name it (log 76). -/
def Group.child (g : Group) (c k place : Nat) (sd : SReg) : Group :=
  let wc := g.w / c
  let lo := k * wc
  let x := { g with
    w := wc, rwb := g.rwb + lo * g.n * 4, area := g.area / c, place := place
    datapath := g.datapath / 4 * 4 + (g.datapath + k) % 4
    threads := g.threads.slice lo (lo + wc), origin := sliceOrigin lo wc 0 g.origin
    lane := .idle wc, laneQ := [], copyQ := [], fabQ := [], effect := false, region := .absent
    wingBase := (g.wingBase + BitVec.ofNat 32 (lo * 2 ^ (g.wingSize.toNat % 16) * 16)) &&& 0x001FFFF0
    handler := g.handler.map (fun h : Handler => h.child lo wc) }
  let y := (x.wrS sd.toNat (BitVec.ofNat 32 k)).advance
  if k = 0 then y else { y with work := 0, served := 0 }

/-- A failure code (R138). -/
def splitFailure (code : Nat) : Word := BitVec.ofNat 32 (0x80000000 + code)

/-- The first failure of WSPLIT's checks (R138). -/
def State.splitCheck (s : State) (ways : Nat) : Option Nat :=
  let g := s.grp
  if g.w / ways < 8 then some 3
  else if g.effect || g.anyPending then some 8
  else if g.engOut != 0 || !g.matIdle then some 5
  else if 64 < (s.residents g.core).length + (ways - 1) then some 9
  else none

/-- The executing group split (R36, R138); child 0 keeps its number and place. The launch keeps the cycles that the group has been
resident, and those of the children are counted from now (R356). -/
def State.split (s : State) (c : Nat) (sd : SReg) : State :=
  let span := s.span s.grp
  let g := { s.grp with since := s.clock }
  let s := (List.range (c - 1)).foldl (fun (s : State) i =>
    s.setGroup s.newKey (g.child c (i + 1) ((s.freePlace g.core).getD 0) sd)) s
  let s := s.setGrp (g.child c 0 g.place sd)
  let s := s.clearResvs s.cur
  match s.launch? g.launch with
  | some l => s.setLaunch g.launch (some { l with left := l.left + (c - 1), cycles := l.cycles + span })
  | none => s

/-- WSPLIT (R138). -/
def execWsplit (sd : SReg) (ways : BitVec 18) (s : State) : Ans :=
  issueScalar (.wsplit sd ways) s fun s =>
    if !s.grp.widthReady then s.hold .width
    else
      match s.splitCheck ways.toNat with
      | some code => .done (s.upd fun g => g.wrS sd.toNat (splitFailure code))
      | none => .jump (s.split ways.toNat sd)

/-! ### WFUSE (R139) -/

/-- The first failing check of a match (R139). -/
def fuseCheck (a b : Group) : Option Nat :=
  let busy : Group → Bool := fun g => g.effect || g.anyPending
  let out : Group → Bool := fun g => g.engOut != 0 || !g.matIdle
  let terms : Group → Bool := fun g => g.threads.any fun x => x.2.wtop != 0 || x.2.ctop != 0 || !x.2.ustack.isEmpty
  if a.launch ≠ b.launch then some 7
  else if a.w ≠ b.w ∨ 2 * a.w > 128 then some 3
  else if a.n ≠ b.n then some 2
  else if a.rwb ≠ b.rwb + b.windowBytes ∧ b.rwb ≠ a.rwb + a.windowBytes then some 1
  else if busy a || busy b then some 8
  else if out a || out b then some 5
  else if terms a || terms b then some 6
  else none

/-- A group leaves WFUSE with a value in its sd. -/
def Group.leaveFuse (g : Group) (sd : SReg) (v : Word) : Group := { (g.wrS sd.toNat v).advance with fuse := none }

/-- The fused group (R37, R143). A deferred POISON that waits for a lane instruction (R239) stays if it is the lower group's, and is dropped
if it is the upper's: R143 does not name it (log 76). -/
def Group.fused (lo up : Group) (sd : SReg) : Group :=
  let x := { lo with
    w := 2 * lo.w, area := lo.area + up.area, threads := lo.threads ++ up.threads.shift lo.w, origin := lo.origin ++ up.origin
    lane := .idle (2 * lo.w), effect := false, region := .absent, sticky := lo.sticky ||| up.sticky }
  x.leaveFuse sd 0

/-- A matched pair: both take the failure's code, or the lower group continues as the fused one and the upper retires. -/
def State.fuseWith (s : State) (k : Nat) (sd sdk : SReg) : State :=
  let a := s.grp
  let b := s.group k
  match fuseCheck a b with
  | some code =>
    (s.setGroup k (b.leaveFuse sdk (BitVec.ofNat 32 code))).setGrp (a.leaveFuse sd (BitVec.ofNat 32 code))
  | none =>
    let s := (s.clearResvs s.cur).clearResvs k
    if a.rwb < b.rwb then (s.setGrp (a.fused b sd)).retire k
    else (s.setGroup k (b.fused a sdk)).retire s.cur

/-- The oldest other group waiting in WFUSE on the core with the tag. -/
def State.fusePartner (s : State) (tag : BitVec 12) : Option (Nat × FuseWait) :=
  (s.residents s.grp.core).foldl (fun best x =>
    match x.2.fuse with
    | none => best
    | some f =>
      if x.1 = s.cur ∨ f.tag ≠ tag then best
      else
        match best with
        | none => some (x.1, f)
        | some (_, b) => if f.arrival < b.arrival then some (x.1, f) else best) none

/-- WFUSE (R139). -/
def execWfuse (sd sa : SReg) (tag : BitVec 12) (s : State) : Ans :=
  issueScalar (.wfuse sd sa tag) s fun s =>
    if s.grp.fuse.isSome then s.hold .width
    else if !s.grp.widthReady then s.hold .width
    else
      match s.fusePartner tag with
      | some (k, f) => .jump (s.fuseWith k sd f.sd)
      | none =>
        if sa != 0 && s.sreg sa == 0 then .done (s.upd fun g => g.wrS sd.toNat 4)
        else
          let (n, s) := s.take
          ((s.waitScalar .width).upd fun g => { g with fuse := some ⟨tag, n, sd⟩ }).hold .width

/-! ### WGROW (R141) -/

/-- WGROW up to its request; the core grants it (R141 step 5). R136 has the instruction wait first and R141 lists its checks first:
here the checks of steps 1 to 3 are made at every attempt. The WGROW column of R143 says that queues are empty, where R136 and R141 wait
for the lane queue alone: here entries of the copy and fabric queues stay (log 66). -/
def execWgrow (n : BitVec 18) (s : State) : Ans :=
  issueScalar (.wgrow n) s fun s =>
    let g := s.grp
    let bytes := g.w * roundN n.toNat * 4
    if g.effect then .trap cILLOP 0x48 s
    else if bytes > s.registerArea g.core then .trap cPROT (BitVec.ofNat 64 bytes) s
    else if roundN n.toNat ≤ g.n then .done s
    else if !g.widthReady then s.hold .width
    else
      let s := s.setGrp g.closeOpen
      let c := s.core g.core
      if !s.grp.matIdle || c.growers.any (fun x => x.1 == s.cur) then s.hold .width
      else (s.setCore g.core { c with growers := c.growers ++ [(s.cur, roundN n.toNat)] }).hold .width

end Sys2Proof.Machine
end

