-- ==== Sys2Proof/Machine/Queues.lean ====
section
/-!
DEFINITION. Scratch queues (R255 to R258, R273).
-/
namespace Sys2Proof.Machine

/-- QUEUE's information (R255). -/
def queueInfo (code queue : Nat) : Dword := BitVec.ofNat 64 (code + 256 * queue)

/-- The binding of a core's queue, if one stands: a binding that has ended binds the queue to nobody (R259). -/
def State.queue? (s : State) (core q : Nat) : Option Queue := ((s.core core).queues.get none q).filter fun x => !x.ended
def State.setQueue (s : State) (core q : Nat) (x : Option Queue) : State :=
  s.setCore core { s.core core with queues := (s.core core).queues.set none q x }

/-- A ring lies in a cast's scratch (R255 code 2). -/
def ringFits (scratchSize offset slots : Nat) : Bool := offset % 4 == 0 && decide (offset + 4 * slots ≤ scratchSize)

/-- A new binding (R255). -/
def State.bindQueue (s : State) (launch core q offset slots : Nat) : State :=
  let (id, s) := s.take
  s.setQueue core q (some
    { id := id, launch := launch, offset := offset, slots := slots, head := 0, tail := 0, filled := 0, free := slots, lost := false, ended := false })

/-- QBIND (R255). -/
def execQbind (sa sb : SReg) (queue : BitVec 6) (s : State) : Ans :=
  issueScalar (.qbind sa sb queue) s fun s =>
    let g := s.grp
    let q := queue.toNat
    let n := (s.sreg sb).toNat
    let off := (s.sreg sa).toNat
    let size := match s.castOn g.launch g.core with
      | some c => c.scratchSize
      | none => 0
    let foreign := match s.queue? g.core q with
      | some x => x.launch != g.launch
      | none => false
    if n > 256 then .trap cQUEUE (queueInfo 3 q) s
    else if foreign then .trap cQUEUE (queueInfo 5 q) s
    else if n = 0 then .done (s.setQueue g.core q none).setEffect
    else if !ringFits size off n then .trap cQUEUE (queueInfo 2 q) s
    else .done (s.bindQueue g.launch g.core q off n).setEffect

/-- The base in the scratchpad area of a cast's scratch. -/
def State.scratchBase (s : State) (launch core : Nat) : Nat :=
  match s.castOn launch core with
  | some c => c.scratch
  | none => 0

/-- A handle written to the slot at the tail (R256). -/
def State.pushHandle (s : State) (core q : Nat) (x : Queue) (v : Word) : State :=
  let at_ := s.scratchBase x.launch core + x.offset + 4 * x.tail
  let c := s.core core
  let s := s.setCore core { c with
    scratch := (List.range 4).foldl (fun m i => m.set 0 (at_ + i) (BitVec.ofNat 8 (v.toNat / 2 ^ (8 * i)))) c.scratch
    scratchTags := c.scratchTags.set 0 (at_ / 8) 0 }
  s.setQueue core q (some { x with tail := (x.tail + 1) % x.slots, free := x.free - 1, filled := x.filled + 1 })

/-- The handle in the slot at the head, and the queue without it (R256). -/
def State.popHandle (s : State) (core q : Nat) (x : Queue) : Word × State :=
  let at_ := s.scratchBase x.launch core + x.offset + 4 * x.head
  let v := BitVec.ofNat 32 (gather (fun i => (s.core core).scratch.get 0 (at_ + i)) 4)
  (v, s.setQueue core q (some { x with head := (x.head + 1) % x.slots, filled := x.filled - 1, free := x.free + 1 }))

/-- What the access to slot `i` of a ring raises: it is a SCRATCH access, which a range lock may block (R187), and a read of a word
tagged POI raises POISON (R204). -/
def State.slotCheck (s : State) (core : Nat) (x : Queue) (i : Nat) (write : Bool) : Option (Nat × Dword) :=
  let e : Dword := BitVec.ofNat 64 (x.offset + 4 * i)
  let at_ := s.scratchBase x.launch core + x.offset + 4 * i
  (s.checkLock s.grp ⟨1, core, at_, e⟩ 4 write).orElse fun _ =>
    if !write && (s.core core).scratchTags.get 0 (at_ / 8) == tagPOI then some (cPOISON, poisonInfo 1 e) else none

/-- A queue instruction's checks: the binding it began to wait on still stands (code 4), the queue is the issuing cast's
(code 1). -/
def withQueue (s : State) (queue : BitVec 6) (k : Queue → Res) : Res :=
  let g := s.grp
  let q := queue.toNat
  let bound := s.queue? g.core q
  let s' := s.setGrp { g with waitQueue := none }
  match g.waitQueue with
  | some id =>
    match bound with
    | some x => if x.id = id then k x else .trap cQUEUE (queueInfo 4 q) s'
    | none => .trap cQUEUE (queueInfo 4 q) s'
  | none =>
    match bound with
    | some x => if x.launch = g.launch then k x else .trap cQUEUE (queueInfo 1 q) s
    | none => .trap cQUEUE (queueInfo 1 q) s

/-- The wait of a queue instruction, on a binding. -/
def queueWait (s : State) (x : Queue) (w : Wait) : Res := (s.upd fun g => { g with waitQueue := some x.id }).hold w

/-- A lost-delivery flag traps once (R273). -/
def withoutLoss (s : State) (queue : BitVec 6) (x : Queue) (k : Res) : Res :=
  if x.lost then
    .trap cQUEUE (queueInfo 6 queue.toNat) (s.setQueue s.grp.core queue.toNat (some { x with lost := false }))
  else k

/-- A push under the release of its scope (R257): the conditions, then the step. -/
def pushRelease (s : State) (x : Queue) (scope : BitVec 3) (k : State → Res) : Res :=
  match s.release scope.toNat false with
  | .done s => k s
  | .wait s => queueWait s x .qpush
  | .trap c i s => .trap c i s

/-- The step of a push made (R256, R258). -/
def State.pushed (s : State) (sa : SReg) (queue : BitVec 6) (x : Queue) : State :=
  let s := (s.pushHandle s.grp.core queue.toNat x (s.sreg sa)).setEffect
  s.upd fun g => { g with waitQueue := none }

/-- The step of a push, if its slot may be written, then the continuation. -/
def pushStep (s : State) (sa : SReg) (queue : BitVec 6) (x : Queue) (k : State → State) : Res :=
  match s.slotCheck s.grp.core x x.tail true with
  | some (c, i) => .trap c i (s.upd fun g => { g with waitQueue := none })
  | none => .done (k (s.pushed sa queue x))

/-- QPUSH (R256, R257). -/
def execQpush (sa : SReg) (scope : BitVec 3) (queue : BitVec 6) (s : State) : Ans :=
  issueScalar (.qpush sa scope queue) s fun s =>
    withQueue s queue fun x =>
      pushRelease s x scope fun s => if x.free = 0 then queueWait s x .qpush else pushStep s sa queue x id

/-- QTRY.PUSH (R256, R257). -/
def execQtryPush (sd sa : SReg) (scope : BitVec 3) (queue : BitVec 6) (s : State) : Ans :=
  issueScalar (.qtryPush sd sa scope queue) s fun s =>
    withQueue s queue fun x =>
      pushRelease s x scope fun s =>
        if x.free = 0 then .done (s.upd fun g => { g.wrS sd.toNat 0 with waitQueue := none })
        else pushStep s sa queue x fun s => s.upd fun g => g.wrS sd.toNat 1

/-- The step of a pop: the handle is taken once and waits for the acquire of its scope (R257, R258). -/
def popStep (s : State) (queue : BitVec 6) (x : Queue) (scope : BitVec 3) (k : State → Word → State) : Res :=
  withoutClampTrap s scope.toNat fun s =>
    match s.slotCheck s.grp.core x x.head false with
    | some (c, i) => .trap c i (s.upd fun g => { g with waitQueue := none })
    | none =>
      let (v, s) := s.popHandle s.grp.core queue.toNat x
      let s := s.setEffect.upd fun g => { g with answer := some (v.setWidth 64), waitQueue := none }
      acquireThen s scope.toNat fun s => .done (k (s.upd fun g => { g with answer := none }) v)

/-- A pop whose handle is taken already finishes its acquire. -/
def popFinish (s : State) (scope : BitVec 3) (k : State → Word → State) (otherwise : Res) : Res :=
  match s.grp.answer with
  | some v =>
    acquireThen s scope.toNat fun s => .done (k (s.upd fun g => { g with answer := none }) (v.setWidth 32))
  | none => otherwise

/-- QPOP (R256, R257). -/
def execQpop (sd : SReg) (scope : BitVec 3) (queue : BitVec 6) (s : State) : Ans :=
  issueScalar (.qpop sd scope queue) s fun s =>
    let put : State → Word → State := fun s v => s.upd fun g => g.wrS sd.toNat v
    popFinish s scope put <|
      withQueue s queue fun x =>
        withoutLoss s queue x <|
          if x.filled = 0 then queueWait s x .qpop else popStep s queue x scope put

/-- QTRY.POP (R256). -/
def execQtryPop (sd : SReg) (scope : BitVec 3) (queue : BitVec 6) (s : State) : Ans :=
  issueScalar (.qtryPop sd scope queue) s fun s =>
    let put : State → Word → State := fun s v => s.upd fun g => (g.wrS sd.toNat 1).wrS (sd.toNat + 1) v
    popFinish s scope put <|
      withQueue s queue fun x =>
        withoutLoss s queue x <|
          if x.filled = 0 then .done (s.upd fun g => g.wrS sd.toNat 0) else popStep s queue x scope put

/-- QTRY.COUNT (R256). -/
def execQtryCount (sd : SReg) (queue : BitVec 6) (s : State) : Ans :=
  issueScalar (.qtryCount sd queue) s fun s =>
    withQueue s queue fun x =>
      withoutLoss s queue x <|
        .done (s.upd fun g =>
          (g.wrS sd.toNat (BitVec.ofNat 32 x.filled)).wrS (sd.toNat + 1) (BitVec.ofNat 32 x.free))

end Sys2Proof.Machine
end

