-- ==== Sys2Proof/Machine/Commands.lean ====
section
/-!
DEFINITION. Tensor descriptors (R225, R227, R228), the enqueue of copy and fabric commands (R44, R69, R250, R271, R362, R363,
R368) and the waits on their counters (R254, R365).
-/
namespace Sys2Proof.Machine

/-! ### Shape registers (R225 to R228) -/

/-- Bits [lo + n − 1 : lo] of a shape register. -/
def zfield (z : BitVec 512) (lo n : Nat) : Nat := z.toNat / 2 ^ lo % 2 ^ n

/-- A two's-complement field. -/
def signedField (x n : Nat) : Int := if x ≥ 2 ^ (n - 1) then (x : Int) - 2 ^ n else x

/-- A tensor descriptor's content (R227). -/
structure Tensor where
  space : Nat
  /-- Element size in bytes. -/
  esize : Nat
  rot : Nat
  /-- Number of dimensions − 1. -/
  dims : Nat
  addr : Nat
  e0 : Nat
  e1 : Nat
  e2 : Nat
  e3 : Nat
  s1 : Int
  s2 : Int
  s3 : Int
deriving DecidableEq, Repr, Inhabited

/-- Dimensions above DIMS have extent 1 (R227). -/
def tensorOf (z : BitVec 512) : Tensor :=
  let dims := zfield z 12 2
  let ext : Nat → Nat := fun d => if d ≤ dims then zfield z (128 + 16 * d) 16 else 1
  { space := zfield z 4 2, esize := 2 ^ zfield z 6 2, rot := zfield z 8 4, dims := dims, addr := zfield z 64 64
    e0 := ext 0, e1 := ext 1, e2 := ext 2, e3 := ext 3
    s1 := signedField (zfield z 192 48) 48, s2 := signedField (zfield z 240 48) 48, s3 := signedField (zfield z 288 48) 48 }

/-- A well-formed tensor descriptor (R225, R227). -/
def tensorOk (z : BitVec 512) : Bool :=
  let dims := zfield z 12 2
  zfield z 0 4 == 2 && zfield z 14 50 == 0 && zfield z 336 176 == 0 && decide (zfield z 8 4 ≤ 5) && zfield z 4 2 != 2
    && !(zfield z 4 2 == 0 && zfield z 8 4 != 0)
    && (List.range 3).all fun i =>
      decide (i + 1 ≤ dims) || (zfield z (144 + 16 * i) 16 == 0 && zfield z (192 + 48 * i) 48 == 0)

/-- Number of elements. -/
def Tensor.count (t : Tensor) : Nat := t.e0 * t.e1 * t.e2 * t.e3

/-- Address of element `x` in element order before rotation (R227): dimension 0 varies fastest. -/
def Tensor.place (t : Tensor) (x : Nat) : Int :=
  let x0 := x % t.e0
  let x1 := x / t.e0 % t.e1
  let x2 := x / (t.e0 * t.e1) % t.e2
  let x3 := x / (t.e0 * t.e1 * t.e2)
  (t.addr + x0 * t.esize : Nat) + x1 * t.s1 + x2 * t.s2 + x3 * t.s3

/-- Bank rotation (R228). -/
def rotate (code row a : Nat) : Nat := if code = 0 then a else a ^^^ (row % 2 ^ code * 16)

/-- Address of element `x`, a 64-bit value (R227, R228). -/
def Tensor.at (t : Tensor) (x : Nat) : Nat := rotate t.rot (x / t.e0 % t.e1) (BitVec.ofInt 64 (t.place x)).toNat

/-! ### Enqueue (R44, R69) -/

/-- Entries of the copy queue and of the fabric queue (R69). -/
def commandDepth : Nat := 16
/-- The largest engine-outstanding count (R44). -/
def engineMax : Nat := 512

/-- A copy command enqueued (R44, R46, R250): checks, then the counter and the queue. -/
def enqueueCopy (i : Instr) (g : Slot) (neg : Bool) (ok : Bool) (op : CopyOp) (zd zs : BitVec 512) (s : State) : Res :=
  let x := s.grp
  if !ok then .trap cILLOP (opcodeInfo i) s
  else if x.engOut ≥ engineMax then s.hold .counter
  else if x.copyQ.length ≥ commandDepth then s.hold .queueFull
  else
    .done (s.setGrp { x with
      copyQ := x.copyQ ++ [⟨x.bind g neg, op, zd, zs⟩], engOut := x.engOut + 1, effect := true })

/-- CPY (R250, R251): s0 names no limit, whatever another register holds is one. -/
def execCpy (g : Slot) (neg : Bool) (zd zs : Slot) (sa : SReg) (s : State) : Ans :=
  issueScalar (.cpy g neg zd zs sa) s fun s =>
    enqueueCopy (.cpy g neg zd zs sa) g neg (tensorOk (s.zreg zd) && tensorOk (s.zreg zs)) (.cpy (if sa = 0 then none else some (s.sreg sa)))
      (s.zreg zd) (s.zreg zs) s

/-- CPYQ (R250, R251). -/
def execCpyq (g : Slot) (neg : Bool) (zd zs : Slot) (sa : SReg) (s : State) : Ans :=
  issueScalar (.cpyq g neg zd zs sa) s fun s =>
    enqueueCopy (.cpyq g neg zd zs sa) g neg (tensorOk (s.zreg zd) && tensorOk (s.zreg zs))
      (.cpyq (s.sreg sa) ((s.grp.rdS (sa.toNat + 1)).toNat % 64)) (s.zreg zd) (s.zreg zs) s

/-- CPYS (R250, R251): for 8-byte elements sa names a pair. -/
def execCpys (g : Slot) (neg : Bool) (zd : Slot) (sa : SReg) (s : State) : Ans :=
  issueScalar (.cpys g neg zd sa) s fun s =>
    let wide := zfield (s.zreg zd) 6 2 == 3
    let fill := if wide then s.spair sa else (s.sreg sa).setWidth 64
    enqueueCopy (.cpys g neg zd sa) g neg (tensorOk (s.zreg zd) && !(wide && sa.toNat % 2 == 1)) (.cpys fill) (s.zreg zd) 0 s

/-- The row side of a gather or scatter has two dimensions, and its indices are 4 bytes long (R251, log 20). -/
def indexedOk (rows zi : BitVec 512) : Bool := tensorOk rows && tensorOk zi && zfield rows 12 2 == 1 && zfield zi 6 2 == 2

/-- GATH (R250, R251). -/
def execGath (g : Slot) (neg : Bool) (zd zs zi : Slot) (s : State) : Ans :=
  issueScalar (.gath g neg zd zs zi) s fun s =>
    enqueueCopy (.gath g neg zd zs zi) g neg (tensorOk (s.zreg zd) && indexedOk (s.zreg zs) (s.zreg zi)) (.gath (s.zreg zi))
      (s.zreg zd) (s.zreg zs) s

/-- SCAT (R250, R251). -/
def execScat (g : Slot) (neg : Bool) (zd zs zi : Slot) (s : State) : Ans :=
  issueScalar (.scat g neg zd zs zi) s fun s =>
    enqueueCopy (.scat g neg zd zs zi) g neg (tensorOk (s.zreg zs) && indexedOk (s.zreg zd) (s.zreg zi)) (.scat (s.zreg zi))
      (s.zreg zd) (s.zreg zs) s

/-- MCAST (R271): the block of four registers is captured at enqueue. -/
def execMcast (g : Slot) (neg : Bool) (zd zs : Slot) (sa : SReg) (s : State) : Ans :=
  issueScalar (.mcast g neg zd zs sa) s fun s =>
    let x := s.grp
    let w := (x.rdS (sa.toNat + 1)).toNat
    let completion := x.rdS (sa.toNat + 2)
    let ok := tensorOk (s.zreg zd) && tensorOk (s.zreg zs) && zfield (s.zreg zd) 4 2 == 1 && w / 256 % 4096 != 0
      && w / 2 ^ 22 == 0 && w / 64 % 4 == 0 && completion.toNat % 4 == 0
    enqueueCopy (.mcast g neg zd zs sa) g neg ok
      (.mcast (s.sreg sa) (w / 2 ^ 20 % 4) (BitVec.ofNat 12 (w / 256)) (w % 64) completion) (s.zreg zd) (s.zreg zs) s

/-- The largest fabric-outstanding and collective-outstanding counts (R362). -/
def fabricMax : Nat := 64
def collMax : Nat := 8

/-- A fabric-queue entry enqueued (R44, R46, R362). -/
def enqueueFabric (i : Instr) (g : Slot) (neg : Bool) (ok coll : Bool) (op : FabOp) (z : BitVec 512) (s : State) : Res :=
  let x := s.grp
  if !ok then .trap cILLOP (opcodeInfo i) s
  else if x.engOut ≥ engineMax || (if coll then decide (x.collOut ≥ collMax) else decide (x.fabOut ≥ fabricMax)) then
    s.hold .counter
  else if x.fabQ.length ≥ commandDepth then s.hold .queueFull
  else
    .done (s.setGrp { x with
      fabQ := x.fabQ ++ [⟨x.bind g neg, op, z⟩], engOut := x.engOut + 1, effect := true
      fabOut := if coll then x.fabOut else x.fabOut + 1, collOut := if coll then x.collOut + 1 else x.collOut })

/-- The local descriptor of a transfer (R363). -/
def transferOk (z : BitVec 512) (target : Word) : Bool :=
  tensorOk z && decide (zfield z 4 2 < 2) && target.toNat / 2 ^ 24 == 0

/-- A transfer enqueued (R363). -/
def enqueueTransfer (i : Instr) (g : Slot) (neg : Bool) (zl : Slot) (sa : SReg) (get : Bool) (s : State) : Res :=
  let x := s.grp
  enqueueFabric i g neg (transferOk (s.zreg zl) (s.sreg sa)) false
    (.transfer get (s.sreg sa) (x.rdS (sa.toNat + 1)) (x.rdS (sa.toNat + 2))) (s.zreg zl) s

/-- XPUT (R363). -/
def execXput (g : Slot) (neg : Bool) (zl : Slot) (sa : SReg) (s : State) : Ans :=
  issueScalar (.xput g neg zl sa) s (enqueueTransfer (.xput g neg zl sa) g neg zl sa false)

/-- XGET (R363). -/
def execXget (g : Slot) (neg : Bool) (zl : Slot) (sa : SReg) (s : State) : Ans :=
  issueScalar (.xget g neg zl sa) s (enqueueTransfer (.xget g neg zl sa) g neg zl sa true)

/-- Bytes of a collective's element type, 0 for a code it does not take (R368). -/
def collTypeSize (t : Nat) : Nat :=
  match t with
  | 2 => 4
  | 3 => 8
  | 6 => 4
  | 7 => 8
  | 8 => 2
  | 9 => 2
  | 10 => 4
  | 11 => 8
  | _ => 0

/-- The enqueue checks of COLL (R368). -/
def collOk (zd zs : BitVec 512) (set : Word) : Bool :=
  tensorOk zd && tensorOk zs && zfield zd 4 2 == 0 && zfield zs 4 2 == 0 && zfield zd 6 2 == zfield zs 6 2
    && collTypeSize (set.toNat / 2 ^ 12 % 16) == 2 ^ zfield zs 6 2 && set.toNat / 2 ^ 16 == 0

/-- A collective enqueued (R368). -/
def enqueueColl (i : Instr) (g : Slot) (neg : Bool) (kind op : Nat) (zd zs : Slot) (sa : SReg) (s : State) : Res :=
  enqueueFabric i g neg (collOk (s.zreg zd) (s.zreg zs) (s.sreg sa)) true
    (.coll kind op (s.zreg zd) (s.sreg sa) (s.grp.rdS (sa.toNat + 1))) (s.zreg zs) s

/-- COLL.ARED (R368). -/
def execCollAred (g : Slot) (neg : Bool) (zd zs : Slot) (sa : SReg) (op : BitVec 2) (s : State) : Ans :=
  issueScalar (.collAred g neg zd zs sa op) s (enqueueColl (.collAred g neg zd zs sa op) g neg 0 op.toNat zd zs sa)

/-- COLL.AGATH (R368). -/
def execCollAgath (g : Slot) (neg : Bool) (zd zs : Slot) (sa : SReg) (s : State) : Ans :=
  issueScalar (.collAgath g neg zd zs sa) s (enqueueColl (.collAgath g neg zd zs sa) g neg 1 0 zd zs sa)

/-- COLL.RSCAT (R368). -/
def execCollRscat (g : Slot) (neg : Bool) (zd zs : Slot) (sa : SReg) (op : BitVec 2) (s : State) : Ans :=
  issueScalar (.collRscat g neg zd zs sa op) s (enqueueColl (.collRscat g neg zd zs sa op) g neg 2 op.toNat zd zs sa)

/-! ### Waits (R254, R365) -/

/-- EWAIT (R254). -/
def execEwait (n : BitVec 18) (s : State) : Ans :=
  issueScalar (.ewait n) s fun s => if s.grp.engOut ≤ n.toNat then .done s else s.hold .ewait

/-- XWAIT (R365). -/
def execXwait (sd : SReg) (n : BitVec 7) (s : State) : Ans :=
  issueScalar (.xwait sd n) s fun s =>
    if s.grp.fabOut ≤ n.toNat then .done (s.upd fun g => { g.wrS sd.toNat (g.fabStat.setWidth 32) with fabStat := 0 })
    else s.hold .xwait

/-- CWAIT (R365). -/
def execCwait (sd : SReg) (n : BitVec 4) (s : State) : Ans :=
  issueScalar (.cwait sd n) s fun s =>
    if s.grp.collOut ≤ n.toNat then .done (s.upd fun g => { g.wrS sd.toNat (g.collStat.setWidth 32) with collStat := 0 })
    else s.hold .cwait

end Sys2Proof.Machine
end

