-- ==== Sys2Proof/Machine/Matrix.lean ====
section
/-!
DEFINITION. Matrix operations: formats (R213 to R216, R226), operands (R229 to R231) and what an operation does when its batch
completes (R217 to R220, R223, R235 to R240).
-/
namespace Sys2Proof.Machine

/-! ### Formats -/

/-- Bits of an element of an operand format (R214). -/
def elementBits (code : Nat) : Nat := if code = 14 then 4 else if code = 8 ∨ code = 9 then 16 else 8

/-- A group length code (R226). -/
def groupLength (code : Nat) : Nat :=
  match code with
  | 0 => 0
  | 1 => 32
  | 2 => 64
  | _ => 128

/-- A format block taken apart (R226). -/
structure FormatBlock where
  afmt : Nat
  bfmt : Nat
  alen : Nat
  blen : Nat
  ascale : Nat
  bscale : Nat
deriving DecidableEq, Repr, Inhabited

def formatOf (z : BitVec 512) : FormatBlock :=
  { afmt := zfield z 4 4, bfmt := zfield z 8 4, alen := groupLength (zfield z 12 2), blen := groupLength (zfield z 14 2)
    ascale := zfield z 64 64, bscale := zfield z 128 64 }

/-- Kind 1 with its reserved fields zero (R225, R226). -/
def formatOk (z : BitVec 512) : Bool := zfield z 0 4 == 1 && zfield z 16 48 == 0 && zfield z 192 320 == 0

/-- Feature of FEATEN for a pairing of formats, none for an illegal pairing (R214, R395). -/
def pairFeature (integer : Bool) (a b : Nat) : Option Nat :=
  if integer then if (a = 0 ∨ a = 14) ∧ (b = 0 ∨ b = 14) then some 5 else none
  else if (a = 12 ∨ a = 13) ∧ (b = 12 ∨ b = 13) then some 3
  else if (a = 8 ∨ a = 9) ∧ (b = 8 ∨ b = 9) then some 4
  else none

/-- Terms of one step (R214). -/
def stepTerms (f : FormatBlock) : Nat :=
  if f.afmt = 14 ∧ f.bfmt = 14 then 64 else if f.afmt = 8 ∨ f.afmt = 9 then 16 else 32

/-! ### Tiles (R228, R230, R231) -/

/-- A tile as its base and pitch words describe it. -/
structure Tile where
  space : Nat
  core : Nat
  offset : Nat
  rot : Nat
  rp : Nat
  tpb : Nat
deriving DecidableEq, Repr, Inhabited

/-- The two words of R230; the core is a package index. -/
def tileOf (own : Nat) (base pitch : Word) : Tile :=
  let ap := base.getLsbD 31
  let rp := pitch.toNat % 65536
  let tp := pitch.toNat / 65536 % 4096
  { space := if ap then 3 else 1, core := if ap then own / 4 * 4 + base.toNat / 2 ^ 21 % 4 else own
    offset := base.toNat % 2 ^ 21, rot := pitch.toNat / 2 ^ 28, rp := rp, tpb := if tp = 0 then 32 * rp else 64 * tp }

/-- Reserved bits zero, rotation at most 5, and the row length a multiple of the rotation's span (R231). -/
def tileOk (base pitch : Word) (row : Nat) : Bool :=
  let c := pitch.toNat / 2 ^ 28
  base.toNat / 2 ^ 23 % 256 == 0 && (base.getLsbD 31 || base.toNat / 2 ^ 21 % 4 == 0) && decide (c ≤ 5)
    && (c == 0 || row % (16 * 2 ^ c) == 0)

/-- Start of row `r` before rotation (R230). -/
def Tile.row (t : Tile) (r : Nat) : Nat := t.offset + r / 32 * t.tpb + r % 32 * t.rp

/-- The checks of R231 after ILLOP, for rows of a length, and a crossbar error that an access to another core meets (R275). -/
def State.tileChecks (s : State) (t : Tile) (rows len : Nat) (write : Bool) : List (Nat × Dword) :=
  let g := s.grp
  let unit := 16 * 2 ^ t.rot
  let info := BitVec.ofNat 64 t.offset
  let inside := match s.castOn g.launch t.core with
    | some c => c.saved.isNone && (List.range rows).all fun r => decide (t.row r + len ≤ c.scratchSize)
    | none => false
  let base := match s.castOn g.launch t.core with
    | some c => c.scratch
    | none => 0
  let e := BitVec.ofNat 64 (t.core % 4 * 2 ^ 21 + t.offset)
  let locked := (List.range rows).findSome? fun r =>
    s.checkLock g ⟨t.space, t.core, base + t.row r, BitVec.ofNat 64 (t.row r)⟩ len write
  (if t.offset % unit ≠ 0 ∨ t.rp % unit ≠ 0 ∨ t.tpb % unit ≠ 0 then [(cMISALIGN, info)] else [])
    ++ (if !inside then [(cPROT, info)] else [])
    ++ locked.toList ++ ((s.aperturePoison g ⟨t.space, t.core, 0, e⟩).map fun i => (cPOISON, i)).toList

/-- Scratchpad byte index of byte `b` of row `r` (R228, R230). -/
def State.tileByte (s : State) (launch : Nat) (t : Tile) (r b : Nat) : Nat :=
  s.scratchBase launch t.core + rotate t.rot r (t.row r + b)

/-! ### What an operation reads (R229, R238) -/

/-- Key of a captured register. -/
def regKey (t r : Nat) : Nat := t * 4096 + r

/-- Register rows an operation reads: first register, registers a thread, threads (R229, R238). -/
def MatOp.rows (m : MatOp) : List (Nat × Nat × Nat) :=
  match m.instr with
  | .mma w | .mmai w =>
    let f := formatOf (m.cap.zs.get 0 (w.fn.toNat % 16))
    (if w.fn.getLsbD 7 then [] else [(w.va.toNat, LaneOps.extK w * elementBits f.afmt / 32, LaneOps.extM w)])
      ++ (if w.fn.getLsbD 6 then [] else [(w.vb.toNat, LaneOps.extK w * elementBits f.bfmt / 32, LaneOps.extN w)])
  | .mlda w => if w.fn.getLsbD 7 then [] else [(w.va.toNat, 8 * elemBytes w.type, 32)]
  | _ => []

/-- An operation that may read scratchpad bytes or scale records. -/
def readsStore (i : Instr) : Bool :=
  match i with
  | .mma _ => true
  | .mmai _ => true
  | .mlda _ => true
  | _ => false

/-! ### What an operation does (R217 to R220, R235 to R240) -/

/-- Frame × 1024 + element in the core's accumulator store, for a frame of the cast (R222). -/
def State.accBase (s : State) (g : Group) : Nat :=
  match s.castOn g.launch g.core with
  | some c => c.frame * 1024
  | none => 0

/-- Index of element (i, j) of a block of `n` columns from frame f (R223). -/
def blockIndex (f n i j : Nat) : Nat := (f + i / 32 * (n / 32) + j / 32) * 1024 + i % 32 * 32 + j % 32

/-- A row of an operand: its bits as a number, and whether a byte of it is poisoned. -/
structure Row where
  bits : Nat
  poison : Bool
deriving DecidableEq, Repr, Inhabited

/-- A captured row of `n` registers. -/
def MatOp.regRow (m : MatOp) (first n t : Nat) : Row :=
  { bits := (List.range n).foldl (fun v k => v + (m.regs.get 0 (regKey t (first + k))).toNat * 2 ^ (32 * k)) 0
    poison := (List.range n).any fun k => m.poison.contains (regKey t (first + k)) }

/-- A value an operation reads: as it stands, or as it stood at the operation's issue (R246). -/
def MatOp.either {α : Type} [DecidableEq α] (m : MatOp) (s : State) (core key : Nat) (f : Core → α) : α :=
  let now := f (s.core core)
  let old := f (m.old.get Core.start core)
  if old = now then now else if Config.readsOld m.id (core * 2 ^ 24 + key) then old else now

/-- A scratch byte of a core as an operation reads it, and whether its word is poisoned. -/
def MatOp.scratch (m : MatOp) (s : State) (core a : Nat) : Byte := m.either s core a fun c => c.scratch.get 0 a
def MatOp.tainted (m : MatOp) (s : State) (core a : Nat) : Bool := m.either s core a fun c => c.scratchTags.get 0 (a / 8) == tagPOI

/-- A row of `len` bytes of a tile. -/
def State.tileRow (s : State) (launch : Nat) (m : MatOp) (t : Tile) (r len : Nat) : Row :=
  let at_ : Nat → Nat := s.tileByte launch t r
  { bits := gather (fun b => m.scratch s t.core (at_ b)) len
    poison := (List.range len).any fun b => m.tainted s t.core (at_ b) }

/-- A row of an operand of MMA or MMAI. -/
def State.operandRow (s : State) (launch core : Nat) (m : MatOp) (tile : Bool) (r : VReg) (bits i : Nat) : Row :=
  if tile then s.tileRow launch m (tileOf core (m.cap.rdS r.toNat) (m.cap.rdS (r.toNat + 1))) i (bits / 8)
  else m.regRow r.toNat (bits / 32) i

/-- Bytes of a scale record (R215), and whether its word is poisoned. -/
def State.scaleRecord (s : State) (g : Group) (m : MatOp) (space addr : Nat) : Nat × Bool :=
  match space with
  | 2 =>
    let a := g.rwb + addr
    (gather (fun b => m.either s g.core (2 ^ 22 + a + b) fun c => c.regByte (a + b)) 4
      , m.either s g.core (2 ^ 22 + a) fun c => c.regTags.get 0 (a / 8) == tagPOI)
  | _ =>
    let core := if space = 3 then g.core / 4 * 4 + addr / 2 ^ 21 % 4 else g.core
    let a := s.scratchBase g.launch core + addr % 2 ^ 21
    (gather (fun b => m.scratch s core (a + b)) 4, m.tainted s core a)

/-- The records of one row, one a group; plain elements have one record of scale 1.0 and zero point 0 (R215). -/
def State.scaleRow (s : State) (g : Group) (m : MatOp) (space addr len k i : Nat) : List (Nat × Bool) :=
  if len = 0 then [(0x3C00, false)]
  else (List.range (k / len)).map fun j => s.scaleRecord g m space (addr + 4 * (i * (k / len) + j))

/-- The record of element k. -/
def recordAt (rs : List (Nat × Bool)) (len k : Nat) : Nat := (rs.getD (if len = 0 then 0 else k / len) (0x3C00, false)).1

/-- A scale (R215). -/
def scaleOf (rec : Nat) : Num := fmtF16.read (rec % 65536)
/-- A zero point read by the operand's signedness (R215). -/
def zeroPoint (unsigned : Bool) (rec : Nat) : Int :=
  let z := rec / 65536 % 256
  if !unsigned && decide (z ≥ 128) then (z : Int) - 256 else z

/-- An integer element (R213, R216). -/
def intElement (unsigned : Bool) (bits x : Nat) : Int :=
  if !unsigned && decide (x ≥ 2 ^ (bits - 1)) then (x : Int) - 2 ^ bits else x

/-- One operand row ready for its steps. -/
structure Side where
  row : Row
  fmt : Nat
  unsigned : Bool
  len : Nat
  recs : List (Nat × Bool)
deriving DecidableEq, Repr, Inhabited

def Side.elem (x : Side) (k : Nat) : Nat :=
  let e := elementBits x.fmt
  x.row.bits / 2 ^ (e * k) % 2 ^ e
def Side.float (x : Side) (k : Nat) : Num := ((fmtOf (BitVec.ofNat 4 x.fmt)).read (x.elem k)).mul (scaleOf (recordAt x.recs x.len k))
def Side.int (x : Side) (k : Nat) : Int :=
  intElement x.unsigned (elementBits x.fmt) (x.elem k) - zeroPoint x.unsigned (recordAt x.recs x.len k)
/-- A byte or a record of the row is poisoned (R235). -/
def Side.poisoned (x : Side) : Bool := x.row.poison || x.recs.any (·.2)

/-- The terms of an MMA step over some k (R217). -/
def floatTerms (a b : Side) (mask : BitVec 128) (ks : List Nat) : List Num :=
  (ks.filter fun k => mask.getLsbD k).map fun k => (a.float k).mul (b.float k)

/-- d × sa × sb (R220): a scale that is NaN gives NaN; an infinite one gives NaN where d is zero and a signed infinity otherwise,
whatever the other scale. -/
def scaled (d : Int) (sa sb : Num) : Num :=
  let isInf : Num → Bool := fun x => match x with
    | .inf _ => true
    | _ => false
  if sa = .nan ∨ sb = .nan then .nan
  else if isInf sa || isInf sb then if d = 0 then .nan else .inf (decide (d < 0) != (sa.isNeg != sb.isNeg))
  else ((Num.ofInt false d 0).mul sa).mul sb

/-- The partial of one part, if a term of it is unmasked (R220). -/
def partialOf (a b : Side) (mask : BitVec 128) (ks : List Nat) : Option Num :=
  match ks.filter fun k => mask.getLsbD k with
  | [] => none
  | k :: rest =>
    let d := (k :: rest).foldl (fun (s : Int) k => s + a.int k * b.int k) 0
    let p := scaled d (scaleOf (recordAt a.recs a.len k)) (scaleOf (recordAt b.recs b.len k))
    some (fmtF32.read (fmtF32.round .rne false p))

/-- The partials of an MMAI step (R220): two parts where a group of 32 divides a step of 64. -/
def intTerms (a b : Side) (mask : BitVec 128) (n : Nat) (ks : List Nat) : List Num :=
  if n = 64 ∧ (a.len = 32 ∨ b.len = 32) then
    [ks.filter fun k => k % 64 < 32, ks.filter fun k => k % 64 ≥ 32].filterMap (partialOf a b mask)
  else [ks].filterMap (partialOf a b mask)

/-- The steps along K for one element (R219, R235): the F32 bits and whether a step lost bits. -/
def stepsOf (integer : Bool) (a b : Side) (mask : BitVec 128) (k n aw c : Nat) : Nat × Bool :=
  (List.range ((k + n - 1) / n)).foldl (fun (p : Nat × Bool) st =>
    let ks := (List.range n).map (st * n + ·) |>.filter fun x => decide (x < k)
    let ts := if integer then intTerms a b mask n ks else floatTerms a b mask ks
    let (v, lost) := dotStep (ts ++ [fmtF32.read p.1]) aw
    (v, p.2 || lost)) (c, false)

/-- Row `i` of the first operand of MMA or MMAI, or column `i` of its second (R215, R226, R229, R235). -/
def State.sideOf (s : State) (g : Group) (m : MatOp) (w : LaneOps) (second : Bool) (i : Nat) : Side :=
  let f := formatOf (m.cap.zs.get 0 (w.fn.toNat % 16))
  let tile := w.fn.getLsbD (if second then 6 else 7)
  let r := if second then w.vb else w.va
  let fmt := if second then f.bfmt else f.afmt
  let len := if second then f.blen else f.alen
  let space := if tile then (if (m.cap.rdS r.toNat).getLsbD 31 then 3 else 1) else 2
  { row := s.operandRow g.launch g.core m tile r (LaneOps.extK w * elementBits fmt) i, fmt := fmt
    unsigned := w.imm.getLsbD (if second then 5 else 4), len := len
    recs := s.scaleRow g m space (if second then f.bscale else f.ascale) len (LaneOps.extK w) i }

/-- MMA or MMAI of a group (R235), on the accumulator of its core. -/
def State.runMma (s : State) (k : Nat) (m : MatOp) (integer : Bool) (w : LaneOps) : State :=
  let g := s.group k
  let f := formatOf (m.cap.zs.get 0 (w.fn.toNat % 16))
  let mk : Nat → BitVec 128 := fun i => m.cap.mks.get mkDefault (w.vc.toNat % 16 + i)
  let rows := ((List.range (LaneOps.extM w)).filter (mk 0).getLsbD).map fun i => (i, s.sideOf g m w false i)
  let cols := ((List.range (LaneOps.extN w)).filter (mk 1).getLsbD).map fun j => (j, s.sideOf g m w true j)
  let base := s.accBase g
  let c := s.core g.core
  let zc := w.fn.getLsbD 5
  let c := rows.foldl (fun c x => cols.foldl (fun (c : Core) y =>
    let at_ := base + blockIndex w.vd.toNat (LaneOps.extN w) x.1 y.1
    let (v, lost) := stepsOf integer x.2 y.2 (mk 2) (LaneOps.extK w) (stepTerms f) (LaneOps.aw w)
      (if zc then 0 else (c.acc.get 0 at_).toNat)
    let poison := x.2.poisoned || y.2.poisoned || (!zc && c.accPoison.get false at_)
    { c with
      acc := c.acc.set 0 at_ (BitVec.ofNat 32 v)
      lost := if lost then c.lost.set false at_ true else c.lost
      accPoison := if poison then c.accPoison.set false at_ true else c.accPoison }) c) c
  s.setCore g.core c

/-- Elements of frames f to f + count − 1, as store indices. -/
def State.frameIndices (s : State) (g : Group) (f count : Nat) : Nat × Nat :=
  (s.accBase g + f * 1024, s.accBase g + (f + count) * 1024)

/-- A deferred POISON noted for a group (R239). -/
def State.noteDue (s : State) (k : Nat) (index : Option Nat) : State :=
  match index with
  | none => s
  | some i =>
    let g := s.group k
    s.setGroup k { g with poisonDue := g.poisonDue ++ [i] }

/-- MLDA of a group (R238, R239). -/
def State.runMlda (s : State) (k : Nat) (m : MatOp) (w : LaneOps) : State :=
  let g := s.group k
  let size := elemBytes w.type
  let tile := tileOf g.core (m.cap.rdS w.va.toNat) (m.cap.rdS (w.va.toNat + 1))
  let base := s.accBase g
  let cells := (List.range (32 * LaneOps.count w)).flatMap fun r =>
    (List.range 32).map fun j =>
      let e : Nat × Bool :=
        if w.fn.getLsbD 7 then
          let at_ := s.tileByte g.launch tile r (j * size)
          (gather (fun b => m.scratch s tile.core (s.tileByte g.launch tile r (j * size + b))) size, m.tainted s tile.core at_)
        else
          let row := m.regRow w.va.toNat (8 * size) r
          (row.bits / 2 ^ (8 * size * j) % 2 ^ (8 * size), m.poison.contains (regKey r (w.va.toNat + j * size / 4)))
      ((w.vd.toNat + r / 32) * 1024 + r % 32 * 32 + j, e)
  let c := s.core g.core
  let step := cells.foldl (fun (p : Core × Option Nat) x =>
    let at_ := base + x.1
    if p.1.accPoison.get false at_ then (p.1, some (p.2.getD x.1))
    else
      let v := if w.type = 10 then x.2.1 else fmtF32.round .rne false ((fmtOf w.type).read x.2.1)
      ({ p.1 with
          acc := p.1.acc.set 0 at_ (BitVec.ofNat 32 v)
          accPoison := if x.2.2 then p.1.accPoison.set false at_ true else p.1.accPoison }, p.2)) (c, none)
  (s.setCore g.core step.1).noteDue k step.2

/-- An element as MSTA stores it (R114, R238). -/
def storedElement (type : BitVec 4) (sat : Bool) (x : Nat) : Nat :=
  if type = 10 then
    match fmtF32.read x with
    | .inf neg => if sat then fmtF32.pack neg fmtF32.maxFin else x
    | _ => x
  else (fmtOf type).round .rne sat (fmtF32.read x)

/-- A register of the group that issued an operation: its own, or the understudy's while the handler still runs (R191). -/
def State.putIssuer (s : State) (k : Nat) (inHandler : Bool) (t r : Nat) (v : Word) : State :=
  let g := s.group k
  if inHandler then if g.handler.isSome then s.within k fun s => s.wrV t r v else s
  else
    let c := s.core g.core
    s.setCore g.core { c with
      regs := c.regs.set 0 (g.wordIndex t r) v, regTags := c.regTags.set 0 (g.wordIndex t r / 2) 0 }

/-- The register the operation would write, as it stands. -/
def State.getIssuer (s : State) (k : Nat) (inHandler : Bool) (t r : Nat) : Word :=
  let g := s.group k
  if inHandler then s.rdVOf g t r else (s.core g.core).regs.get 0 (g.wordIndex t r)

/-- A later operation of the group sees a register of the window as an earlier one has written it, where its scale records lie
among those bytes (R243). -/
def MatOp.seesReg (m : MatOp) (core index : Nat) (v : Word) : MatOp :=
  let c := m.old.get Core.start core
  if readsStore m.instr then
    { m with old := m.old.set Core.start core { c with
        regs := c.regs.set 0 index v, regTags := c.regTags.set 0 (index / 2) 0 } }
  else m

/-- A later operation of the group that has captured this register takes the published value (R243). -/
def MatOp.observe (m : MatOp) (inHandler : Bool) (t r : Nat) (v : Word) : MatOp :=
  if m.inHandler == inHandler && m.rows.any fun x => decide (t < x.2.2) && decide (x.1 ≤ r) && decide (r < x.1 + x.2.1) then
    { m with regs := m.regs.set 0 (regKey t r) v, poison := m.poison.filter fun p => p != regKey t (r / 2 * 2) && p != regKey t (r / 2 * 2 + 1) }
  else m

/-- The published value in every operation of the group that is still outstanding. -/
def State.observeAll (s : State) (k : Nat) (inHandler : Bool) (t r : Nat) (v : Word) : State :=
  let g := s.group k
  let one : MatOp → MatOp := fun m =>
    let m := m.observe inHandler t r v
    if inHandler then m else m.seesReg g.core (g.wordIndex t r) v
  s.setGroup k { g with openOps := g.openOps.map one, batches := g.batches.map fun b => { b with ops := b.ops.map one } }

/-- A register published by a matrix operation. -/
def State.publish (s : State) (k : Nat) (inHandler : Bool) (t r : Nat) (v : Word) : State :=
  (s.putIssuer k inHandler t r v).observeAll k inHandler t r v

/-- A later operation of the group that reads memory sees a core's scratch bytes as MSTA wrote them (R243). -/
def MatOp.sees (m : MatOp) (core : Nat) (bytes : List (Nat × Byte)) : MatOp :=
  let c := m.old.get Core.start core
  if readsStore m.instr then
    { m with old := m.old.set Core.start core { c with
        scratch := bytes.foldl (fun t x => t.set 0 x.1 x.2) c.scratch
        scratchTags := bytes.foldl (fun t x => t.set 0 (x.1 / 8) 0) c.scratchTags } }
  else m

/-- The bytes in every operation of the group that is still outstanding. -/
def State.showBytes (s : State) (k core : Nat) (bytes : List (Nat × Byte)) : State :=
  let g := s.group k
  s.setGroup k { g with
    openOps := g.openOps.map fun m => m.sees core bytes
    batches := g.batches.map fun b => { b with ops := b.ops.map fun m => m.sees core bytes } }

/-- An operation that writes elements of its frames. -/
def writesElements (i : Instr) : Bool :=
  match i with
  | .mma _ => true
  | .mmai _ => true
  | .mzero _ => true
  | .mlda _ => true
  | _ => false

/-- One that writes elements or flags of them. -/
def writesFrames (i : Instr) : Bool :=
  match i with
  | .mflagc _ => true
  | _ => writesElements i

/-- A core's accumulators. -/
def Core.accs (c : Core) : Accs := ⟨c.acc, c.lost, c.accPoison⟩
def Core.withAccs (c : Core) (a : Accs) : Core := { c with acc := a.acc, lost := a.lost, accPoison := a.poison }

/-- The core as an operation that reads frames finds it. -/
def MatOp.finds (m : MatOp) (c : Core) : Core := (m.view.map c.withAccs).getD c

/-- MSTA of a group (R238, R239). -/
def State.runMsta (s : State) (k : Nat) (m : MatOp) (w : LaneOps) : State :=
  let g := s.group k
  let size := elemBytes w.type
  let tile := tileOf g.core (m.cap.rdS w.vd.toNat) (m.cap.rdS (w.vd.toNat + 1))
  let base := s.accBase g
  let src := m.finds (s.core g.core)
  let cells := (List.range (32 * LaneOps.count w)).flatMap fun r =>
    (List.range 32).map fun j => (r, j, (w.va.toNat + r / 32) * 1024 + r % 32 * 32 + j)
  let bad := cells.find? fun x => src.accPoison.get false (base + x.2.2)
  let good := cells.filter fun x => !src.accPoison.get false (base + x.2.2)
  let s := good.foldl (fun (s : State) x =>
    let v := storedElement w.type (w.fn.getLsbD 6) (src.acc.get 0 (base + x.2.2)).toNat
    if w.fn.getLsbD 7 then
      let c := s.core tile.core
      let bytes := (List.range size).map fun b => (s.tileByte g.launch tile x.1 (x.2.1 * size + b), BitVec.ofNat 8 (v / 2 ^ (8 * b)))
      (s.setCore tile.core { c with
        scratch := bytes.foldl (fun t y => t.set 0 y.1 y.2) c.scratch
        scratchTags := c.scratchTags.set 0 (s.tileByte g.launch tile x.1 (x.2.1 * size) / 8) 0 }).showBytes k tile.core bytes
    else
      let r := w.vd.toNat + x.2.1 * size / 4
      let lo := 8 * (x.2.1 * size % 4)
      let old := (s.getIssuer k m.inHandler x.1 r).toNat
      let new := old - old / 2 ^ lo % 2 ^ (8 * size) * 2 ^ lo + v * 2 ^ lo
      s.publish k m.inHandler x.1 r (BitVec.ofNat 32 new)) s
  s.noteDue k (bad.map (·.2.2))

/-- A predicate published by MFLAG.ANY in every thread (R240). -/
def State.publishPred (s : State) (k : Nat) (inHandler : Bool) (q : Nat) (v : Bool) : State :=
  let g := s.group k
  let ts := List.range g.w
  if q ≥ 8 && inHandler then
    if g.handler.isSome then s.within k fun s => ts.foldl (fun s t => s.upd fun g => g.setPred t q v) s else s
  else if q = 0 then s
  else
    s.setGroup k (ts.foldl (fun (g : Group) t => g.setThread t { g.thread t with preds := setBit16 (g.thread t).preds q v }) g)

/-- MFLAG of a group (R240). -/
def State.runMflag (s : State) (k : Nat) (m : MatOp) (w : LaneOps) : State :=
  let g := s.group k
  let c := m.finds (s.core g.core)
  let (lo, hi) := s.frameIndices g w.va.toNat (LaneOps.count w)
  if w.fn = 1 then
    s.publishPred k m.inHandler w.vd.toNat (c.lost.any fun x => decide (lo ≤ x.1) && decide (x.1 < hi) && x.2)
  else
    (List.range 32).foldl (fun (s : State) r =>
      let v := (List.range 32).foldl (fun v j => v + bitOf (c.lost.get false (lo + 32 * r + j)) * 2 ^ j) 0
      s.publish k m.inHandler r w.vd.toNat (BitVec.ofNat 32 v)) s

/-- The effect of one matrix operation of a group (R235 to R240). -/
def State.runMatrix (s : State) (k : Nat) (m : MatOp) : State :=
  let g := s.group k
  let c := s.core g.core
  match m.instr with
  | .mma w => s.runMma k m false w
  | .mmai w => s.runMma k m true w
  | .mzero w =>
    let (lo, hi) := s.frameIndices g w.vd.toNat (LaneOps.count w)
    s.setCore g.core { c with acc := c.acc.clear lo hi, accPoison := c.accPoison.clear lo hi }
  | .mflagc w =>
    let (lo, hi) := s.frameIndices g w.vd.toNat (LaneOps.count w)
    s.setCore g.core { c with lost := c.lost.clear lo hi }
  | .mlda w => s.runMlda k m w
  | .msta w => s.runMsta k m w
  | .mflag w => s.runMflag k m w
  | _ => s

/-! ### The group's own stream of operations (R243) -/

/-- A table with the entries from `lo` to `hi` of another. -/
def Table.patch {β : Type} [DecidableEq β] (d : β) (t u : Table β) (lo hi : Nat) : Table β :=
  (u.filter fun x => decide (lo ≤ x.1) && decide (x.1 < hi)).foldl (fun t x => t.set d x.1 x.2) (t.clear lo hi)

/-- Later operations of the group that have read frames see what an earlier one wrote there. -/
def State.showFrames (s : State) (k : Nat) (i : Instr) : State :=
  let g := s.group k
  let c := s.core g.core
  let (lo, hi) := s.frameIndices g (frameField i).1 (frameField i).2
  let one : MatOp → MatOp := fun m =>
    { m with view := m.view.map fun v =>
        ⟨Table.patch 0 v.acc c.acc lo hi, Table.patch false v.lost c.lost lo hi, Table.patch false v.poison c.accPoison lo hi⟩ }
  if writesFrames i then
    s.setGroup k { g with openOps := g.openOps.map one, batches := g.batches.map fun b => { b with ops := b.ops.map one } }
  else s

/-- The group's operations that are not published, each performed in issue order and out of the group before it is. -/
def State.ownRun (s : State) (k : Nat) : Nat → State
  | 0 => s
  | n + 1 =>
    match (s.group k).matOps with
    | m :: ms =>
      (((s.setGroup k { s.group k with batches := [⟨0, ms⟩], openOps := [] }).runMatrix k m).showFrames k m.instr).ownRun k n
    | [] => s

end Sys2Proof.Machine
end

