-- ==== Sys2Proof/Machine/GroupEvents.lean ====
section
/-!
DEFINITION. Events of a resident group: the start and discard of queued entries (R63, R73), the fragment schedule and
watchdog (R118, R126), deferred traps (R195), the ends of waits (R86, R139, R141, R269) and matrix completion (R233, R242).
-/
namespace Sys2Proof.Machine

/-- An event that takes place only where its condition holds; elsewhere nothing happens. -/
def happens (ok : Bool) (s : State) (s' : State) : Ans := .next (if ok then s' else s)

/-! ### Queue heads (R63, R73) -/

/-- The lane stream may take its next block: idle, and not held by a trap, a parking or a pre-emption (R190, R196, R200). -/
def Group.blockMayStart (g : Group) : Bool :=
  g.life == .resident && g.handler.isNone && g.parked.isNone && g.deferred.isNone && !g.stopped && !g.lane.running

/-- The entry at the head of the lane queue, where it is to be performed. -/
def Group.readyBlock (g : Group) : Option LaneEntry :=
  match g.laneQ with
  | e :: _ => if e.guard == .decided true then some e else none
  | [] => none

/-- The head block started (R63): marks that a restored live-in save brought belong to no instruction of it (R153, R170). -/
def State.startBlock (s : State) (k : Nat) (e : LaneEntry) : State :=
  let g := s.group k
  s.setGroup k { g.clearMarks with lane := .start g.w (s.blockPc g e.entry) e.cap, laneQ := g.laneQ.drop 1 }

/-- LANE_BLOCK_START (R63). -/
def execLaneBlockStart (group : Nat) (s : State) : Ans :=
  match (s.group group).readyBlock with
  | some e => happens (s.group group).blockMayStart s (s.startBlock group e)
  | none => .next s

/-- The head of a queue has a guard that resolved against it (R73); the lane queue's leaves where a block could start (R63). -/
def Group.headDiscarded (g : Group) (q : QueueKind) : Bool :=
  let no : Option EntryGuard → Bool := fun e => e == some (.decided false)
  match q with
  | .lane => no (g.laneQ.head?.map (·.guard)) && g.blockMayStart
  | .copy => no (g.copyQ.head?.map (·.guard))
  | .fabric => no (g.fabQ.head?.map (·.guard))

/-- A fabric-queue entry is a collective. -/
def FabEntry.isColl (e : FabEntry) : Bool :=
  match e.op with
  | .coll _ _ _ _ _ => true
  | .transfer _ _ _ _ => false

/-- The head dropped and uncounted (R44, R73, R362). -/
def Group.discardHead (g : Group) (q : QueueKind) : Group :=
  match q with
  | .lane => { g with laneQ := g.laneQ.drop 1 }
  | .copy => { g with copyQ := g.copyQ.drop 1, engOut := g.engOut - 1 }
  | .fabric =>
    let coll := g.fabQ.head?.any FabEntry.isColl
    { g with
      fabQ := g.fabQ.drop 1, engOut := g.engOut - 1
      fabOut := if coll then g.fabOut else g.fabOut - 1, collOut := if coll then g.collOut - 1 else g.collOut }

/-- GUARDED_ENTRY_DISCARD (R73). -/
def execGuardedEntryDiscard (group : Nat) (queue : QueueKind) (s : State) : Ans :=
  let g := s.group group
  happens (g.life == .resident && g.headDiscarded queue) s (s.setGroup group (g.discardHead queue))

/-! ### Matrix units and batches (R233, R242, R243) -/

/-- The operations of the groups of one unit, with their groups. -/
def State.unitOps (s : State) (core unit : Nat) : List (Nat × MatOp) :=
  (s.residents core).flatMap fun x =>
    if x.2.datapath / 4 = unit then ((x.2.batches.flatMap (·.ops)) ++ x.2.openOps).map fun m => (x.1, m) else []

/-- An operation of a group changed. -/
def Group.mapOp (g : Group) (id : Nat) (f : MatOp → MatOp) : Group :=
  let one : MatOp → MatOp := fun m => if m.id = id then f m else m
  { g with openOps := g.openOps.map one, batches := g.batches.map fun (b : Batch) => { b with ops := b.ops.map one } }

/-- The oldest operation of a unit that it has not started (R233). -/
def State.nextOp (s : State) (core unit : Nat) : Option (Nat × MatOp) :=
  ((s.unitOps core unit).filter fun x => !x.2.started).foldl (fun best x =>
    match best with
    | none => some x
    | some b => if x.2.id < b.2.id then some x else best) none

/-- An operation that reads frames: MSTA and MFLAG. -/
def readsFrames (i : Instr) : Bool :=
  match i with
  | .msta _ => true
  | .mflag _ => true
  | _ => false

/-- MATRIX_OP_START (R233): the unit reads the frames of an operation that reads some (R246). -/
def execMatrixOpStart (core unit : Nat) (s : State) : Ans :=
  match s.nextOp core unit with
  | some (k, m) =>
    let view := if readsFrames m.instr then some (s.core core).accs else none
    .next (s.setGroup k ((s.group k).mapOp m.id fun m => { m with started := true, view := view }))
  | none => .next s

/-- Frames an operation touches (R223). -/
def MatOp.frames (m : MatOp) : Nat × Nat := frameField m.instr

/-- An operation meets an earlier one in a frame of their cast or, within one group, in a register (R233). -/
def MatOp.touches (m n : MatOp) (sameCast sameGroup : Bool) : Bool :=
  let rs : MatOp → List (Nat × Nat) := fun x => x.regsOut ++ x.rows.map fun r => (r.1, r.2.1)
  (sameCast && rangesMeet m.frames n.frames)
    || (sameGroup && (m.predOut.isSome && m.predOut == n.predOut || (rs m).any fun a => (rs n).any fun b => rangesMeet a b))

/-- The group that holds an operation not yet published, and the operation. -/
def State.findOp (s : State) (id : Nat) : Option (Nat × Group × MatOp) :=
  s.groups.findSome? fun x =>
    if x.2.life != .resident then none
    else (((x.2.batches.flatMap (·.ops)) ++ x.2.openOps).find? fun m => m.id == id).map fun m => (x.1, x.2, m)

/-- A started operation may complete: no earlier one of its unit that it touches is outstanding (R233). -/
def State.opMayComplete (s : State) (k : Nat) (g : Group) (m : MatOp) : Bool :=
  m.started && !m.done && (s.unitOps g.core (g.datapath / 4)).all fun x =>
    x.2.done || decide (m.id ≤ x.2.id) || !m.touches x.2 ((s.group x.1).launch == g.launch) (x.1 == k)

/-- Array cycles of an operation's dot products: its frames, where the dimmer acts on it (R234, log 18). -/
def MatOp.array (m : MatOp) : Nat :=
  match m.instr with
  | .mma _ | .mmai _ => m.frames.2
  | _ => 0

/-- MATRIX_OP_COMPLETE (R233); its frames count as array cycles (R356, log 18). -/
def execMatrixOpComplete (op : Nat) (s : State) : Ans :=
  match s.findOp op with
  | some (k, g, m) =>
    let c := s.core g.core
    happens (s.opMayComplete k g m) s
      ((s.setGroup k { g.mapOp op (fun m => { m with done := true }) with work := g.work + m.frames.2 }).setCore g.core
        { c with array := c.array + m.array })
  | none => .next s

/-- Frames that two operations share: the first and the end. -/
def sharedFrames (i j : Instr) : Nat × Nat :=
  (max (frameField i).1 (frameField j).1, min ((frameField i).1 + (frameField i).2) ((frameField j).1 + (frameField j).2))

/-- Both write elements of a frame. -/
def clash (i j : Instr) : Bool :=
  writesElements i && writesElements j && decide ((sharedFrames i j).1 < (sharedFrames i j).2)

/-- The operations of the cast of group `k` that are not published, changed. -/
def State.mapCastOps (s : State) (k : Nat) (f : MatOp → MatOp) : State :=
  let g := s.group k
  s.groups.foldl (fun (s : State) x =>
    if x.2.life ≠ .resident ∨ x.2.core ≠ g.core ∨ x.2.launch ≠ g.launch then s
    else s.setGroup x.1 { s.group x.1 with
      openOps := (s.group x.1).openOps.map f, batches := (s.group x.1).batches.map fun b => { b with ops := b.ops.map f } }) s

/-- Outstanding operations of the cast note one of group `k` that writes their frames, with the stores before it (`cores`); an MFLAGC is
noted by what it clears (R246). -/
def State.noteRival (s : State) (k : Nat) (m : MatOp) (cores : Table Core) : State :=
  match m.instr with
  | .mflagc _ => s.mapCastOps k fun n => { n with rivals := n.rivals.map fun r => { r with cleared := frameField m.instr :: r.cleared } }
  | _ => s.mapCastOps k fun n => if clash m.instr n.instr then { n with rivals := n.rivals ++ [⟨k, m.toMatRun, s.fresh, cores, []⟩] } else n

/-- Operation `r` was outstanding when another group's `x` was published. -/
def Rival.races (r x : Rival) : Bool := r.group != x.group && decide (r.op.id < x.at_)

/-- The order of the operations on element `i` with one more among them: it comes before as many of the last ones as it races with and the
free value says (R246). -/
def orderOn (i : Nat) (os : List Rival) (r : Rival) : List Rival :=
  let free := (os.reverse.takeWhile r.races).length
  let up := ((List.range free).takeWhile fun j => Config.readsOld r.op.id (2 ^ 31 + 2 ^ 20 * j + i)).length
  os.take (os.length - up) ++ r :: os.drop (os.length - up)

/-- A core's accumulators after an operation with the operands that it had, and in place of the flags those that it sets. -/
def State.replay (s : State) (n : Nat) (a : Accs) (r : Rival) : Accs :=
  let t := { s with cores := r.cores }
  let t := t.setCore n ((t.core n).withAccs { a with lost := [] })
  ((t.runMatrix r.group { r.op with started := true, done := true, rivals := [] }).core n).accs

/-- The accumulators after several operations in order, and the flags that each sets. -/
def State.replayAll (s : State) (n : Nat) (a : Accs) : List Rival → Accs × List (Rival × Table Bool)
  | [] => (a, [])
  | r :: rs =>
    let b := s.replay n a r
    let (c, fs) := s.replayAll n b rs
    (c, (r, b.lost) :: fs)

/-- An MFLAGC since has cleared the flag that an operation set in a frame. -/
def Rival.isCleared (r : Rival) (frame : Nat) : Bool := r.cleared.any fun c => decide (c.1 ≤ frame) && decide (frame < c.1 + c.2)

/-- An element that operations of several groups write while they are outstanding is given them whole, in an order chosen for each element;
the flags are ORed (R246). `before` is the core before the last operation, `runs` what comes of each order. -/
def giveElement (base : Nat) (before : Core) (runs : List (List Nat × Accs × List (Rival × Table Bool)))
    (order : Nat → List Rival) (c : Core) (i : Nat) : Core :=
  match runs.find? fun x => x.1 == (order i).map (·.op.id) with
  | none => c
  | some (_, a, fs) =>
    let at_ := base + i
    let lost := before.lost.get false at_ || fs.any fun x => x.2.get false at_ && !x.1.isCleared (i / 1024)
    { c with acc := c.acc.set 0 at_ (a.acc.get 0 at_), accPoison := c.accPoison.set false at_ (a.poison.get false at_)
             lost := c.lost.set false at_ lost }

/-- The elements of an operation of group `k` that rivals wrote, in the orders chosen: `s` is the state before it, `t` after it. -/
def State.settleRivals (s t : State) (k : Nat) (m : MatOp) : State :=
  let g := s.group k
  let n := g.core
  if m.rivals.all fun r => r.group == k then t
  else
    let mine : Rival := ⟨k, m.toMatRun, s.fresh, s.cores, []⟩
    let os := m.rivals ++ [mine]
    let order : Nat → List Rival := fun i => os.foldl (orderOn i) []
    let at_ := (m.rivals.flatMap fun r =>
      let f := sharedFrames r.op.instr m.instr
      (List.range ((f.2 - f.1) * 1024)).map (f.1 * 1024 + ·)).eraseDups
    let start := (m.rivals.head?.map fun r => ({ s with cores := r.cores }).core n).getD (s.core n)
    let orders := (at_.map order).eraseDups.filter fun o => o.map (·.op.id) != os.map (·.op.id)
    let runs := orders.map fun o => (o.map (·.op.id), s.replayAll n start.accs o)
    t.setCore n (at_.foldl (giveElement (s.accBase g) (s.core n) runs order) (t.core n))

/-- One operation of a group performed. -/
def State.runOne (s : State) (k : Nat) (m : MatOp) : State :=
  let t := s.settleRivals (s.runMatrix k m) k m
  (t.noteRival k m s.cores).showFrames k m.instr

/-- Up to `n` operations of a group's oldest batch performed in issue order, each out of the batch before it runs, so that
later ones observe what it publishes (R243). -/
def State.runBatch (s : State) (k : Nat) : Nat → State
  | 0 => s
  | n + 1 =>
    let g := s.group k
    match g.batches with
    | b :: bs =>
      match b.ops with
      | m :: ms => ((s.setGroup k { g with batches := { b with ops := ms } :: bs }).runOne k m).runBatch k n
      | [] => s
    | [] => s

/-- Batches without operations at the head of the list are complete (R241, R242). -/
def dropEmpty : List Batch → List Batch
  | b :: bs => if b.ops.isEmpty then dropEmpty bs else b :: bs
  | [] => []

/-- The oldest batch of a group has no operation left to complete (R242). -/
def Group.batchReady (g : Group) : Bool :=
  match g.batches with
  | b :: _ => b.ops.all (·.done)
  | [] => false

/-- A group's oldest batch published at one instant (R242, R243). -/
def State.publishBatch (s : State) (k : Nat) : State :=
  let n := match (s.group k).batches with
    | b :: _ => b.ops.length
    | [] => 0
  let s := s.runBatch k n
  s.setGroup k { s.group k with batches := dropEmpty (s.group k).batches }

/-- BATCH_COMPLETE (R242). -/
def execBatchComplete (group : Nat) (s : State) : Ans :=
  let g := s.group group
  happens (g.life == .resident && g.batchReady) s (s.publishBatch group)

/-! ### Traps that were held (R190, R195), the watchdog (R126) and the fragment schedule (R118) -/

/-- HANDLER_ENTRY_DEFERRED (R195): the window is free and the other stream's instruction is finished. -/
def execHandlerEntryDeferred (group : Nat) (s : State) : Ans :=
  let g := s.group group
  match g.deferred with
  | some t =>
    happens (g.life == .resident && g.handler.isNone && g.parked.isNone && !s.windowBusy group && !g.otherBusy t) s
      (s.enterHandler group t)
  | none => .next s

/-- WATCHDOG's information (R126, R188): split-table index and the lowest thread of the fragment's mask. -/
def watchdogInfo (k : Nat) (f : Fragment) : Dword :=
  BitVec.ofNat 64 (k + 256 * ((threadsOf f.mask).head?.getD 0))

/-- FRAGMENT_WATCHDOG (R126), once the instructions that fragments have begun are finished (R190). -/
def execFragmentWatchdog (group : Nat) (s : State) : Ans :=
  let g := s.group group
  match s.overdue g with
  | some (k, f) =>
    happens (g.life == .resident && !g.laneHeld && !g.stream.unfinished) s
      (s.takeTrap group ⟨cWATCHDOG, f.pc, watchdogInfo k f, true, k, false⟩)
  | none => .next s

/-- Another fragment than the current one is ready. -/
def LaneStream.otherReady (l : LaneStream) : Bool :=
  l.frags.any fun x => x.1 != l.cur && x.2.state == .ready && x.2.mask != 0

/-- The current fragment waits on the scoreboard (R118). -/
def Group.onScoreboard (g : Group) : Bool := g.waitL == .scoreboard

/-- The lane stream is inside an instruction, as one that orders the group's later accesses (R179), or in an exchange (R269): no other
fragment issues. -/
def Group.midInstruction (g : Group) : Bool :=
  g.stream.frag.issued || g.acqL.isSome || !g.readsL.isEmpty || g.fellL || g.xchg.isSome || g.waitL == .acquire

/-- The current fragment gives way (R118): after 256 slots while another is ready, or because it waits on the scoreboard. -/
def Group.switchDue (g : Group) : Bool :=
  g.stream.running && !g.laneHeld && !g.midInstruction
    && ((decide (g.stream.slots ≥ 256) && g.stream.otherReady) || (g.onScoreboard && g.stream.wake.otherReady))

/-- The switch: it changes the order of issue and nothing else (R118). -/
def Group.switchFragment (g : Group) : Group :=
  let l := g.stream
  let l := if g.onScoreboard then
      let l := l.wake
      l.setFrag l.cur { l.frag with state := .waiting }
    else l
  { g.setStream l.select with waitL := .none }

/-- FAIRNESS_SWITCH (R118). -/
def execFairnessSwitch (group : Nat) (s : State) : Ans :=
  let g := s.group group
  happens (g.life == .resident && g.switchDue) s (s.setGroup group g.switchFragment)

/-! ### The ends of waits -/

/-- The oldest WGROW request of a core whose group still waits (R141). -/
def State.oldestGrower (s : State) (core : Nat) : Option (Nat × Nat) :=
  (s.core core).growers.find? fun x => (s.group x.1).life == .resident

/-- A group's window enlarged at a base (R141 step 5), and its scalar stream past WGROW. -/
def State.grantGrow (s : State) (core k n base : Nat) : State :=
  let s := s.growWindow k base n
  let c := s.core core
  let s := s.setCore core { c with growers := c.growers.filter fun x => x.1 != k }
  s.setGroup k (s.group k).advance

/-- WGROW_GRANT (R141): requests of a core are served oldest first. -/
def execWgrowGrant (core : Nat) (s : State) : Ans :=
  match s.oldestGrower core with
  | some (k, n) =>
    let g := s.group k
    match s.placeWindow core (g.w * n * 4) g.area (some k) with
    | some base => .next (s.grantGrow core k n base)
    | none => .next s
  | none => .next s

/-- WFUSE_TIMEOUT (R139). -/
def execWfuseTimeout (group : Nat) (s : State) : Ans :=
  let g := s.group group
  match g.fuse with
  | some f => happens (g.life == .resident) s (s.setGroup group (g.leaveFuse f.sd 4))
  | none => .next s

/-- XCHG_TIMEOUT (R269). -/
def execXchgTimeout (group : Nat) (s : State) : Ans :=
  let g := s.group group
  match g.xchg with
  | some f =>
    happens (g.life == .resident) s ((s.putStatus (s.xchgSide group f.ops) 1).leaveXchg group f.ops)
  | none => .next s

/-- SYIELD_RESUME (R86). -/
def execSyieldResume (group : Nat) (s : State) : Ans :=
  .next (s.setGroup group { s.group group with yielding := false })

end Sys2Proof.Machine
end

