-- ==== Sys2Proof/Machine/MemEvents.lean ====
section
/-!
DEFINITION. Events between the L1s and the homes (R277 to R289, R298 to R311), the slices' service of tenants (R290 to R295)
and the retry of refused requests (R287, R288).
-/
namespace Sys2Proof.Machine

/-! ### Ways of a set (R294) -/

/-- A set's order with one way as its most recently used. -/
def lruTouch (order : List Nat) (way : Nat) : List Nat := order.filter (· != way) ++ [way]

/-- The way of a set that holds a line or its visitor copy. -/
def Slice.wayOf (x : Slice) (line : Nat) (visitor : Bool) : Option Nat :=
  (List.range 16).find? fun w =>
    match x.ways.get none (line % 1024 * 16 + w) with
    | some y => y.line == line && y.visitor == visitor
    | none => false

/-- The way a context's fill takes: an invalid one of its mask, lowest first, otherwise its least recently used one. -/
def Slice.victim (x : Slice) (line : Nat) (mask : BitVec 16) : Option Nat :=
  let mine := (List.range 16).filter fun w => mask.getLsbD w
  match mine.find? fun w => (x.ways.get none (line % 1024 * 16 + w)).isNone with
  | some w => some w
  | none => ((x.lru.get [] (line % 1024)).filter mine.contains).head?

/-- A hit, or a fill under the context's way mask; a mask of zero allocates nothing (R294). A visitor copy whose way is taken
goes with it. -/
def Slice.touch (x : Slice) (line context : Nat) (mask : BitVec 16) (visitor : Bool) : Slice :=
  let set := line % 1024
  match x.wayOf line visitor with
  | some w => { x with lru := x.lru.set [] set (lruTouch (x.lru.get [] set) w) }
  | none =>
    match x.victim line mask with
    | none => x
    | some w =>
      let gone := match x.ways.get none (set * 16 + w) with
        | some y => if y.visitor then x.visitors.set none y.line none else x.visitors
        | none => x.visitors
      { x with
        ways := x.ways.set none (set * 16 + w) (some ⟨line, context, visitor⟩)
        lru := x.lru.set [] set (lruTouch (x.lru.get [] set) w), visitors := gone }

/-- Bytes that a request moves, for the division of energy (R356). -/
def Req.bytes (r : Req) : Nat :=
  match r.kind with
  | .read | .prefetch => 128
  | .write _ mask _ _ _ => ((List.range 128).filter fun i => mask.getLsbD i).length
  | .atomic a => a.size
  | .pin => 0

/-- The home slice of a request hit or filled; its bytes are served to its group. -/
def State.touchHome (s : State) (r : Req) : State :=
  let s := s.setGroup r.group { s.group r.group with served := (s.group r.group).served + r.bytes }
  s.setSlice r.slice ((s.slice r.slice).touch r.line r.context (s.acting r.slice r.context).wayMask false)

/-! ### What a home may perform (R277, R287, R297) -/

/-- A write or a pin registration. -/
def ReqKind.isWrite (k : ReqKind) : Bool :=
  match k with
  | .write _ _ _ _ _ => true
  | .pin => true
  | _ => false

/-- The declared use of an atomic; 0 for another request. -/
def Req.use (r : Req) : Nat :=
  match r.kind with
  | .atomic a => a.use
  | _ => 0

/-- An atomic that may take effect before earlier accesses of its group to the word: one declared .NOR (R307). -/
def Req.mayLead (r : Req) : Bool := r.use == 3
/-- An atomic that may take effect after later ones: one declared .COM or .NOR (R307). -/
def Req.mayLag (r : Req) : Bool := r.use == 2 || r.use == 3

/-- An unpinning write request (R286). -/
def Req.unpins (r : Req) : Bool :=
  match r.kind with
  | .write _ _ _ _ unpin => unpin
  | _ => false

/-- Request `r` need not wait for `q` of its own group: the use of one of them gives the word no order (R307). No atomic passes the
unpinning write of its line, whose bytes may be another group's (R286, R298). -/
def Req.passes (r q : Req) : Bool := r.group == q.group && !q.unpins && (r.mayLead || q.mayLag)

/-- A granted request may be performed: granted requests for the line that reached the slice before it come first (R277), and so
do earlier writes of its own L1 to the line (R298), but for those of its group that a declared use lets it pass (R307). -/
def State.mayPerform (s : State) (slice id : Nat) (r : Req) : Bool :=
  r.stage == .granted && r.slice == slice && !(s.reqList.any fun x =>
    x.2.line == r.line && !r.passes x.2
      && ((x.2.stage == .granted && x.2.slice == slice && decide (x.2.arrived < r.arrived))
        || (decide (x.1 < id) && x.2.l1 == r.l1 && x.2.kind.isWrite && x.2.undone)))

/-- A request that stands at the slice of its own sector goes on to its home; a write or an atomic invalidates the visitor copy
there first (R281). -/
def State.forward (s : State) (id : Nat) (r : Req) : State :=
  let s := if r.kind = .read ∨ r.kind = .prefetch then s else s.dropVisitor r.l1 r.line
  s.queueAt (s.homeSlice (128 * r.line)) id r

/-- A request stands at the home of its line. -/
def State.atHome (s : State) (r : Req) : Bool := r.slice == s.homeSlice (128 * r.line)

/-- The retry limit (R288, R327): 0 selects 1024, 1 to 15 act as 16. -/
def State.retryLimit (s : State) : Nat :=
  if s.driver.retryLim = 0 then 1024 else max 16 s.driver.retryLim.toNat

/-- Another L1 pins the line (R287). -/
def State.pinnedElsewhere (s : State) (r : Req) : Bool :=
  (s.slice r.slice).pins.any fun p => p.1 == r.line && p.2 != r.l1

/-- The request is refused: it carries acquire or release semantics and its line is pinned by another L1 (R287). One that cannot
reach its home completes instead (R297). -/
def State.refuses (s : State) (r : Req) : Bool :=
  r.ordered && s.pinnedElsewhere r && decide (r.tries < s.retryLimit) && !s.unreachable (sectorOfL1 r.l1) r.line

/-- The fall-back performs it (R288). -/
def State.fallsBack (s : State) (r : Req) : Bool := r.ordered && s.pinnedElsewhere r && decide (s.retryLimit ≤ r.tries)

/-! ### Line reads (R277, R281, R399) -/

/-- The 64-byte blocks of a line whose check values do not match. -/
def State.badBlocks (s : State) (line : Nat) : List Nat := [2 * line, 2 * line + 1].filter fun b => s.check.get 0 b != 0

/-- A mismatched block: its eight words tagged POI at home, the check value recomputed, the error logged (R399). -/
def State.poisonBlock (s : State) (block point unit : Nat) : State :=
  let s := (s.setTagsOf (64 * block) 64 tagPOI).recheck (64 * block)
  s.logError (64 * block) point unit 2

/-- Device writes of a 64-byte block of host memory become visible to the host (R332). The block is verified as it leaves by the link: a
mismatch goes with the link's poison indication and is logged (R399), and so does a word tagged POI (log 51). -/
def State.showHost (s : State) (block : Nat) : State :=
  let bad := s.check.get 0 block != 0
  if s.hostView.all fun x => x.1 / 64 != block then s
  else
    let s := { s with
      hostView := s.hostView.filter fun x => x.1 / 64 != block
      hostBad := (s.hostBad.filter (· != block)) ++ (if bad || (tagsAt s.tags (64 * block) 64).contains tagPOI then [block] else []) }
    if bad then s.logError (64 * block) 1 0 2 else s

/-- Every pending device write to `n` bytes of host memory becomes visible. -/
def State.showBlocks (s : State) (pa n : Nat) : State :=
  ((s.hostView.filter fun x => decide (pa ≤ x.1) && decide (x.1 < pa + n)).map (·.1 / 64)).eraseDups.foldl State.showHost s

/-- The line as its home gives it to a fill (R399): an unreachable home gives poisoned data (R297, R357). -/
def State.serveLine (s : State) (r : Req) : State × BitVec 1024 × BitVec 64 :=
  if s.unreachable (sectorOfL1 r.l1) r.line then (s, 0, BitVec.ofNat 64 0xEEEEEEEEEEEEEEEE)
  else
    let s := (s.badBlocks r.line).foldl (fun s b => s.poisonBlock b 0 (s.group r.group).core) s
    let (d, t) := s.homeLine r.line
    (s, d, t)

/-- Other replied reads of the L1 for the line take what a later read brought, so that no fill brings older bytes (R385). -/
def State.renewReplies (s : State) (k line : Nat) (d : BitVec 1024) (t : BitVec 64) : State :=
  { s with reqs := s.reqs.map fun x =>
      match x.2 with
      | some r =>
        if r.l1 = k ∧ r.line = line ∧ r.kind = .read ∧ r.stage = .replied then (x.1, some { r with data := d, tags := t })
        else x
      | none => x }

/-- A word of the line is tagged POI at home. -/
def State.poisonedLine (s : State) (line : Nat) : Bool := (List.range 16).any fun i => s.wordTag (128 * line + 8 * i) == tagPOI

/-- A prefetch performed at the home: a line that holds a poisoned word is not brought in (R182). -/
def State.performPrefetch (s : State) (id : Nat) (r : Req) : State :=
  let s := if s.poisonedLine r.line then s else s.touchHome r
  s.setReq id none

/-- A read performed: at the home, or from a visitor copy at the slice of its own sector, which otherwise passes it on (R281). A
reply from the home that passes that slice takes the place of an older copy there (R385, log 60). -/
def State.performRead (s : State) (id : Nat) (r : Req) : State :=
  if s.atHome r then
    if s.refuses r then s.setReq id (some { r with stage := .refused })
    else if r.kind = .prefetch then s.performPrefetch id r
    else
      let s := s.touchHome r
      let s := if s.homeSector (128 * r.line) = sectorOfL1 r.l1 then s else s.dropVisitor r.l1 r.line
      let (s, d, t) := s.serveLine r
      (s.renewReplies r.l1 r.line d t).setReq id (some { r with stage := .replied, data := d, tags := t, fellBack := s.fallsBack r })
  else
    match if r.kind = .read then s.visitorCopy r.l1 r.line else none with
    | some v =>
      let s := s.setSlice r.slice ((s.slice r.slice).touch r.line r.context (s.acting r.slice r.context).wayMask true)
      (s.renewReplies r.l1 r.line v.data v.tags).setReq id (some { r with stage := .replied, data := v.data, tags := v.tags })
    | none => s.forward id r

/-- HOME_READ (R277). -/
def execHomeRead (slice req : Nat) (s : State) : Ans :=
  match s.req? req with
  | some r =>
    happens ((r.kind == .read || r.kind == .prefetch) && s.mayPerform slice req r) s (s.performRead req r)
  | none => .next s

/-- The fill has gone stale on its way (R283). -/
def L1.staleFill (l : L1) (fused : Bool) (r : Req) : Bool :=
  (!fused && r.c != l.c) || r.h != l.h || r.p != l.p || r.s != l.s

/-- A fetched line merged beneath the dirty bytes that the L1 holds (R279, R283). -/
def L1.fill (l : L1) (r : Req) : L1 :=
  let x := (l.lines.get none r.line).getD { l.newLine with c := r.c, h := r.h, p := r.p, s := r.s }
  { l with lines := l.lines.set none r.line (some { x with
      data := mix (expand8 x.dirty) x.data r.data, valid := BitVec.allOnes 128
      tags := mix (expand4 x.tagDirty) x.tags r.tags, tagKnown := BitVec.allOnes 16
      c := r.c, h := r.h, p := r.p, s := r.s }) }

/-- An ordered read is no longer on its way; one that the fall-back served is noted for its stream, where the access it was made
for still runs (R288). -/
def Group.readArrived (g : Group) (id : Nat) (r : Req) : Group :=
  if r.lane then
    if g.readsL.contains id then { g with readsL := g.readsL.filter (· != id), fellL := g.fellL || r.fellBack } else g
  else if g.readsS.contains id then { g with readsS := g.readsS.filter (· != id), fellS := g.fellS || r.fellBack } else g

/-- A prefetched line with a poisoned word is dropped (R182): nothing but a PREF asked for it. -/
def Req.dropsFill (r : Req) : Bool :=
  r.prefetch && (List.range 16).any fun i => (r.tags.toNat / 2 ^ (4 * i)) % 16 == tagPOI.toNat

/-- A reply's arrival at its L1: a fill that is stale already is not kept. -/
def State.arriveFill (s : State) (id : Nat) (r : Req) : State :=
  let l := s.l1 r.l1
  let fused := decide (r.l1 ≥ 48)
  let s := if l.staleFill fused r || r.dropsFill then s else s.setL1 r.l1 (l.fill r)
  let s := s.setReq id none
  if r.ordered then s.setGroup r.group ((s.group r.group).readArrived id r) else s

/-- L1_FILL (R279). The acknowledgements of its L1's merged writes of the line arrive before it, so that no load mixes those bytes
with a later write of others (R376, log 75). -/
def execL1Fill (req : Nat) (s : State) : Ans :=
  match s.req? req with
  | some r =>
    happens (r.kind == .read && r.stage == .replied && !(s.l1 r.l1).sweeping && !s.acksOut r.l1 (some r.line)) s (s.arriveFill req r)
  | none => .next s

/-- A visitor copy may be kept of a replied read (R281): its home is another sector's, no write or atomic of the sector to the
line is on its way, and the reply is not older than what the home holds. -/
def State.mayVisit (s : State) (r : Req) : Bool :=
  r.kind == .read && r.stage == .replied && s.localSlice r.l1 r.line != s.homeSlice (128 * r.line)
    && r.visitor == (s.sector (sectorOfL1 r.l1)).visitor
    && (r.data, r.tags) == s.homeLine r.line
    && !(s.reqList.any fun x =>
      x.2.line == r.line && sectorOfL1 x.2.l1 == sectorOfL1 r.l1 && x.2.stage != .replied
        && (match x.2.kind with
            | .write _ _ _ _ _ => true
            | .atomic _ => true
            | _ => false))

/-- The copy kept, under the context's way mask: a fill, whatever outdated copy stood there (R281, R294). -/
def State.visit (s : State) (r : Req) : State :=
  let k := s.localSlice r.l1 r.line
  let s := s.dropVisitor r.l1 r.line
  let x := (s.slice k).touch r.line r.context (s.acting k r.context).wayMask true
  if (x.wayOf r.line true).isNone then s
  else s.setSlice k { x with visitors := x.visitors.set none r.line (some ⟨r.data, r.tags, r.visitor⟩) }

/-- VISITOR_FILL (R281). -/
def execVisitorFill (req : Nat) (s : State) : Ans :=
  match s.req? req with
  | some r => happens (s.mayVisit r) s (s.visit r)
  | none => .next s

/-! ### Writes (R279, R280, R285, R286) -/

/-- L1_WRITE_REQUEST_SEND (R279). -/
def execL1WriteRequestSend (l1 line group : Nat) (s : State) : Ans :=
  match (s.l1 l1).lines.get none line with
  | some _ => .next (s.sendUnsent l1 line group)
  | none => .next s

/-- Replied reads of an L1 take the bytes its own request has just merged, so that a fill never brings older ones. -/
def State.overlayReplies (s : State) (k line : Nat) (data : BitVec 1024) (mask : BitVec 128) (tags : BitVec 64)
    (tagMask : BitVec 16) : State :=
  { s with reqs := s.reqs.map fun x =>
      match x.2 with
      | some r =>
        if r.l1 = k ∧ r.line = line ∧ r.kind = .read ∧ r.stage = .replied then
          (x.1, some { r with data := mix (expand8 mask) data r.data, tags := mix (expand4 tagMask) tags r.tags })
        else x
      | none => x }

/-- A write request merged (R280). A home that cannot be reached takes nothing (R297, R357). At the slice of its own sector it
passes on (R281). -/
def State.performWrite (s : State) (id : Nat) (r : Req) : State :=
  match r.kind with
  | .write data mask tags tagMask _ =>
    if !s.atHome r then s.forward id r
    else
      let s := s.touchHome r
      let s := if s.unreachable (sectorOfL1 r.l1) r.line then s
        else ((s.mergeHome r.line data mask tags tagMask).overlayReplies r.l1 r.line data mask tags tagMask).noteSeen r.line
      s.setReq id (some { r with stage := .replied })
  | _ => s

/-- HOME_WRITE_MERGE (R280). -/
def execHomeWriteMerge (slice req : Nat) (s : State) : Ans :=
  match s.req? req with
  | some r => happens (r.kind.isWrite && r.kind != .pin && s.mayPerform slice req r) s (s.performWrite req r)
  | none => .next s

/-- The home records a pin and acknowledges it (R285); one that cannot be reached records nothing (R297). At the slice of its own
sector the registration passes on. -/
def State.performPin (s : State) (id : Nat) (r : Req) : State :=
  if !s.atHome r then s.forward id r
  else
    let x := s.slice r.slice
    let s := if s.unreachable (sectorOfL1 r.l1) r.line then s
      else s.setSlice r.slice { x with pins := x.pins.filter (· != (r.line, r.l1)) ++ [(r.line, r.l1)] }
    s.setReq id (some { r with stage := .replied })

/-- PIN_REGISTRATION (R285). -/
def execPinRegistration (slice req : Nat) (s : State) : Ans :=
  match s.req? req with
  | some r => happens (r.kind == .pin && s.mayPerform slice req r) s (s.performPin req r)
  | none => .next s

/-- The dirty bits an acknowledgement clears: those its request covered and no later store wrote again (R280). -/
def State.cleanLine (s : State) (id : Nat) (r : Req) (mask : BitVec 128) (tagMask : BitVec 16) : State :=
  let l := s.l1 r.l1
  match l.lines.get none r.line with
  | none => s
  | some x =>
    let (m, t) := s.coveredElsewhere r.l1 r.line id x fun _ => true
    s.setL1 r.l1 { l with lines := l.lines.set none r.line (some { x with
      dirty := x.dirty &&& ~~~(mask &&& ~~~m), tagDirty := x.tagDirty &&& ~~~(tagMask &&& ~~~t) }) }

/-- The pin of a line at its home cleared, unless the L1 has pinned the line again (R286). -/
def State.clearPin (s : State) (k line : Nat) : State :=
  if (s.l1 k).pins.contains line then s
  else
    let h := s.homeSlice (128 * line)
    let x := s.slice h
    s.setSlice h { x with pins := x.pins.filter (· != (line, k)) }

/-- An acknowledgement's arrival (R280, R285, R45); that of an unpinning request clears the pin at the home (R286). -/
def State.arriveAck (s : State) (id : Nat) (r : Req) : State :=
  let s := match r.kind with
    | .write _ mask _ tagMask unpin =>
      let s := s.cleanLine id r mask tagMask
      if unpin then s.clearPin r.l1 r.line else s
    | _ => s
  let g := s.group r.group
  (s.setGroup r.group { g with unack := g.unack - 1 }).setReq id none

/-- The acknowledgement of an unpinning request waits until the bytes of the lines that its L1 unpinned before are merged, so that
an acquire which meets no pin finds them at home (R383, log 36). -/
def State.ackDue (s : State) (id : Nat) (r : Req) : Bool :=
  match r.kind with
  | .write _ _ _ _ true => !(s.reqList.any fun x => decide (x.1 < id) && x.2.l1 == r.l1 && x.2.undone && x.2.unpins)
  | _ => true

/-- WRITE_ACK (R280). -/
def execWriteAck (req : Nat) (s : State) : Ans :=
  match s.req? req with
  | some r =>
    let acked := r.kind.isWrite || (match r.kind with
      | .atomic _ => true
      | _ => false)
    happens (acked && r.stage == .replied && s.ackDue req r) s (s.arriveAck req r)
  | none => .next s

/-! ### Atomics at home (R298, R302, R309, R310) -/

/-- A step that its instruction did not wait for, as it is taken again after its trap (R184, log 61). -/
def AtomReq.toLate (a : AtomReq) : Late :=
  ⟨false, a.frag, a.pc, poisonInfo 0 a.va, .step { a with operand := a.own, joined := [] }⟩

/-- A merged request as its group issued it (R308). -/
def AtomReq.ofJoined (a : AtomReq) (j : Joined) : AtomReq :=
  { a with thread := j.thread, frag := j.frag, pc := j.pc, va := j.va, inHandler := j.inHandler, own := j.operand }

/-- A request that was merged into another has been performed with it (R308). -/
def State.joinedResult (s : State) (a : AtomReq) (j : Joined) (poison : Bool) : State :=
  if (s.group j.group).life != .resident then s
  else
    let g := s.group j.group
    let s := s.setGroup j.group { g with reqs := g.reqs.filter (fun x => x.1 != j.id), effect := g.effect || !poison }
    if poison then s.meetLate j.group j.inHandler (a.ofJoined j).toLate else s

/-- The result of an atomic of the scalar stream: its register, no longer held (R65, R79). -/
def State.scalarResult (s : State) (id : Nat) (o : AtomOut) : State :=
  match s.grp.accesses.find? fun x => x.sent == some id with
  | none => s
  | some a =>
    let s := s.upd fun g => g.setAccess { a with accs := [] }
    if o.poison then
      let e := (a.accs.head?.map (·.e)).getD 0
      s.meetLate s.cur a.inHandler ⟨true, a.frag, a.pc, poisonInfo 0 e, .access { a with sent := none }⟩
    else
      match a.instr with
      | .samo sd _ _ _ _ => s.upd fun g => g.wrS sd.toNat (BitVec.ofNat 32 o.old)
      | .scas sd _ _ _ => s.upd fun g => g.wrS sd.toNat (BitVec.ofNat 32 o.old)
      | _ => s

/-- The result of an atomic at its group: registers, marks and the effect bit. -/
def State.atomResult (s : State) (id : Nat) (r : Req) (a : AtomReq) (o : AtomOut) (fell : Bool) : State :=
  if (s.group r.group).life != .resident then s
  else
    s.within r.group fun s =>
      let s := if a.form = 2 ∨ o.poison then s else s.setEffect
      let s := if fell then s.upd fun g => g.stick stickyMiss else s
      if a.scalar then s.scalarResult id o
      else
        let waited := !a.late && a.form != 4
        let s := s.upd fun g => { g with
          reqs := g.reqs.filter fun x => x.1 != id, fellL := g.fellL || (fell && waited), lostL := g.lostL || (o.lost && waited) }
        if a.late then if o.poison then s.meetLate r.group a.inHandler a.toLate else s.atomWrites a o
        else if o.poison then s.upd fun g => { g with poisoned := g.poisoned ++ [a.thread] }
        else if a.form = 4 then s.commitReply a.thread o.stored
        else (s.atomWrites a o).upd fun g => g.markThread a.thread

/-- A thread that was to step after another of its instruction had met poison: it may not have (R184, log 5). -/
def State.leftOut (s : State) (r : Req) (a : AtomReq) : Bool :=
  let g := s.group r.group
  let met := if a.late then g.lates.any fun x => !x.scalar && x.pc == a.pc && x.frag == a.frag else !g.poisoned.isEmpty
  !a.scalar && a.joined.isEmpty && a.form != 4 && met && s.drawn a.thread

/-- Its request answered without a step; one that its instruction does not wait for is taken again with the one that met poison. -/
def State.skipAtomic (s : State) (id : Nat) (r : Req) (a : AtomReq) : State :=
  let s := s.setReq id (if a.counted then some { r with stage := .replied } else none)
  let g := s.group r.group
  (s.setGroup r.group { g with
    reqs := g.reqs.filter fun x => x.1 != id, lates := if a.late then g.lates ++ [a.toLate] else g.lates }).spend

/-- The L1s that sent an atomic, or a request merged into it, give up their copies of its word, so that their groups read no older
value than the step found or left (R180, R385); the device has written where it stored. -/
def State.atomSeen (s : State) (id : Nat) (r : Req) (a : AtomReq) (stored : Bool) : State :=
  let s := (r.l1 :: a.joined.map (·.l1)).eraseDups.foldl (fun (s : State) k => s.dropCopy k a.pa a.size id) s
  if stored then s.noteSeen r.line else s

/-- What an atomic comes to whose home cannot be reached (R297, R313): a failed write, without trap or acquire. SCOND reports that
it has not stored (R310); the spec states no value for another result, which is free (log 62). -/
def State.lostAtomic (s : State) (a : AtomReq) : AtomOut × State :=
  let v := if a.form = 3 then 1 else (Config.freeWord s.free).toNat % 2 ^ (8 * a.size)
  ({ old := v, poison := false, stored := false, lost := true }, { s with free := s.free + 1 })

/-- An atomic performed: the step at the home, then its result; the reply stays as an acknowledgement where the request is
counted (R45). At the slice of its own sector it passes on (R281). -/
def State.performAtomic (s : State) (id : Nat) (r : Req) (a : AtomReq) : State :=
  if !s.atHome r then s.forward id r
  else if s.leftOut r a then s.skipAtomic id r a
  else if s.refuses r then s.setReq id (some { r with stage := .refused })
  else
    let fell := s.fallsBack r
    let s := s.touchHome r
    let (o, s) :=
      if s.unreachable (sectorOfL1 r.l1) r.line then s.lostAtomic a
      else
        let (o, s) := s.atomAtHome r.group a
        (o, if o.poison then s else s.atomSeen id r a o.stored)
    let s := s.setReq id (if a.counted then some { r with stage := .replied, fellBack := fell } else none)
    a.joined.foldl (fun s j => s.joinedResult a j o.poison) (s.atomResult id r a o fell)

/-- HOME_ATOMIC (R298). -/
def execHomeAtomic (slice req : Nat) (s : State) : Ans :=
  match s.req? req with
  | some r =>
    match r.kind with
    | .atomic a => happens (s.mayPerform slice req r) s (s.performAtomic req r a)
    | _ => .next s
  | none => .next s

/-- RETRY_RESEND (R287): the request waits at its home again. -/
def execRetryResend (req : Nat) (s : State) : Ans :=
  match s.req? req with
  | some r =>
    happens (r.stage == .refused) s (s.queueAt (s.firstSlice r.l1 r.line) req { r with tries := r.tries + 1 })
  | none => .next s

/-! ### RACQ (R289) -/

/-- The victim's counters advanced once more than its drain (R289), with the sweep of R284 where one wraps. -/
def State.drainEnd (s : State) (k group : Nat) : State :=
  let (l, wrapped) := (s.l1 k).advance 5
  let s := s.setL1 k l
  if wrapped then
    let s := s.flushL1 k group
    s.setL1 k { s.l1 k with sweeping := true, drainSweep := true, drainFrom := s.fresh }
  else
    (s.setL1 k { s.l1 k with draining := none }).setGroup group { s.group group with racq := 2 }

/-- Counted atomics that groups of an L1 had issued before number `n`, and stores and atomics of theirs that have not left, are on their
way: an order to drain covers their writes (R289, R45). -/
def State.stepsBefore (s : State) (k n : Nat) : Bool :=
  (s.reqList.any fun x => decide (x.1 < n) && x.2.l1 == k && (match x.2.kind with
    | .atomic a => a.counted
    | _ => false))
    || s.groups.any fun x => s.l1Of x.2.core == k && x.2.accesses.any fun a =>
      decide (a.id < n) && a.accs.any fun c => if isScalarStore a.instr then true else c.atom.any AtomReq.released

/-- RACQ_DRAIN_ORDER (R289): the order's arrival, and the later instants at which the victim has its acknowledgements; a wrap
sweep of the victim's own groups is over before the drain increments (R284). -/
def execRacqDrainOrder (group : Nat) (s : State) : Ans :=
  let g := s.group group
  let k := s.l1Of g.racqCore
  let l := s.l1 k
  if g.racq ≠ 1 then .next s
  else if l.draining = some group then
    if s.writesBefore k l.drainFrom || s.stepsBefore k l.drainFrom then .next s
    else if l.drainSweep then
      .next ((s.setL1 k { l.sweep with draining := none }).setGroup group { g with racq := 2 })
    else if l.sweeping then .next s
    else .next (s.drainEnd k group)
  else
    let busy := l.sweeping || (match l.draining with
      | some o => (s.group o).life == .resident && (s.group o).racq == 1
      | none => false)
    if busy then .next s
    else
      let s := s.flushL1 k group
      .next (s.setL1 k { s.l1 k with draining := some group, drainFrom := s.fresh })

/-- RACQ_DRAIN_REPLY (R289): the requester goes on to its acquire. -/
def execRacqDrainReply (group : Nat) (s : State) : Ans :=
  let g := s.group group
  happens (g.racq == 2) s (s.setGroup group { g with racq := 3 })

/-! ### Cycles of a slice (R291 to R293) -/

/-- SLICE_REQUEST_SERVICE (R293): the service of the slice's present cycle, which takes place once. -/
def execSliceRequestService (slice : Nat) (s : State) : Ans := happens (!(s.slice slice).served) s (s.serve slice)

/-- SLICE_TOKEN_REFILL (R292): the slice's present cycle, its requests served, ends with the refill. -/
def execSliceTokenRefill (slice : Nat) (s : State) : Ans :=
  happens (s.slice slice).served s (s.refillSlice slice 1)

end Sys2Proof.Machine
end

