-- ==== Sys2Proof/Machine/EngineEvents.lean ====
section
/-!
DEFINITION. The copy engine (R185, R186, R250 to R253, R257) and multicast (R271 to R273). A command's elements move one by one in
turns of the agenda, those that are left at its completion; a source byte written meanwhile is read as it was or as it is (log 7).
-/
namespace Sys2Proof.Machine

/-! ### Tensors and ranges -/

/-- Bounds of a tensor's bytes before rotation: the lowest, and the one after the highest (R227). -/
def Tensor.bounds (t : Tensor) : Int × Int :=
  let dim : Nat → Int → Int × Int := fun e st => let d := ((e : Int) - 1) * st; (min 0 d, max 0 d)
  let a := dim t.e1 t.s1
  let b := dim t.e2 t.s2
  let c := dim t.e3 t.s3
  ((t.addr : Int) + a.1 + b.1 + c.1, (t.addr : Int) + (t.e0 * t.esize : Nat) + a.2 + b.2 + c.2)

/-- The bounds taken out to the blocks a rotation moves bytes within (R228). -/
def Tensor.range (t : Tensor) : Int × Int :=
  if t.rot = 0 then t.bounds
  else
    let al : Int := 16 * 2 ^ t.rot
    (t.bounds.1 / al * al, (t.bounds.2 + al - 1) / al * al)

/-- The checks of R252 that one descriptor alone decides: extents, alignment of elements, and of rotated rows. -/
def Tensor.sound (t : Tensor) : Bool :=
  let al : Nat := 16 * 2 ^ t.rot
  let strides := [(t.e1, t.s1), (t.e2, t.s2), (t.e3, t.s3)].filter fun x => decide (x.1 > 1)
  t.count != 0 && t.addr % t.esize == 0 && strides.all (fun x => x.2 % (t.esize : Int) == 0)
    && (t.rot == 0 || (t.addr % al == 0 && ([t.s1, t.s2, t.s3].take t.dims).all fun x => x % (al : Int) == 0))

/-- A range of bytes: GLOBAL virtual addresses, or bytes of a core's scratchpad area. -/
structure Range where
  space : Nat
  core : Nat
  lo : Nat
  hi : Nat
deriving DecidableEq, Repr, Inhabited

/-- The range of a tensor of a launch's cast on a core, where every address lies in its space (R176, R252). -/
def State.rangeOf (s : State) (launch core : Nat) (t : Tensor) : Option Range :=
  let (lo, hi) := t.range
  if !t.sound || decide (lo < 0) then none
  else
    let lo := lo.toNat
    let hi := hi.toNat
    match t.space with
    | 0 => if hi ≤ 2 ^ 56 ∨ (2 ^ 64 - 2 ^ 56 ≤ lo ∧ hi ≤ 2 ^ 64) then some ⟨0, core, lo, hi⟩ else none
    | sp =>
      let n := if sp = 1 then core else core / 4 * 4 + lo / 2 ^ 21
      let off := if sp = 1 then lo else lo % 2 ^ 21
      let one := decide (sp = 1) || (decide (lo / 2 ^ 21 = (hi - 1) / 2 ^ 21) && decide (hi ≤ 2 ^ 23))
      match s.castOn launch n with
      | some c =>
        if one && c.saved.isNone && decide (off + (hi - lo) ≤ c.scratchSize) then
          some ⟨1, n, c.scratch + off, c.scratch + off + (hi - lo)⟩
        else none
      | none => none

/-- Two ranges overlap (R252). -/
def Range.meets (a b : Range) : Bool :=
  a.space == b.space && (a.space == 0 || a.core == b.core) && decide (a.lo < b.hi) && decide (b.lo < a.hi)

/-! ### Elements -/

/-- Who an engine acts for, and where it stands: the copy engine sees its own core's L1 (R379), and no local write of an
engine leaves an older copy there (R254, R365). -/
structure Actor where
  launch : Nat
  core : Nat
  /-- Place of the issuing group, for a fault record (R324). -/
  place : Nat
  context : Nat
  part : Nat
  sees : Bool
  renews : Bool
deriving DecidableEq, Repr, Inhabited

/-- What an element access of an engine comes to; a translation fault names who met it. -/
inductive Moved where
  | ok (v : Nat) (tag : Tag)
  | fault (who : Actor) (va kind access : Nat)
  | bad
deriving DecidableEq, Repr, Inhabited

/-- A scratchpad byte index of an engine's SCRATCH or CLUSTER address, on its core. -/
def State.engineScratch (s : State) (x : Actor) (space a size : Nat) : Option (Nat × Nat) :=
  let n := if space = 1 then x.core else x.core / 4 * 4 + a / 2 ^ 21
  let off := if space = 1 then a else a % 2 ^ 21
  if space ≠ 1 ∧ a / 2 ^ 23 ≠ 0 then none
  else
    match s.castOn x.launch n with
    | some c => if c.saved.isNone ∧ off + size ≤ c.scratchSize then some (n, c.scratch + off) else none
    | none => none

/-- The engine's requests to a physical address complete with poisoned data or a failed write (R297, R357); a party that stands
outside the cores meets only a failed stack. -/
def State.engineLost (s : State) (x : Actor) (pa : Nat) : Bool :=
  if x.renews then s.unreachable (sectorOfCore x.core) (pa / 128) else s.stackDead pa

/-- The line of the engine's own L1 that a physical address lies in, where the engine sees it. -/
def State.engineLine (s : State) (x : Actor) (pa : Nat) : Option Line :=
  if x.sees then (s.l1 (s.l1Of x.core)).lines.get none (pa / 128) else none

/-- An element of memory as an engine reads it: bytes and tag of its own core's stores from the L1, the others from home (R379).
What the fabric reads of a block whose check value does not match is poisoned (R399). -/
def State.engineMem (s : State) (x : Actor) (pa size : Nat) (tagged : Bool) : Moved :=
  let line := s.engineLine x pa
  let v := gather (fun i =>
    match line with
    | some l =>
      if l.dirty.getLsbD (pa % 128 + i) then BitVec.ofNat 8 (l.data.toNat / 2 ^ (8 * (pa % 128 + i))) else s.byte (pa + i)
    | none => s.byte (pa + i)) size
  let home := if !x.sees && s.check.get 0 (pa / 64) != 0 then tagPOI else s.wordTag pa
  let tag := match line with
    | some l => if l.tagDirty.getLsbD (pa % 128 / 8) then BitVec.ofNat 4 (l.tags.toNat / 2 ^ (4 * (pa % 128 / 8))) else home
    | none => home
  .ok v (seenTag tagged tag)

/-- An element read by an engine. -/
def State.engineRead (s : State) (x : Actor) (space a size : Nat) : Moved :=
  match space with
  | 0 =>
    if !canonical (BitVec.ofNat 64 a) then .bad
    else
      match s.translate x.context x.part a aRead with
      | .fault k => .fault x a k aRead
      | .ok pa tagged =>
        if isView pa then .ok (s.viewRead pa size) 0
        else if s.engineLost x pa then .ok 0 tagPOI
        else s.engineMem x pa size tagged
  | _ =>
    match s.engineScratch x space a size with
    | some (n, at_) =>
      .ok (gather (fun i => (s.core n).scratch.get 0 (at_ + i)) size) ((s.core n).scratchTags.get 0 (at_ / 8))
    | none => .bad

/-- A scratchpad written with a tag for the word. -/
def State.putScratch (s : State) (n at_ size v : Nat) (tag : Tag) : State :=
  let c := s.core n
  s.setCore n { c with
    scratch := (List.range size).foldl (fun m i => m.set 0 (at_ + i) (BitVec.ofNat 8 (v / 2 ^ (8 * i)))) c.scratch
    scratchTags := c.scratchTags.set 0 (at_ / 8) tag }

/-- An unpinning write request on its way without `n` bytes and their tags. -/
def Req.without (r : Req) (pa n : Nat) : Req :=
  match r.kind with
  | .write d m t w true => { r with kind := .write d (m &&& ~~~byteMask (pa % 128) n) t (w &&& ~~~wordMask (pa % 128) n) true }
  | _ => r

/-- Bytes of a pinning release that an engine of the core has written over since: the unpinning request carries them no longer, be it
still to be sent or on its way, for the release happened before the engine's write (R384, R385, log 36). -/
def State.dropHeld (s : State) (k pa n : Nat) : State :=
  let s := { s with reqs := s.reqs.map fun (x : Nat × Option Req) => (x.1, x.2.map fun (r : Req) =>
    if r.l1 = k ∧ r.line = pa / 128 ∧ Req.undone r then Req.without r pa n else r) }
  let l := s.l1 k
  match l.lines.get none (pa / 128) with
  | none => s
  | some x => s.setL1 k { l with lines := l.lines.set none (pa / 128) (some { x with
      held := x.held &&& ~~~byteMask (pa % 128) n, heldTags := x.heldTags &&& ~~~wordMask (pa % 128) n }) }

/-- Bytes of memory written by an engine: merged at their home (R253, R311); no older copy is left in its own core's L1 or in its
sector's slices (R254, R257, R365), and the host sees a write to its memory later (R332). On a page with TAG = 0 a tag
that comes with its word is discarded (R24, R333). A write that cannot reach its home takes no effect. -/
def State.engineStore (s : State) (x : Actor) (pa size v : Nat) (tag : Tag) (tagged : Bool) : State :=
  if s.engineLost x pa then s
  else
    let s := (s.hideFromHost pa size).writeMem pa (leBytes size v)
    let s := (if tagged || decide (size < 8) then s.setWordTag pa tag else s).noteSeen (pa / 128)
    let k := s.l1Of x.core
    if x.renews then ((s.dropHeld k pa size).dropVisitor k (pa / 128)).dropCopy k pa size s.fresh else s

/-- An element written by an engine. -/
def State.engineWrite (s : State) (x : Actor) (space a size v : Nat) (tag : Tag) : Except Moved State :=
  match space with
  | 0 =>
    if !canonical (BitVec.ofNat 64 a) then .error .bad
    else
      match s.translate x.context x.part a aWrite with
      | .fault k => .error (.fault x a k aWrite)
      | .ok pa tagged => if isView pa then .error .bad else .ok (s.engineStore x pa size v tag tagged)
  | _ =>
    match s.engineScratch x space a size with
    | some (n, at_) => .ok (s.putScratch n at_ size v tag)
    | none => .error .bad

/-- The tag a copied element's word takes (R251). -/
def copyTag (size : Nat) (t : Tag) : Tag := if size = 8 then t else 0

/-- How a movement ended. -/
inductive Ended where
  | ok
  | bad
  | fault (who : Actor) (va kind access : Nat)
deriving DecidableEq, Repr, Inhabited

/-- Elements moved one after another until one fails; what is written stays written (R252). `word` names the destination word that an
element shares with others: where one of them is poisoned, those that follow leave the word so (R363). -/
def State.moveElements (s : State) (read : State → Nat → Moved) (write : State → Nat → Nat → Tag → Except Moved State)
    (word : Nat → Option Nat) : List Nat → Nat → Nat → State × Ended
  | _, 0, _ => (s, .ok)
  | bad, n + 1, i =>
    match read s i with
    | .fault who va k a => (s, .fault who va k a)
    | .bad => (s, .bad)
    | .ok v t =>
      let t := if (word i).any bad.contains then tagPOI else t
      match write s i v t with
      | .error (.fault who va k a) => (s, .fault who va k a)
      | .error _ => (s, .bad)
      | .ok s' => s'.moveElements read write word (if t == tagPOI then bad ++ (word i).toList else bad) n (i + 1)

/-- The destination word of element `i`, where elements are smaller than a word. -/
def Tensor.shared (t : Tensor) (i : Nat) : Option Nat := if t.esize < 8 then some (t.at i / 8) else none

/-! ### Range locks (R185, R186) -/

/-- Free entries of a core's table, lowest first. -/
def Core.freeLocks (c : Core) : List Nat := (List.range 64).filter fun k => (c.locks.get none k).isNone

/-- A range registered for a command in the lowest free entry, in 256-byte units. -/
def State.lock (s : State) (table cmd ctx : Nat) (r : Range) (write : Bool) : State :=
  let c := s.core table
  match c.freeLocks with
  | k :: _ =>
    let lo := if r.space = 0 then r.lo % 2 ^ 57 else r.lo
    s.setCore table { c with locks := c.locks.set none k (some
      { cmd := cmd, space := r.space, context := ctx, lo := lo / 256, hi := (lo + (r.hi - r.lo) + 255) / 256, write := write }) }
  | [] => s

/-- The entries of a command freed. -/
def State.unlock (s : State) (cmd : Nat) : State :=
  { s with cores := s.cores.map fun c => (c.1, { c.2 with
      locks := c.2.locks.filter fun l =>
        match l.2 with
        | some l => l.cmd != cmd
        | none => true }) }

/-- The table that holds a range of a command of a core (R185). -/
def Range.table (r : Range) (core : Nat) : Nat := if r.space = 0 then core else r.core

/-- Every table has the entries the ranges need (R186). -/
def State.locksFree (s : State) (core : Nat) (rs : List (Range × Bool)) : Bool :=
  rs.all fun r =>
    decide ((rs.filter fun x => x.1.table core == r.1.table core).length ≤ (s.core (r.1.table core)).freeLocks.length)

/-! ### Commands (R250 to R253) -/

/-- An engine acting for a command of a group. -/
def State.actorOf (s : State) (group launch core context : Nat) : Actor :=
  { launch := launch, core := core, place := (s.group group).place, context := context
    part := match s.launch? launch with
      | some l => l.partition
      | none => 0
    sees := true, renews := true }

def CopyCmd.actor (c : CopyCmd) (s : State) : Actor := s.actorOf c.group c.launch c.core c.context

/-- The ranges a command registers, source before destination, or none where a check of R252 that its descriptors decide
fails. -/
def State.copyPlan (s : State) (c : CopyCmd) : Option (List (Range × Bool)) :=
  let d := tensorOf c.zd
  let o := tensorOf c.zs
  let pair : Bool → Option (List (Range × Bool)) := fun ok =>
    match s.rangeOf c.launch c.core o, s.rangeOf c.launch c.core d with
    | some a, some b => if ok && d.esize == o.esize && !a.meets b then some [(a, false), (b, true)] else none
    | _, _ => none
  match c.op with
  | .cpy _ => pair (d.count == o.count)
  | .cpyq _ _ => pair (d.count == o.count)
  | .cpys _ => (s.rangeOf c.launch c.core d).map fun b => [(b, true)]
  | .gath zi =>
    let i := tensorOf zi
    if (s.rangeOf c.launch c.core i).isNone then none else pair (d.count == o.e0 * i.count)
  | .scat zi =>
    let i := tensorOf zi
    if (s.rangeOf c.launch c.core i).isNone then none else pair (o.count == d.e0 * i.count)
  | .mcast _ _ _ _ _ => if d.esize = o.esize ∧ d.count = o.count then (s.rangeOf c.launch c.core o).map fun a => [(a, false)] else none

/-- The stores as a command finds them. -/
def State.moment (s : State) (command : Nat) : Past :=
  { command := command, mem := s.mem, tags := s.tags, check := s.check, cores := s.cores, l1s := s.l1s }
/-- The state with its stores as a command found them. -/
def State.since (s : State) (p : Past) : State :=
  { s with mem := p.mem, tags := p.tags, check := p.check, cores := p.cores, l1s := p.l1s }

/-- An element read at an unspecified time since a command began: each byte as it was or as it is (R246, R253). -/
def Past.element (p : Past) (key size : Nat) (old new : Moved) : Moved :=
  match old, new with
  | .ok v t, .ok v' t' =>
    .ok (if v = v' then v' else gather (fun i =>
        BitVec.ofNat 8 ((if Config.readsOld p.command (key + i) then v else v') / 2 ^ (8 * i))) size)
      (if t = t' then t' else if Config.readsOld p.command key then t else t')
  | _, r => r

/-- An element of a tensor read by a command. -/
def State.readElement (s : State) (p : Past) (x : Actor) (t : Tensor) (i : Nat) : Moved :=
  let read := fun (s : State) => s.engineRead x t.space (t.at i) t.esize
  p.element (t.space * 2 ^ 64 + t.at i) t.esize (read (s.since p)) (read s)

/-- The element of a row side for position `i` of the flat side: its row comes from the index tensor (R251). -/
def State.rowElement (s : State) (p : Past) (x : Actor) (rows idx : Tensor) (i : Nat) : Except Moved Nat :=
  match s.readElement p x idx (i / rows.e0) with
  | .ok v _ => if v < rows.e1 then .ok (v * rows.e0 + i % rows.e0) else .error .bad
  | r => .error r

/-- How many elements a command moves (R251). -/
def CopyCmd.total (c : CopyCmd) : Nat :=
  let d := tensorOf c.zd
  match c.op with
  | .cpy (some limit) => min d.count (limit.toNat / d.esize)
  | .scat _ => (tensorOf c.zs).count
  | .mcast _ _ _ _ _ => 0
  | _ => d.count

/-- Element `i` as a command reads it (R251). -/
def State.copyRead (s : State) (c : CopyCmd) (i : Nat) : Moved :=
  let x := c.actor s
  let o := tensorOf c.zs
  match c.op with
  | .cpys fill => .ok (fill.toNat % 2 ^ (8 * (tensorOf c.zd).esize)) 0
  | .gath zi =>
    match s.rowElement c.past x o (tensorOf zi) i with
    | .ok j => s.readElement c.past x o j
    | .error r => r
  | _ => s.readElement c.past x o i

/-- Element `i` written where the command puts it (R251). -/
def State.copyWrite (s : State) (c : CopyCmd) (i v : Nat) (t : Tag) : Except Moved State :=
  let x := c.actor s
  let d := tensorOf c.zd
  let put : Nat → Except Moved State := fun j => s.engineWrite x d.space (d.at j) d.esize v (copyTag d.esize t)
  match c.op with
  | .scat zi =>
    match s.rowElement c.past x d (tensorOf zi) i with
    | .ok j => put j
    | .error r => .error r
  | _ => put i

/-- At most `n` of the elements that a command has still to move, in the order of the destination, or of a scatter's source (R251,
R252). -/
def State.runCopy (s : State) (c : CopyCmd) (n : Nat) : State × Ended :=
  if (s.copyPlan c).isNone then (s, .bad)
  else s.moveElements (fun s i => s.copyRead c i) (fun s i v t => s.copyWrite c i v t) (fun _ => none) [] (min n (c.total - c.moved)) c.moved

/-- A fault of an engine posted to the driver, unless the ring is full (R324, R328). -/
def State.engineFault (s : State) (e : Ended) : State :=
  match e with
  | .fault who va k a => if s.ringFull then s else s.postFault who.context va k a who.core who.place true
  | _ => s

/-- A multicast's source read once (R271). -/
def State.readAll (s : State) (p : Past) (x : Actor) (t : Tensor) : Nat → Nat → List (Nat × Tag) × Ended
  | 0, _ => ([], .ok)
  | n + 1, i =>
    match s.readElement p x t i with
    | .fault who va k a => ([], .fault who va k a)
    | .bad => ([], .bad)
    | .ok v tag =>
      let (l, e) := s.readAll p x t n (i + 1)
      ((v, tag) :: l, e)

/-- The command a copy-queue entry becomes. -/
def State.newCopy (s : State) (k : Nat) (e : CopyEntry) : CopyCmd :=
  let g := s.group k
  let pending : List (Nat × Delivery) := match e.op with
    | .mcast _ _ clusters _ _ => ((List.range 12).filter fun c => clusters.getLsbD c).map fun c => (c, Delivery.pending)
    | _ => []
  { group := k, launch := g.launch, core := g.core, context := s.contextOf g, op := e.op, zd := e.zd, zs := e.zs, past := .none
    pushing := none, data := none, deliveries := pending, moved := 0 }

/-- A multicast's source read, before its first delivery; where a check of it fails, every destination is in error (R271). -/
def State.readSource (s : State) (c : CopyCmd) : State × CopyCmd :=
  match c.op with
  | .mcast _ _ _ _ _ =>
    let failed : CopyCmd := { c with deliveries := c.deliveries.map fun d => (d.1, Delivery.failed) }
    let o := tensorOf c.zs
    if (s.copyPlan c).isNone then (s, failed)
    else
      match s.readAll c.past (c.actor s) o o.count 0 with
      | (l, .ok) => (s, { c with data := some l })
      | (_, e) => (s.engineFault e, failed)
  | _ => (s, c)

/-- A command's ranges registered (R185). -/
def State.register (s : State) (id : Nat) (c : CopyCmd) : State :=
  ((s.copyPlan c).getD []).foldl (fun s r => s.lock (r.1.table c.core) id c.context r.1 r.2) s

/-- A command out of its queue, its ranges registered (R185). -/
def State.startCopy (s : State) (k : Nat) (c : CopyCmd) : State :=
  let g := s.group k
  let (id, s) := s.take
  let s := s.setGroup k { g with copyQ := g.copyQ.drop 1 }
  let s := s.register id c
  { s with copyCmds := s.copyCmds.set none id (some { c with past := s.moment id }) }

/-- The entry at the head of the copy queue, where it is to be performed. -/
def Group.readyCopy (g : Group) : Option CopyEntry :=
  match g.copyQ with
  | e :: _ => if e.guard == .decided true then some e else none
  | [] => none

/-- COPY_COMMAND_START (R185). -/
def execCopyCommandStart (group : Nat) (s : State) : Ans :=
  let g := s.group group
  match g.readyCopy with
  | some e =>
    let c := s.newCopy group e
    happens (g.life == .resident && s.locksFree c.core ((s.copyPlan c).getD [])) s (s.startCopy group c)
  | none => .next s

def State.copyCmd? (s : State) (id : Nat) : Option CopyCmd := s.copyCmds.get none id
def State.setCopyCmd (s : State) (id : Nat) (c : Option CopyCmd) : State := { s with copyCmds := s.copyCmds.set none id c }

/-- Bytes that the package's memory, network and links served to a launch's command (R356). -/
def State.serveLaunch (s : State) (key n : Nat) : State :=
  match s.launch? key with
  | some l => s.setLaunch key (some { l with served := l.served + n })
  | none => s

/-- Bytes of a command's elements that lie in GLOBAL space, and of a multicast those that its deliveries brought. -/
def CopyCmd.bytes (c : CopyCmd) : Nat :=
  let d := tensorOf c.zd
  let o := tensorOf c.zs
  let from_ := if o.space = 0 then o.count * o.esize else 0
  match c.op with
  | .mcast _ _ _ _ _ => from_ + (c.deliveries.filter fun x => x.2 == .done).length * o.count * o.esize
  | .cpys _ => if d.space = 0 then c.total * d.esize else 0
  | _ => c.total * ((if o.space = 0 then d.esize else 0) + (if d.space = 0 then d.esize else 0))

/-- A command completed: STICKY bits, its locks released, its group's counter lowered (R44, R185, R252). -/
def State.finishCopy (s : State) (id : Nat) (c : CopyCmd) (sticky : Word) : State :=
  let s := ((s.unlock id).setCopyCmd id none).serveLaunch c.launch c.bytes
  let g := s.group c.group
  s.setGroup c.group { g.stick sticky with engOut := g.engOut - 1 }

/-- The queue of the issuing core is bound to the command's launch. -/
def State.boundTo (s : State) (launch core q : Nat) : Option Queue :=
  match s.queue? core q with
  | some x => if x.launch = launch then some x else none
  | none => none

/-- The elements that are left moved, then the command completed, or its push due (R251 to R253). -/
def State.completeCopy (s : State) (id : Nat) (c : CopyCmd) : State :=
  match s.runCopy c c.total with
  | (s, .ok) =>
    match c.op with
    | .cpyq _ q =>
      match s.boundTo c.launch c.core q with
      | some b => s.setCopyCmd id (some { c with pushing := some b.id })
      | none => s.finishCopy id c stickyEngErr
    | _ => s.finishCopy id c 0
  | (s, e) => (s.engineFault e).finishCopy id c stickyEngErr

/-- A command is a multicast. -/
def CopyCmd.isMcast (c : CopyCmd) : Bool :=
  match c.op with
  | .mcast _ _ _ _ _ => true
  | _ => false

/-- A command out of its queue moves its next element, at a time that the spec leaves open (R253); one that fails is found at the
completion. -/
def State.moveElement (s : State) (id : Nat) : State :=
  match s.copyCmd? id with
  | some c =>
    if c.isMcast || c.pushing.isSome || decide (c.total ≤ c.moved) then s
    else
      match s.runCopy c 1 with
      | (t, .ok) => t.setCopyCmd id (some { c with moved := c.moved + 1 })
      | _ => s
  | none => s

/-- ENGINE_COMMAND_COMPLETE (R253). -/
def execEngineCommandComplete (cmd : Nat) (s : State) : Ans :=
  match s.copyCmd? cmd with
  | some c => happens (!c.isMcast && c.pushing.isNone) s (s.completeCopy cmd c)
  | none => .next s

/-- The cast a command was issued for is saved. -/
def State.castSaved (s : State) (launch core : Nat) : Bool := (s.castOn launch core).any fun c => c.saved.isSome

/-- The push that is due: made where its binding stands and the ring has a place, an error where the binding has ended, and
otherwise it waits (R251, R255, R257, R349). -/
def State.pushCopy (s : State) (id : Nat) (c : CopyCmd) (handle : Word) (q binding : Nat) : State :=
  match s.boundTo c.launch c.core q with
  | some b =>
    if b.id ≠ binding then s.finishCopy id c stickyEngErr
    else if b.free = 0 then s
    else (s.pushHandle c.core q b handle).finishCopy id c 0
  | none => if s.castSaved c.launch c.core then s else s.finishCopy id c stickyEngErr

/-- CPYQ_PUSH (R257). -/
def execCpyqPush (cmd : Nat) (s : State) : Ans :=
  match s.copyCmd? cmd with
  | some c =>
    match c.op, c.pushing with
    | .cpyq handle q, some b => .next (s.pushCopy cmd c handle q b)
    | _, _ => .next s
  | none => .next s

/-! ### Multicast (R271 to R273) -/

/-- A saved binding marked lost (R273). -/
def State.markLost (s : State) (launch core q : Nat) : State :=
  match s.launch? launch with
  | none => s
  | some l =>
    s.setLaunch launch (some { l with casts := l.casts.map fun (c : Cast) =>
      if c.core = core then
        { c with saved := c.saved.map fun (v : SavedCast) =>
            { v with queues := v.queues.set none q ((v.queues.get none q).map fun (b : Queue) => { b with lost := true }) } }
      else c })

/-- The queue's binding saved with its cast. -/
def State.savedBinding (s : State) (launch core q : Nat) : Bool :=
  match s.castOn launch core with
  | some c => c.saved.any fun v => (v.queues.get none q).isSome
  | none => false

/-- Elements written at one destination. -/
def State.landElements (s : State) (x : Actor) (t : Tensor) : List (Nat × Tag) → Nat → State × Ended
  | [], _ => (s, .ok)
  | (v, tag) :: rest, i =>
    match s.engineWrite x t.space (t.at i) t.esize v (copyTag t.esize tag) with
    | .ok s => s.landElements x t rest (i + 1)
    | .error _ => (s, .bad)

/-- One destination's outcome recorded. -/
def CopyCmd.resolve (c : CopyCmd) (cluster : Nat) (d : Delivery) : CopyCmd :=
  { c with deliveries := c.deliveries.map fun x => if x.1 = cluster then (cluster, d) else x }

/-- A delivery without a binding at core `core` of its cluster: NACK, and a saved binding is marked lost (R271, R273). -/
def State.nackDelivery (s : State) (id : Nat) (c : CopyCmd) (cluster core q : Nat) : State :=
  let s := if s.savedBinding c.launch core q then s.markLost c.launch core q else s
  s.setCopyCmd id (some (c.resolve cluster .nacked))

/-- Up to `n` more of the elements of a delivery written, `from_` of them standing there. -/
def State.landSome (s : State) (id : Nat) (c : CopyCmd) (cluster core binding from_ n : Nat) : State :=
  match s.landElements { c.actor s with core := core } (tensorOf c.zd) (((c.data.getD []).drop from_).take n) from_ with
  | (s, .ok) => s.setCopyCmd id (some (c.resolve cluster (.arriving binding (min (from_ + n) (c.data.getD []).length))))
  | (s, _) => s.setCopyCmd id (some (c.resolve cluster .failed))

/-- A delivery at core `core` of a cluster begun, the elements read: checked, and its range locked (R271). -/
def State.openDelivery (s : State) (id : Nat) (c : CopyCmd) (cluster core q : Nat) : State :=
  let out : State → Delivery → State := fun s d => s.setCopyCmd id (some (c.resolve cluster d))
  if s.mappedOut 7 cluster || (s.island cluster).failed then out s .failed
  else
    match s.boundTo c.launch core q with
    | none => s.nackDelivery id c cluster core q
    | some b =>
      match s.rangeOf c.launch core (tensorOf c.zd) with
      | some r =>
        let clash := match s.rangeOf c.launch c.core (tensorOf c.zs) with
          | some o => o.meets r
          | none => true
        if clash then out s .failed
        else if (s.core core).freeLocks.isEmpty then s
        else out (s.lock core id c.context r true) (.arriving b.id 0)
      | none => out s .failed

/-- A delivery begun, the first one after the source is read (R271). -/
def State.beginDelivery (s : State) (id : Nat) (c : CopyCmd) (cluster core q : Nat) : State :=
  if c.data.isSome then s.openDelivery id c cluster core q
  else
    let (s, c) := s.readSource c
    if c.data.isSome then s.openDelivery id c cluster core q else s.setCopyCmd id (some c)

/-- Where a command's delivery at a cluster stands. -/
def CopyCmd.deliveryAt (c : CopyCmd) (cluster : Nat) : Option Delivery := (c.deliveries.find? fun d => d.1 == cluster).map (·.2)

/-- A delivery whose range is locked: the elements that are left are written, then the handle is pushed, once the ring has a place
(R271). -/
def State.endDelivery (s : State) (id cluster core q : Nat) (handle : Word) : State :=
  match s.copyCmd? id with
  | none => s
  | some c =>
    match c.deliveryAt cluster with
    | some (.arriving b m) =>
      if (s.boundTo c.launch core q).all fun x => x.id != b then s.nackDelivery id c cluster core q
      else
        let s := s.landSome id c cluster core b m ((c.data.getD []).length - m)
        match s.copyCmd? id, s.boundTo c.launch core q with
        | some c, some x =>
          if c.deliveryAt cluster = some .failed then s
          else if x.free = 0 then s.setCopyCmd id (some (c.resolve cluster (.landed b)))
          else (s.pushHandle core q x handle).setCopyCmd id (some (c.resolve cluster .done))
        | _, _ => s
    | _ => s

/-- A delivery from its beginning. -/
def State.deliver (s : State) (id : Nat) (c : CopyCmd) (cluster core q : Nat) (handle : Word) : State :=
  (s.beginDelivery id c cluster core q).endDelivery id cluster core q handle

/-- A landed delivery's push tried again (R271). -/
def State.deliverAgain (s : State) (id : Nat) (c : CopyCmd) (cluster core q : Nat) (handle : Word) (binding : Nat) : State :=
  match s.boundTo c.launch core q with
  | some b =>
    if b.id ≠ binding then s.setCopyCmd id (some (c.resolve cluster .nacked))
    else if b.free = 0 then s
    else (s.pushHandle core q b handle).setCopyCmd id (some (c.resolve cluster .done))
  | none => s.nackDelivery id c cluster core q

/-- A multicast's delivery at a cluster writes its next element, at a time that the spec leaves open (R253). -/
def State.moveDelivery (s : State) (id cluster : Nat) : State :=
  match s.copyCmd? id with
  | some c =>
    match c.op, c.deliveryAt cluster with
    | .mcast _ j _ q _, some .pending => s.beginDelivery id c cluster (4 * cluster + j) q
    | .mcast _ j _ q _, some (.arriving b m) =>
      if m < (c.data.getD []).length && (s.boundTo c.launch (4 * cluster + j) q).any fun x => x.id == b then
        s.landSome id c cluster (4 * cluster + j) b m 1
      else s
    | _, _ => s
  | none => s

/-- MCAST_DELIVERY (R271). -/
def execMcastDelivery (cmd cluster : Nat) (s : State) : Ans :=
  match s.copyCmd? cmd with
  | some c =>
    match c.op, c.deliveryAt cluster with
    | .mcast handle j _ q _, some .pending => .next (s.deliver cmd c cluster (4 * cluster + j) q handle)
    | .mcast handle j _ q _, some (.arriving _ _) => .next (s.endDelivery cmd cluster (4 * cluster + j) q handle)
    | .mcast handle j _ q _, some (.landed b) => .next (s.deliverAgain cmd c cluster (4 * cluster + j) q handle b)
    | _, _ => .next s
  | none => .next s

/-- Clusters whose delivery came to `d`, as a bitmap. -/
def CopyCmd.bitmap (c : CopyCmd) (d : Delivery) : Nat :=
  c.deliveries.foldl (fun n x => if x.2 = d then n + 2 ^ x.1 else n) 0

/-- STATUS of a multicast (R272). -/
def CopyCmd.mcastStatus (c : CopyCmd) : Nat :=
  if c.bitmap .failed ≠ 0 then 2 else if c.bitmap .nacked ≠ 0 then 1 else 0

/-- The completion word (R272). -/
def CopyCmd.completionWord (c : CopyCmd) : Nat :=
  c.mcastStatus * 2 ^ 30 + c.bitmap .done * 2 ^ 16 + c.bitmap .nacked

/-- Every destination is resolved. -/
def CopyCmd.resolved (c : CopyCmd) : Bool :=
  c.isMcast && c.deliveries.all fun d =>
    match d.2 with
    | .pending => false
    | .arriving _ _ => false
    | .landed _ => false
    | _ => true

/-- The completion word written, STICKY set, the command complete (R272); a word outside the scratch is not written and is an
error. -/
def State.completeMcast (s : State) (id : Nat) (c : CopyCmd) (at_ : Nat) : State :=
  let sticky := match c.mcastStatus with
    | 0 => 0
    | 1 => stickyPartial
    | _ => stickyEngErr
  match s.engineScratch (c.actor s) 1 at_ 4 with
  | some (n, a) => (s.putScratch n a 4 c.completionWord 0).finishCopy id c sticky
  | none => s.finishCopy id c (sticky ||| stickyEngErr)

/-- MCAST_COMPLETE (R272). -/
def execMcastComplete (cmd : Nat) (s : State) : Ans :=
  match s.copyCmd? cmd with
  | some c =>
    match c.op with
    | .mcast _ _ _ _ at_ => happens c.resolved s (s.completeMcast cmd c at_.toNat)
    | _ => .next s
  | none => .next s

end Sys2Proof.Machine
end

