-- ==== Sys2Proof/Machine/FabricEvents.lean ====
section
/-!
DEFINITION. The fabric of the package (R358 to R369): transfers to and from landing regions, and collectives. What another
package sends or answers comes in the events' arguments; a command to the package's own DOMAINID loops back (R358).
-/
namespace Sys2Proof.Machine

/-! ### Routes (R358, R359, R347) -/

/-- One of the 18 Ramys ports that carries traffic. -/
def State.portUp (s : State) (k : Nat) : Bool := decide (k < 18) && !(s.ports.get ⟨false, 0⟩ k).down && !s.mappedOut 8 k

/-- A command or a flit wakes the routers, and their idle counts start again (R373). -/
def State.wakeFabric (s : State) : State := { s with routers := [], fabricUse := s.clock }

/-- The port of the route to a package (R327, R358, R359): the primary one, or its alternate; a poisoned entry names none (R357, log
59). -/
def State.route (s : State) (domain : Nat) : Option Nat :=
  let e := s.tableWord (s.driver.routeBase.toNat + 4 * domain) 4
  let p := e % 32
  let a := e / 64 % 32
  if e / 32 % 2 = 1 ∧ s.portUp p then some p
  else if e / 2048 % 2 = 1 ∧ s.portUp a then some a
  else none

/-- A command of a partition can reach a package: it loops back, or its route goes through an owned port (R347). -/
def State.reaches (s : State) (part domain : Nat) : Bool :=
  !s.fabricDown && (decide (domain = s.driver.domainId.toNat) || (match s.route domain with
    | some p => s.ownsPort part p
    | none => false))

/-! ### Landing regions (R360, R361) -/

/-- A landing-table entry. -/
structure Landing where
  base : Nat
  bytes : Nat
  valid : Bool
  put : Bool
  get : Bool
  tags : Bool
  stage : Bool
  context : Nat
deriving DecidableEq, Repr, Inhabited

/-- Entry i of the landing table; a poisoned one is not valid (R357, log 59). -/
def State.landing (s : State) (i : Nat) : Landing :=
  let at_ := s.driver.landBase.toNat + 32 * i
  let w := s.tableWord (at_ + 16) 8
  { base := s.readMem at_ 8, bytes := (s.readMem (at_ + 8) 2 + 1) * 65536, valid := w / 2 ^ 63 % 2 == 1
    put := w / 2 ^ 62 % 2 == 1, get := w / 2 ^ 61 % 2 == 1, tags := w / 2 ^ 60 % 2 == 1, stage := w / 2 ^ 59 % 2 == 1
    context := w % 64 }

/-- Who writes a landing region: a party of system scope, in the region's context (R366, R379). Its fault records name core 0 and
place 0, which no group of the package issued (log 69). -/
def State.landActor (s : State) (e : Landing) : Actor :=
  { launch := 0, core := 0, place := 0, context := e.context, part := s.partOf e.context, sees := false, renews := false }

/-- The page of a signal word must permit R, W and A (R363): kind 5 without W or A; without R kind 2, as an atomic (log 69). -/
def State.checkSignal (s : State) (e : Landing) (va : Nat) : Option (Nat × Ended) :=
  match s.translate e.context (s.partOf e.context) va aAtomic with
  | .fault k => some (2, .fault (s.landActor e) va k aAtomic)
  | .ok _ _ =>
    match s.translate e.context (s.partOf e.context) va aRead with
    | .fault k => some (2, .fault (s.landActor e) va k aAtomic)
    | .ok _ _ => none

/-- The checks of a region before any element moves (R361, R363): a status, and the fault of a signal page. -/
def State.checkLanding (s : State) (e : Landing) (off len esize : Nat) (get : Bool) (signal : Option Nat) :
    Option (Nat × Ended) :=
  if !e.valid then some (1, .bad)
  else if (if get then !e.get else !e.put) || decide (e.bytes < off + len) || off % esize != 0 then some (2, .bad)
  else
    match signal with
    | none => none
    | some g => if g % 8 ≠ 0 ∨ e.bytes < g + 8 then some (2, .bad) else s.checkSignal e (e.base + g)

/-- The tag a word takes at the far end of a transfer (R363). -/
def fabricTag (kept : Bool) (size : Nat) (t : Tag) : Tag := if (size = 8 && kept) || t == tagPOI then t else 0

/-- The physical blocks of host memory that `n` bytes from a virtual address of an actor's context lie in become visible to the
host. -/
def State.showRange (s : State) (x : Actor) (va n : Nat) : State :=
  let first := va / 65536
  (List.range ((va % 65536 + n + 65535) / 65536)).foldl (fun (s : State) i =>
    let lo := max va (65536 * (first + i))
    let hi := min (va + n) (65536 * (first + i + 1))
    match s.translate x.context x.part lo aWrite with
    | .ok pa _ => s.showBlocks pa (hi - lo)
    | .fault _ => s) s

/-- The signal word raised (R363): a release at .SYS, before which the host sees the `n` bytes that the transfer wrote from `off` on
(R332, R366). -/
def State.raiseSignal (s : State) (e : Landing) (off n g : Nat) : State :=
  let s := s.showRange (s.landActor e) ((e.base + off) % 2 ^ 64) n
  match s.translate e.context (s.partOf e.context) (e.base + g) aAtomic with
  | .ok pa tagged => s.engineStore (s.landActor e) pa 8 ((s.readMem pa 8 + 1) % 2 ^ 64) 0 tagged
  | .fault _ => s

/-- An element of a region read or written. -/
def State.landRead (s : State) (e : Landing) (off esize i : Nat) : Moved :=
  s.engineRead (s.landActor e) 0 ((e.base + off + i * esize) % 2 ^ 64) esize
def State.landWrite (s : State) (e : Landing) (off esize i v : Nat) (t : Tag) : Except Moved State :=
  s.engineWrite (s.landActor e) 0 ((e.base + off + i * esize) % 2 ^ 64) esize v (fabricTag e.tags esize t)

/-! ### Mismatches at fabric egress (R399) -/

/-- Distinct mismatched blocks that a list of physical addresses touches. -/
def State.mismatched (s : State) (pas : List Nat) : List Nat :=
  ((pas.map (· / 64)).filter fun b => s.check.get 0 b != 0).eraseDups

/-- The error entries of blocks that leave through the fabric. -/
def State.logEgress (s : State) (pas : List Nat) (port : Nat) : State :=
  (s.mismatched pas).foldl (fun s b => s.logError (64 * b) 2 port 2) s

/-- Those of blocks that have come not to match since a command began, and that it reads only now. -/
def State.logSince (s : State) (p : Past) (pas : List Nat) : State :=
  ((s.mismatched pas).filter fun b => p.check.get 0 b == 0).foldl (fun s b => s.logError (64 * b) 2 0 2) s

/-- Physical addresses of `n` elements of a tensor in GLOBAL space, from one on. -/
def State.elementPas (s : State) (x : Actor) (t : Tensor) (first n : Nat) : List Nat :=
  if t.space = 0 then
    (List.range n).filterMap fun i =>
      match s.translate x.context x.part (t.at (first + i)) aRead with
      | .ok pa _ => some pa
      | .fault _ => none
  else []
def State.tensorPas (s : State) (x : Actor) (t : Tensor) : List Nat := s.elementPas x t 0 t.count

/-! ### XPUT and XGET (R363, R364) -/

/-- The entry at the head of the fabric queue, where it is to be performed. -/
def Group.readyFab (g : Group) : Option FabEntry :=
  match g.fabQ with
  | e :: _ => if e.guard == .decided true then some e else none
  | [] => none

/-- The fabric engine acting on local memory for a command's group. -/
def FabCmd.actor (c : FabCmd) (s : State) : Actor := { s.actorOf c.group c.launch c.core c.context with sees := false }

/-- The range lock of a local tensor in SCRATCH (R363). -/
def State.fabPlan (s : State) (c : FabCmd) : List (Range × Bool) :=
  let t := tensorOf c.z
  if t.space = 1 then
    match s.rangeOf c.launch c.core t with
    | some r => [(r, c.get)]
    | none => []
  else []

def State.fabCmd? (s : State) (id : Nat) : Option FabCmd := s.fabCmds.get none id

/-- Out of the queue, its range registered; where it goes to another package, its packets sent. -/
def State.startFab (s : State) (k : Nat) (c : FabCmd) : State :=
  let g := s.group k
  let (id, s) := s.take
  let s := s.setGroup k { g with fabQ := g.fabQ.drop 1 }
  let s := (s.fabPlan c).foldl (fun s r => s.lock c.core id c.context r.1 r.2) s
  let s := if c.get then s else s.logEgress (s.tensorPas (c.actor s) (tensorOf c.z)) ((s.route (c.target.toNat % 4096)).getD 0)
  { s.wakeFabric with fabCmds := s.fabCmds.set none id (some { c with past := s.moment id }) }

/-- FABRIC_COMMAND_START (R363). -/
def execFabricCommandStart (group : Nat) (s : State) : Ans :=
  let g := s.group group
  match g.readyFab with
  | some e =>
    match e.op with
    | .transfer get target offset signal =>
      let c : FabCmd :=
        { group := group, launch := g.launch, core := g.core, context := s.contextOf g, get := get, z := e.z, target := target
          offset := offset, signal := signal, past := .none }
      happens (g.life == .resident && s.locksFree c.core (s.fabPlan c)) s (s.startFab group c)
    | .coll _ _ _ _ _ => .next s
  | none => .next s

/-- A status's bits in a group: STICKY, and the status of its kind of command (R361, R362). -/
def statusSticky (status : Nat) : Word := match status with
  | 0 => 0
  | 1 => stickyPartial
  | _ => stickyEngErr
def statusBits (status : Nat) : BitVec 2 := match status with
  | 0 => 0
  | 1 => 1
  | _ => 2

/-- A transfer completed (R362). -/
def State.finishFab (s : State) (id : Nat) (c : FabCmd) (status : Nat) : State :=
  let s := s.unlock id
  let s := { s.wakeFabric with fabCmds := s.fabCmds.set none id none }
  let g := s.group c.group
  (s.setGroup c.group { g.stick (statusSticky status) with
    engOut := g.engOut - 1, fabOut := g.fabOut - 1, fabStat := g.fabStat ||| statusBits status }).serveLaunch c.launch
      (if status = 0 then (tensorOf c.z).count * (tensorOf c.z).esize else 0)

/-- The signal word a transfer names (R363). -/
def FabCmd.signalAt (c : FabCmd) : Option Nat :=
  if c.get ∨ c.signal = 0xFFFFFFFF then none else some c.signal.toNat

/-- The tensor that a run of a region's elements is. -/
def Landing.tensor (e : Landing) (off esize n : Nat) : Tensor :=
  { space := 0, esize := esize, rot := 0, dims := 0, addr := e.base + off, e0 := n, e1 := 1, e2 := 1, e3 := 1, s1 := 0, s2 := 0, s3 := 0 }

/-- A transfer to the package's own region (R358, R363): it acts as another package's would, each side in its own context (R324), and
what leaves a side is verified there (R399). -/
def State.loopBack (s : State) (c : FabCmd) : State × Nat :=
  let t := tensorOf c.z
  let e := s.landing (c.target.toNat / 4096 % 4096)
  let off := c.offset.toNat
  let x := c.actor s
  match s.checkLanding e off (t.count * t.esize) t.esize c.get c.signalAt with
  | some (st, why) => (s.engineFault why, st)
  | none =>
    let out := if c.get then
        (s.logEgress (s.tensorPas (s.landActor e) (e.tensor off t.esize t.count)) 0).moveElements
          (fun s i => s.landRead e off t.esize i)
          (fun s i v tag => s.engineWrite x t.space (t.at i) t.esize v (fabricTag e.tags t.esize tag)) t.shared [] t.count 0
      else
        (s.logSince c.past (s.tensorPas x t)).moveElements (fun s i => s.readElement c.past x t i) (fun s i v tag => s.landWrite e off t.esize i v tag)
          (e.tensor off t.esize t.count).shared [] t.count 0
    match out with
    | (s, .ok) =>
      (match c.signalAt with
        | some g => s.raiseSignal e off (t.count * t.esize) g
        | none => s, 0)
    | (s, why) => (s.engineFault why, 2)

/-- Little-endian value of part of a byte list. -/
def bytesNat (bs : List Byte) (at_ n : Nat) : Nat := leNat ((bs.drop at_).take n)

/-- The elements an XGET's reply brings, written to the local tensor (R363). -/
def State.placeReply (s : State) (c : FabCmd) (r : FabricReply) : State × Nat :=
  let t := tensorOf c.z
  let x := c.actor s
  match s.moveElements (fun _ i => .ok (bytesNat r.bytes (i * t.esize) t.esize) (r.tags.getD (i * t.esize / 8) 0))
      (fun s i v tag => s.engineWrite x t.space (t.at i) t.esize v (fabricTag true t.esize tag)) t.shared [] t.count 0 with
  | (s, .ok) => (s, 0)
  | (s, why) => (s.engineFault why, 2)

/-- A transfer's end (R361): ERROR where its own descriptor or its route fails, the loop-back, or the remote side's answer. -/
def State.endTransfer (s : State) (c : FabCmd) (r : FabricReply) : State × Nat :=
  let t := tensorOf c.z
  let x := c.actor s
  let domain := c.target.toNat % 4096
  if (s.rangeOf c.launch c.core t).isNone || !s.reaches x.part domain then (s, 2)
  else if domain = s.driver.domainId.toNat then s.loopBack c
  else if c.get then if r.status = 0 then s.placeReply c r else (s, r.status.toNat)
  else
    match s.readAll c.past x t t.count 0 with
    | (_, .ok) => (s, r.status.toNat)
    | (_, why) => (s.engineFault why, 2)

/-- FABRIC_COMMAND_COMPLETE (R361, R363); a reply with status 3 or an XGET reply of another length does not exist. -/
def execFabricCommandComplete (cmd : Nat) (reply : FabricReply) (s : State) : Ans :=
  match s.fabCmd? cmd with
  | some c =>
    let t := tensorOf c.z
    let ok := c.target.toNat % 4096 == s.driver.domainId.toNat || (reply.status != 3
      && (!c.get || reply.status != 0 || reply.bytes.length == t.count * t.esize))
    if ok then
      let (s, st) := s.endTransfer c reply
      .next (s.finishFab cmd c st)
    else .next s
  | none => .next s

/-- Words at the ends of a packet's data that other packets of its command write too. -/
def Landing.edges (e : Landing) (p : Packet) : List Nat :=
  let lo := e.base + p.offset
  let hi := lo + p.bytes.length
  let edge := fun (on : Bool) (a : Nat) => if p.esize < 8 && on && a % 8 != 0 then [a / 8] else []
  edge (decide (p.first < p.offset)) lo ++ edge (decide (p.offset + p.bytes.length < p.first + p.total)) hi

/-- A word that another packet of the same command has poisoned. -/
def Brought.sameCommand (b : Brought) (p : Packet) : Bool :=
  b.source == p.source && b.region == p.region && b.first == p.first && b.total == p.total

/-- Words of a packet that hold the poison which another packet of its transfer brought: they keep it (R363, log 69). -/
def State.sharedPoison (s : State) (e : Landing) (p : Packet) : List Nat :=
  (e.edges p).filter fun w => s.brought.any fun b => b.sameCommand p && b.word == w

/-- The shared words that a packet brings poison to are noted until its transfer's last packet (R363). -/
def State.noteBrought (s : State) (e : Landing) (p : Packet) : State :=
  let brings := fun (w : Nat) => (List.range (p.bytes.length / p.esize)).any fun i =>
    decide ((e.base + p.offset + i * p.esize) / 8 = w) && p.tags.getD (i * p.esize / 8) 0 == tagPOI
  { s with brought :=
      if p.last then s.brought.filter fun b => !b.sameCommand p
      else s.brought ++ ((e.edges p).filter brings).map fun w => ⟨p.source, p.region, p.first, p.total, w⟩ }

/-- A packet's data performed in its region, where the checks of its whole command hold (R363). -/
def State.receive (s : State) (p : Packet) : State :=
  let e := s.landing p.region.toNat
  let x := s.landActor e
  match s.checkLanding e p.first p.total p.esize p.get p.signal with
  | some (_, why) => s.engineFault why
  | none =>
    if p.get then
      let t := e.tensor p.offset p.esize (p.readLen / p.esize)
      let s := s.logEgress (s.tensorPas x t) ((s.route p.source.toNat).getD 0)
      match s.readAll (s.moment 0) x t t.count 0 with
      | (_, .ok) => s
      | (_, why) => s.engineFault why
    else
      match s.moveElements (fun _ i => .ok (bytesNat p.bytes (i * p.esize) p.esize) (p.tags.getD (i * p.esize / 8) 0))
          (fun s i v tag => s.landWrite e p.offset p.esize i v tag) (e.tensor p.offset p.esize (p.bytes.length / p.esize)).shared
          (s.sharedPoison e p) (p.bytes.length / p.esize) 0 with
      | (s, .ok) =>
        let s := s.noteBrought e p
        match p.signal with
        | some g => if p.last then s.raiseSignal e p.first p.total g else s
        | none => s
      | (s, why) => s.engineFault why

/-- Bytes of the region that a packet writes or asks for. -/
def packetLength (p : Packet) : Nat := if p.get then p.readLen else p.bytes.length

/-- A packet that a package can send (R227, R358): whole elements of a descriptor's size, up to 4 KiB, within its command. -/
def packetSound (p : Packet) : Bool :=
  [1, 2, 4, 8].contains p.esize && packetLength p % p.esize == 0 && decide (packetLength p ≤ 4096) && decide (p.first ≤ p.offset)
    && decide (p.offset + packetLength p ≤ p.first + p.total)

/-- FABRIC_PACKET_RECEIVE (R358, R363). -/
def execFabricPacketReceive (packet : Packet) (s : State) : Ans :=
  happens (packetSound packet && !s.fabricDown) s (s.receive packet).wakeFabric

/-! ### Collectives (R367 to R369) -/

/-- A collective set's entry. -/
structure CollSet where
  /-- Virtual address of the members' DOMAINIDs, in rank order. -/
  list : Nat
  valid : Bool
  context : Nat
  stage : Nat
  rank : Nat
  members : Nat
  slot : Nat
deriving DecidableEq, Repr, Inhabited

/-- Entry i of the collective set table (R367); a poisoned one is not valid (R357, log 59). -/
def State.collSet (s : State) (i : Nat) : CollSet :=
  let at_ := s.driver.collBase.toNat + 32 * i
  let w := s.tableWord (at_ + 8) 8
  { list := s.readMem at_ 8, valid := w / 2 ^ 63 % 2 == 1 && i != 0, context := w / 2 ^ 46 % 64, stage := w / 2 ^ 34 % 4096
    rank := w / 4096 % 4096, members := w % 4096 + 1, slot := s.readMem (at_ + 16) 4 }

/-- The DOMAINID of a rank, read in the set's context (R367). -/
def State.member (s : State) (e : CollSet) (rank : Nat) : Moved :=
  let x : Actor :=
    { launch := 0, core := 0, place := 0, context := e.context, part := s.partOf e.context, sees := false, renews := false }
  s.engineRead x 0 ((e.list + 2 * rank) % 2 ^ 64) 2

/-- Why a partition does not reach the first `n` members of a set (R359): the list cannot be read, or no route works. -/
def State.cutOff (s : State) (part : Nat) (e : CollSet) : Nat → Option Ended
  | 0 => none
  | n + 1 =>
    match s.cutOff part e n with
    | some why => some why
    | none =>
      match s.member e n with
      | .ok v _ => if n = e.rank ∨ s.reaches part (v % 4096) = true then none else some .bad
      | .fault who va k a => some (.fault who va k a)
      | .bad => some .bad

/-- The set, the element type and the elements of a contribution: how many, and the first for a rank (R368). -/
def CollCmd.setIndex (c : CollCmd) : Nat := c.set.toNat % 4096
def CollCmd.type (c : CollCmd) : BitVec 4 := BitVec.ofNat 4 (c.set.toNat / 4096)
def CollCmd.part (c : CollCmd) : Nat := if c.kind = 2 then (tensorOf c.zd).count else (tensorOf c.zs).count
def CollCmd.first (c : CollCmd) (rank : Nat) : Nat := if c.kind = 2 then rank * c.part else 0

/-- The count rule (R368). -/
def CollCmd.countOk (c : CollCmd) (p : Nat) : Bool :=
  let n := (tensorOf c.zs).count
  let m := (tensorOf c.zd).count
  match c.kind with
  | 0 => m == n
  | 1 => m == p * n
  | _ => n == p * m

def CollCmd.actor (c : CollCmd) (s : State) : Actor := { s.actorOf c.group c.launch c.core c.context with sees := false }

/-- The checks of a collective when it leaves its queue (R347, R359, R361, R368): why it ends, where one fails. -/
def State.collFails (s : State) (c : CollCmd) : Option Ended :=
  let e := s.collSet c.setIndex
  let x := c.actor s
  if !e.valid || !c.countOk e.members || decide (e.slot < c.part * (tensorOf c.zs).esize)
      || (s.rangeOf c.launch c.core (tensorOf c.zs)).isNone || (s.rangeOf c.launch c.core (tensorOf c.zd)).isNone
      || s.fabricDown || !s.ownsCollective x.part (c.core / 24) then some .bad
  else s.cutOff x.part e e.members

/-- What a collective sends to the members is verified at egress (R399): its own member's part of a reduce-scatter too, which no other
member is sent. -/
def State.collEgress (s : State) (c : CollCmd) : State :=
  let e := s.collSet c.setIndex
  (List.range e.members).foldl (fun (s : State) r =>
    match s.member e r with
    | .ok v _ =>
      if r = e.rank ∧ c.kind ≠ 2 then s
      else s.logEgress (s.elementPas (c.actor s) (tensorOf c.zs) (c.first r) c.part) ((s.route (v % 4096)).getD 0)
    | _ => s) s

def State.collCmd? (s : State) (id : Nat) : Option CollCmd := s.collCmds.get none id
def State.setCollCmd (s : State) (id : Nat) (c : Option CollCmd) : State := { s with collCmds := s.collCmds.set none id c }

/-- An Abort that arrived before the instance was opened here. -/
def State.abortFor (s : State) (set : Nat) (seq : BitVec 32) : Option Bool :=
  (s.aborts.find? fun a => a.1 == set && a.2.1 == seq).map (·.2.2)

/-- A collective out of its queue: the instance is open, or ended by an Abort or a check (R368, R369). -/
def State.startColl (s : State) (k : Nat) (c : CollCmd) : State :=
  let g := s.group k
  let (id, s) := s.take
  let s := s.setGroup k { g with fabQ := g.fabQ.drop 1 }
  let (s, ended) := match s.collFails c with
    | some why => (s.engineFault why, some false)
    | none => (s.collEgress c, s.abortFor c.setIndex c.seq)
  { s.wakeFabric with
    collCmds := s.collCmds.set none id (some { c with past := s.moment id, aborted := ended })
    aborts := s.aborts.filter fun a => !(a.1 == c.setIndex && a.2.1 == c.seq) }

/-- COLL_COMMAND_START (R368). -/
def execCollCommandStart (group : Nat) (s : State) : Ans :=
  let g := s.group group
  match g.readyFab with
  | some e =>
    match e.op with
    | .coll kind op zd set seq =>
      happens (g.life == .resident) s (s.startColl group
        { group := group, launch := g.launch, core := g.core, context := s.contextOf g, kind := kind, op := op, zd := zd, zs := e.z
          set := set, seq := seq, past := .none, aborted := none })
    | .transfer _ _ _ _ => .next s
  | none => .next s

/-- The open instance of this package's rank. -/
def State.openColl (s : State) (set : Nat) (seq : BitVec 32) : Option (Nat × CollCmd) :=
  s.collCmds.findSome? fun x =>
    match x.2 with
    | some c => if c.setIndex = set ∧ c.seq = seq then some (x.1, c) else none
    | none => none

/-- Virtual address of a rank's contribution in the staging region (R367). -/
def stageAt (e : CollSet) (l : Landing) (seq : BitVec 32) (rank : Nat) : Nat :=
  l.base + seq.toNat % 2 * e.members * e.slot + e.slot * rank

/-- The buffer of an instance holds no other open instance, and not this contribution yet; while the instance two before it is open
here, the buffer is that one's, though nothing of it may have landed (R368). -/
def State.bufferFree (s : State) (set : Nat) (seq : BitVec 32) (rank : Nat) : Bool :=
  (s.landed.all fun l => l.set != set || l.seq.toNat % 2 != seq.toNat % 2 || (l.seq == seq && l.rank != rank))
    && (s.openColl set (seq - 2)).isNone

/-- The instance is the last that ended in its buffer (R368). -/
def State.hasEnded (s : State) (set : Nat) (seq : BitVec 32) : Bool :=
  s.collEnded.get none (2 * set + seq.toNat % 2) == some seq

/-- What a rank's contribution to a member consists of, once all of zs has been read: bytes, and POI for each word that holds an
element read as POI (R399). -/
def CollCmd.contribution (c : CollCmd) (rank : Nat) (l : List (Nat × Tag)) : List Byte × List Tag :=
  let esize := (tensorOf c.zs).esize
  let mine := (l.drop (c.first rank)).take c.part
  let per := 8 / esize
  (mine.flatMap fun x => leBytes esize x.1,
   (List.range ((c.part * esize + 7) / 8)).map fun w =>
     if ((mine.drop (w * per)).take per).any fun x => x.2 == tagPOI then tagPOI else 0)

/-- A contribution's bytes written to the staging region (R369); those of an instance that has ended count for nothing. -/
def State.landBytes (s : State) (set : Nat) (e : CollSet) (l : Landing) (seq : BitVec 32) (rank : Nat) (bs : List Byte)
    (ts : List Tag) : State × Ended :=
  let x := s.landActor l
  let at_ := stageAt e l seq rank
  match s.wakeFabric.moveElements (fun _ i => .ok (bs.getD i 0).toNat (fabricTag false 1 (ts.getD (i / 8) 0)))
      (fun s i v tag => s.engineWrite x 0 ((at_ + i) % 2 ^ 64) 1 v tag) (fun _ => none) [] bs.length 0 with
  | (s, .ok) => (if s.hasEnded set seq then s else { s with landed := s.landed ++ [⟨set, seq, rank⟩] }, .ok)
  | (s, why) => (s.engineFault why, why)

/-- A staging region cannot take contributions (R361, R367): with NACK, or with ERROR. -/
def CollSet.stagingBad (e : CollSet) (l : Landing) : Option Bool :=
  if !l.valid then some true
  else if !l.stage || decide (l.bytes < 2 * e.members * e.slot) then some false
  else none

/-- The contribution of this package's own rank to itself: what stops it ends the collective (R361, R370). -/
def State.contribute (s : State) (set : Nat) (e : CollSet) (l : Landing) (id : Nat) (c : CollCmd) : State :=
  let fails : State → Bool → State := fun s nack => s.setCollCmd id (some { c with aborted := some nack })
  let t := tensorOf c.zs
  match e.stagingBad l with
  | some nack => fails s nack
  | none =>
    let s := s.logSince c.past (s.elementPas (c.actor s) t (c.first e.rank) c.part)
    match s.readAll c.past (c.actor s) t t.count 0 with
    | (els, .ok) =>
      let (bs, ts) := c.contribution e.rank els
      match s.landBytes set e l c.seq e.rank bs ts with
      | (s, .ok) => s
      | (s, _) => fails s false
    | (_, why) => fails (s.engineFault why) false

/-- COLL_CONTRIBUTION_RECEIVE (R369): another member's bytes, or those of this package's own rank. One that is answered with NACK or
ERROR has come as a flit all the same (R373). -/
def execCollContributionReceive (set : Nat) (seq : BitVec 32) (rank : Nat) (data : Contribution) (s : State) : Ans :=
  let e := s.collSet set
  let l := s.landing e.stage
  if s.fabricDown then .next s
  else if rank = e.rank then
    match s.openColl set seq with
    | some (id, c) =>
      happens (c.aborted.isNone && e.valid && decide (rank < e.members) && s.bufferFree set seq rank) s (s.contribute set e l id c)
    | none => .next s
  else if !e.valid || decide (e.members ≤ rank) || (e.stagingBad l).isSome then .next s.wakeFabric
  else
    happens (s.bufferFree set seq rank && decide (data.bytes.length ≤ e.slot)) s
      (s.landBytes set e l seq rank data.bytes data.tags).1

/-- A combining step (R368): 0 add, 1 minimum, 2 maximum. -/
def collStep (op : Nat) (type : BitVec 4) (a b : Nat) : Nat :=
  if type.toNat ≥ 8 then
    match op with
    | 0 => (fmtOf type).add .rne a b
    | 1 => (fmtOf type).minMax false a b
    | _ => (fmtOf type).minMax true a b
  else
    atomValue (match op with
      | 0 => 0
      | 1 => 4
      | _ => 5) type (elemBytes type) a b

/-- Element `i` of a rank's contribution in staging. -/
def State.staged (s : State) (e : CollSet) (l : Landing) (seq : BitVec 32) (esize rank i : Nat) : Moved :=
  s.engineRead (s.landActor l) 0 ((stageAt e l seq rank + i * esize) % 2 ^ 64) esize

/-- Element `i` of the result (R368): combined in ascending rank order, or gathered. -/
def State.combined (s : State) (c : CollCmd) (e : CollSet) (l : Landing) (i : Nat) : Moved :=
  let esize := (tensorOf c.zs).esize
  if c.kind = 1 then s.staged e l c.seq esize (i / c.part) (i % c.part)
  else
    (List.range (e.members - 1)).foldl (fun acc r =>
      match acc with
      | .ok v _ =>
        match s.staged e l c.seq esize (r + 1) i with
        | .ok b _ => .ok (collStep c.op c.type v b) 0
        | x => x
      | x => x) (s.staged e l c.seq esize 0 i)

/-- A collective completed and its buffer freed (R362, R368). -/
def State.finishColl (s : State) (id : Nat) (c : CollCmd) (status : Nat) : State :=
  let s := s.wakeFabric.setCollCmd id none
  let s := { s with
    landed := s.landed.filter fun x => !(x.set == c.setIndex && x.seq == c.seq)
    collEnded := s.collEnded.set none (2 * c.setIndex + c.seq.toNat % 2) (some c.seq) }
  let g := s.group c.group
  (s.setGroup c.group { g.stick (statusSticky status) with
    engOut := g.engOut - 1, collOut := g.collOut - 1, collStat := g.collStat ||| statusBits status }).serveLaunch c.launch
      (if status = 0 then ((tensorOf c.zs).count + (tensorOf c.zd).count) * (tensorOf c.zs).esize else 0)

/-- Every contribution of an instance has landed. -/
def State.allLanded (s : State) (set : Nat) (seq : BitVec 32) (p : Nat) : Bool :=
  (List.range p).all fun r => s.landed.contains ⟨set, seq, r⟩

/-- The result combined and written RAW, whatever tags the contributions have (R368, log 70). -/
def State.completeColl (s : State) (id : Nat) (c : CollCmd) : State :=
  let e := s.collSet c.setIndex
  let l := s.landing e.stage
  let d := tensorOf c.zd
  let x := c.actor s
  match s.moveElements (fun s i => s.combined c e l i) (fun s i v _ => s.engineWrite x d.space (d.at i) d.esize v 0) (fun _ => none) []
      d.count 0 with
  | (s, .ok) => s.finishColl id c 0
  | (s, why) => (s.engineFault why).finishColl id c 2

/-- A member of an instance's set has no working route any longer (R359). -/
def State.routeLost (s : State) (c : CollCmd) : Bool :=
  let e := s.collSet c.setIndex
  s.fabricDown || (List.range e.members).any fun r => r != e.rank && (match s.member e r with
    | .ok v _ => !s.reaches (c.actor s).part (v % 4096)
    | _ => false)

/-- COLL_INSTANCE_COMPLETE (R368, R369): an open instance that still waits for contributions ends with ERROR where a member has lost its
last route (R359, R374). -/
def execCollInstanceComplete (cmd : Nat) (s : State) : Ans :=
  match s.collCmd? cmd with
  | some c =>
    match c.aborted with
    | some nack => .next (s.finishColl cmd c (if nack then 1 else 2))
    | none =>
      if s.allLanded c.setIndex c.seq (s.collSet c.setIndex).members then .next (s.completeColl cmd c)
      else happens (s.routeLost c) s (s.finishColl cmd c 2)
  | none => .next s

/-- COLL_ABORT_RECEIVE (R369): the open instance ends; one not yet opened here ends when it is; one that has ended is past. Its arrival
wakes the routers (R373). -/
def execCollAbortReceive (set : Nat) (seq : BitVec 32) (nack : Bool) (s : State) : Ans :=
  let s := s.wakeFabric
  match s.openColl set seq with
  | some (id, c) => happens c.aborted.isNone s (s.setCollCmd id (some { c with aborted := some nack }))
  | none =>
    happens (!s.hasEnded set seq) s
      { s with aborts := (set, seq, nack) :: s.aborts.filter fun a => !(a.1 == set && a.2.1 == seq) }

end Sys2Proof.Machine
end

