-- ==== Sys2Proof/Machine/Placement.lean ====
section
/-!
DEFINITION. Where launches, casts and groups find room on the cores: areas of the unified store (R172, R173), scratch and
accumulator frames of casts (R173, R222), resident places (R14) and the context that runs (R348).
-/
namespace Sys2Proof.Machine

/-- The lowest start of a free range of `size` below `limit` beside the used ranges (log 17). -/
def lowestGap (used : List (Nat × Nat)) (size limit : Nat) : Option Nat :=
  ((0 :: used.map (·.2)).filter fun b =>
    decide (b + size ≤ limit) && used.all fun x => decide (b + size ≤ x.1) || decide (x.2 ≤ b)).min?

/-! ### Casts on a core -/

/-- The launches with their numbers. -/
def State.launchList (s : State) : List (Nat × Launch) :=
  s.launches.filterMap fun x =>
    match x.2 with
    | some l => some (x.1, l)
    | none => none

/-- The casts that hold space on a core, with the records of their launches. -/
def State.castsHere (s : State) (core : Nat) : List (Cast × LaunchRecord) :=
  s.launchList.flatMap fun x =>
    (x.2.casts.filter fun c => c.core == core && c.saved.isNone).map fun c => (c, x.2.record)

/-- Something stands on the core: a resident group, or a cast's space. -/
def State.coreHeld (s : State) (core : Nat) : Bool := !(s.residents core).isEmpty || !(s.castsHere core).isEmpty

/-- Bytes of a group's share of the register area: its window and its unify stacks (R174, R339). -/
def LaunchRecord.share (r : LaunchRecord) : Nat := r.width * roundN r.n * 4 + r.width * r.udepth * 32

/-- The partition of a core as a record finds it: its own where nothing stands on the core (R173). -/
def State.areas (s : State) (core : Nat) (r : LaunchRecord) : Nat × Nat :=
  if s.coreHeld core then (s.core core).partition.getD (r.sarea, r.rarea) else (r.sarea, r.rarea)

/-- Room for a cast's scratch and frames on a core (R173): the two bases. The core's 768 frames are divided among its casts
(R14, R222). -/
def State.roomForCast (s : State) (core : Nat) (r : LaunchRecord) : Option (Nat × Nat) :=
  let casts := s.castsHere core
  let scratch := lowestGap (casts.map fun c => (c.1.scratch, c.1.scratch + c.1.scratchSize)) (65536 * r.cscr)
    (65536 * (s.areas core r).1)
  let frames := lowestGap (casts.map fun c => (c.1.frame, c.1.frame + c.2.frames)) r.frames 768
  match scratch, frames with
  | some a, some f => some (a, f)
  | _, _ => none

/-- The cores of a cluster. -/
def coresOf (cluster : Nat) : List Nat := (List.range 4).map fun i => 4 * cluster + i

/-- An L1 without its clean lines; an eviction of one may take place at any time (R286). -/
def L1.dropClean (l : L1) : L1 :=
  { l with lines := l.lines.filter fun x =>
      match x.2 with
      | some y => y.pinned || y.dirty != 0 || y.tagDirty != 0
      | none => true }

/-- A cluster's fused setting is fixed (R266): a group is resident there, or a cast's space with groups that are yet to be dispatched
or to come back. A cast whose groups have all exited fixes it no longer. -/
def State.fusionHeld (s : State) (cluster : Nat) : Bool :=
  (coresOf cluster).any fun n => !(s.residents n).isEmpty || s.launchList.any fun x =>
    (x.2.casts.any fun c => c.core == n && c.saved.isNone) && s.castLive x.1 n

/-- The cluster's fused setting allows the record: it is free, or the same (R266). -/
def State.fusedOk (s : State) (cluster : Nat) (r : LaunchRecord) : Bool :=
  (s.fused.get none cluster).getD false == r.fused || !s.fusionHeld cluster

/-- A free setting taken (R266): the lines that groups gone from the cluster have pinned leave the L1s that held them, their clean lines
go. -/
def State.setFusion (s : State) (cluster : Nat) (fused : Bool) : State :=
  let ks := [48 + cluster] ++ coresOf cluster
  let s := match s.groups.find? fun x => clusterOfCore x.2.core == cluster with
    | some (g, _) => ks.foldl (fun (s : State) k => s.unpinAll k g) s
    | none => s
  ks.foldl (fun (s : State) k => s.setL1 k (s.l1 k).dropClean) { s with fused := s.fused.set none cluster (some fused) }

/-- The partition of a core and the fused setting of its cluster as a cast of the record takes them (R173, R266). -/
def State.openCore (s : State) (core : Nat) (r : LaunchRecord) : State :=
  let c := clusterOfCore core
  let s := if s.fusionHeld c then s else s.setFusion c r.fused
  if s.coreHeld core then s
  else (s.setCore core { s.core core with partition := some (r.sarea, r.rarea) }).setL1 core (s.l1 core).dropClean

/-! ### Groups on a core -/

/-- The datapath that a resident place belongs to. -/
def datapathOf (place : Nat) : Nat := place % 16

/-- The lowest free place whose datapath's understudy window is free where one is needed (R195). -/
def State.placeFor (s : State) (core : Nat) (handler : Bool) : Option Nat :=
  (List.range 64).find? fun p =>
    (s.residents core).all fun x =>
      x.2.place != p && !(handler && x.2.handler.isSome && x.2.datapath == datapathOf p)

/-- Every resident group of a core is blocked in WGROW (R142). -/
def State.growBlocked (s : State) (core : Nat) : Bool :=
  !(s.residents core).isEmpty && (s.residents core).all fun x => (s.core core).growers.any fun y => y.1 == x.1

/-! ### Contexts and partitions (R348, R352) -/

/-- A queue descriptor (R334). -/
structure QueueDesc where
  ring : Dword
  headWord : Dword
  /-- log2 of the number of entries. -/
  log : Nat
  context : Nat
  part : Nat
  enable : Bool
deriving DecidableEq, Repr, Inhabited

/-- The descriptor of queue q (R327, R334); a poisoned one enables nothing (R357, log 59). -/
def State.queueDesc (s : State) (q : Nat) : QueueDesc :=
  let at_ := s.driver.qdBase.toNat + 32 * q
  let w := s.tableWord (at_ + 16) 4
  { ring := BitVec.ofNat 64 (s.readMem at_ 8), headWord := BitVec.ofNat 64 (s.readMem (at_ + 8) 8), log := w / 2 ^ 28
    context := w / 2 ^ 22 % 64, part := w / 2 ^ 18 % 16, enable := w % 2 == 1 }

/-- A queue's head, announced records and the notify stores that announced them. -/
def WorkQueue.start : WorkQueue := { head := 0, announced := 0, notified := [] }

def State.workQueue (s : State) (q : Nat) : WorkQueue := s.workQueues.get WorkQueue.start q

/-- A queue holds no announced record. -/
def WorkQueue.idle (w : WorkQueue) : Bool := w.head == w.announced

/-- A context has work: an admitted launch, or announced records in a slot's queue. -/
def State.hasWork (s : State) (p ctx : Nat) : Bool :=
  (s.launchList.any fun x => x.2.partition == p && x.2.context == ctx)
    || s.slots.any fun x =>
      match x.2 with
      | some q => !(s.workQueue q).idle && (s.queueDesc q).part == p && (s.queueDesc q).context == ctx
      | none => false

/-- Groups of a context may become resident in a partition: it is not paused, the context runs or may begin to, and no
group of another context is resident in it (R348). -/
def State.mayRun (s : State) (p ctx : Nat) : Bool :=
  !(s.part p).pausing && ((s.part p).context == ctx || !s.hasWork p (s.part p).context)
    && s.groups.all fun x =>
      x.2.life != .resident || s.partitionOf x.2 != p || s.contextOf x.2 == ctx

/-- The context that runs in a partition. -/
def State.runContext (s : State) (p ctx : Nat) : State :=
  { s with partitions := s.partitions.set PartState.start p { s.part p with context := ctx } }

end Sys2Proof.Machine
end

