-- ==== Sys2Proof/Machine/Preempt.lean ====
section
/-!
DEFINITION. Pre-emption (R200, R201, R202), restore (R203), the save and restore of casts (R349), and the pre-emption that
ends a deadlock of WGROW (R142).
-/
namespace Sys2Proof.Machine

/-! ### Live-ins (R198, R199) -/

/-- What a region's entry keeps. -/
structure LiveIns where
  scalars : BitVec 64
  preds : BitVec 16
  /-- First register and count of each vector range. -/
  ranges : List (Nat × Nat)
deriving DecidableEq, Repr, Inhabited

/-- The live-ins of the start region: s1 to s15 and an inherited range (R198). -/
def LaunchRecord.startLiveIns (r : LaunchRecord) : LiveIns :=
  { scalars := 0xFFFE, preds := 0, ranges := if r.chain = 0 then [] else [(r.first, r.count)] }

/-- Vector range j of a region-table entry (R199). -/
def State.regionRange (s : State) (g : Group) (off j : Nat) : Except (Dword × Option Nat) (Nat × Nat) :=
  match s.regionWord g (off + 16 + 4 * j) 4 with
  | .ok w => .ok (w % 2048, w / 2048 % 4096)
  | .error e => .error e

/-- The vector ranges of an entry, none where one cannot be read. -/
def State.regionRanges (s : State) (g : Group) (off n : Nat) : Option (List (Nat × Nat)) :=
  (List.range n).foldl (fun acc j =>
    match acc, s.regionRange g off j with
    | some l, .ok r => some (l ++ [r])
    | _, _ => none) (some [])

/-- The live-ins of a group's current region and the address its restart takes; none where its table cannot be read. -/
def State.liveIns (s : State) (g : Group) : Option (LiveIns × Dword) :=
  match g.region with
  | .absent => none
  | .start => some ((s.recordOf g).startLiveIns, (s.recordOf g).scode)
  | .at index entry =>
    let off := 32 * index
    match s.regionWord g off 8, s.regionWord g (off + 8) 2, s.regionWord g (off + 10) 2 with
    | .ok a, .ok b, .ok n =>
      (s.regionRanges g off (min n 4)).map fun l =>
        ({ scalars := BitVec.ofNat 64 a, preds := BitVec.ofNat 16 b, ranges := l }, entry)
    | _, _, _ => none

/-- A register lies in a range of the entry. -/
def LiveIns.has (l : LiveIns) (r : Nat) : Bool := l.ranges.any fun x => decide (x.1 ≤ r) && decide (r < x.1 + x.2)

/-! ### Saving registers and wings tables (R170, R200, R201) -/

/-- The window's registers that `keep` names. -/
def State.savedRegs (s : State) (g : Group) (keep : Nat → Bool) : Table Word :=
  let c := s.core g.core
  (List.range g.w).foldl (fun m t =>
    (List.range g.n).foldl (fun m r => if keep r then m.set 0 (t * 2048 + r) (c.regs.get 0 (g.wordIndex t r)) else m) m) []

/-- The tags of the pairs both of whose registers `keep` names. -/
def State.savedTags (s : State) (g : Group) (keep : Nat → Bool) : Table Tag :=
  let c := s.core g.core
  (List.range g.w).foldl (fun m t =>
    (List.range (g.n / 2)).foldl (fun m p =>
      if keep (2 * p) && keep (2 * p + 1) then m.set 0 (t * 1024 + p) (c.regTags.get 0 (g.wordIndex t (2 * p) / 2)) else m) m) []

/-- Start and end in the scratchpad area of a group's wings tables, as far as they lie in its cast's scratch (R176); empty while
WINGSIZE.K is 0 (R149). -/
def State.wingsRange (s : State) (g : Group) : Nat × Nat :=
  let k := g.wingSize.toNat % 16
  match s.castOn g.launch g.core with
  | some c =>
    let lo := c.scratch + min g.wingBase.toNat c.scratchSize
    (lo, if k = 0 then lo else min (lo + g.w * 2 ^ k * 16) (c.scratch + c.scratchSize))
  | none => (0, 0)

/-- The registers and wings tables of a group as a save takes them. -/
def State.saveOf (s : State) (g : Group) (full : Bool) (keep : Nat → Bool) : Saved :=
  let c := s.core g.core
  let (lo, hi) := s.wingsRange g
  { full := full, regs := s.savedRegs g keep, tags := s.savedTags g keep
    wings := c.scratch.slice lo hi, wingTags := c.scratchTags.slice (lo / 8) (hi / 8) }

/-- The group as a live-in save leaves it (R200, R203): its place in the region lost, the registers not saved zero; the term state
and the resumption marks stay (R170). A deferred POISON (R239), which R200 does not list, is dropped (log 28). -/
def Group.toEntry (g : Group) (l : LiveIns) (entry : Dword) : Group :=
  let ts := g.threads.map fun (x : Nat × Thread) => (x.1, { x.2 with preds := x.2.preds &&& l.preds })
  { g with
    threads := ts.filter fun x => !decide (x.2 = Thread.start)
    scalars := g.scalars.filter fun x => l.scalars.getLsbD x.1
    pc := entry, lane := .idle g.w, laneQ := [], deferred := none, poisonDue := [], lates := [], waitQueue := none
    fellS := false, fellL := false, poisoned := [], watchdogPc := none }.noRel

/-- The group out of its core: its waits are given up and taken again after the restore. -/
def Group.away (g : Group) (v : Saved) : Group :=
  { g.noRel with
    life := .saved, saved := some v, preempt := none, parked := none, waitS := .none, waitL := .none, yielding := false
    fuse := none, xchg := none }

/-- A save made (R200 to R202): reservations and a WGROW request go, the launch queues the group for dispatch. -/
def State.putAway (s : State) (k : Nat) (g : Group) (v : Saved) : State :=
  let behind := g.preempt.any (·.behind)
  let s := (s.setGroup k (g.away v)).clearResvs k
  let c := s.core g.core
  let s := s.setCore g.core { c with growers := c.growers.filter fun x => x.1 != k }
  match s.launch? g.launch with
  | some l =>
    let l := { l with cycles := l.cycles + s.span g }
    s.setLaunch g.launch (some (if behind then { l with behind := l.behind ++ [k] } else { l with requeued := l.requeued ++ [k] }))
  | none => s

/-- What a save waits for is over: matrix batches, write acknowledgements, accesses on their way, whose registers are still to be
written, and what an instruction has begun (R200, R201, R288). -/
def Group.quiet (g : Group) : Bool :=
  g.matIdle && g.unack == 0 && g.accesses.isEmpty && g.reqs.isEmpty && !g.stream.unfinished && g.acqL.isNone && g.readsL.isEmpty && !g.fellL && !g.midScalar

/-- The save of a stopped group, where what it waits for is over; a region table that cannot be read leaves it to the full
save. -/
def State.trySave (s : State) (k : Nat) : State :=
  let g := s.group k
  if !g.quiet then s
  else if g.preempt.any (·.full) then s.putAway k g (s.saveOf g true fun _ => true)
  else
    match s.liveIns g with
    | some (l, entry) => s.putAway k (g.toEntry l entry) (s.saveOf g false l.has)
    | none => s

/-- A pre-emption served as far as the group's state allows (R200): a stopped group closes its open batch and is saved. -/
def State.servePreempt (s : State) (k : Nat) : State :=
  let g := s.group k
  if g.life == .resident && g.stopped then (s.setGroup k g.closeOpen).trySave k else s

/-- A request to pre-empt a group; a second one changes nothing. -/
def State.askPreempt (s : State) (k : Nat) (behind : Bool) : State :=
  let g := s.group k
  if g.life == .resident && g.preempt.isNone then s.setGroup k { g with preempt := some ⟨false, behind⟩ } else s

/-- PREEMPTION_REQUEST (R200); repeated, it serves the request where it stands. -/
def execPreemptionRequest (group : Nat) (s : State) : Ans := .next ((s.askPreempt group false).servePreempt group)

/-- TENANT_TIMEOUT (R200, R201): the group takes a full save. -/
def execTenantTimeout (group : Nat) (s : State) : Ans :=
  let g := s.group group
  match g.preempt with
  | some p => .next ((s.setGroup group { g with preempt := some { p with full := true } }).servePreempt group)
  | none => .next s

/-! ### Restore (R203) -/

/-- A group's window as a save kept it; the rest reads zero with tag RAW. -/
def State.refill (s : State) (g : Group) (v : Saved) : State :=
  let c := s.core g.core
  let lo := g.rwb / 4
  let hi := lo + g.w * g.n
  let regs := v.regs.foldl (fun (t : Table Word) x => t.set 0 (g.wordIndex (x.1 / 2048) (x.1 % 2048)) x.2) (c.regs.clear lo hi)
  let tags := v.tags.foldl (fun (t : Table Tag) x => t.set 0 (g.wordIndex (x.1 / 1024) (2 * (x.1 % 1024)) / 2) x.2)
    (c.regTags.clear (lo / 2) ((hi + 1) / 2))
  let (a, b) := s.wingsRange g
  s.setCore g.core { c with
    regs := regs, regTags := tags
    scratch := v.wings.foldl (fun (t : Table Byte) x => t.set 0 (a + x.1) x.2) (c.scratch.clear a b)
    scratchTags := v.wingTags.foldl (fun (t : Table Tag) x => t.set 0 (a / 8 + x.1) x.2) (c.scratchTags.clear (a / 8) (b / 8)) }

/-- A saved group's turn in its launch (R344, R345): first of the requeued ones of its core, or of those behind once the core
has no requeued and no undispatched one. -/
def Launch.turnOf (l : Launch) (onCore : Nat → Bool) (core k : Nat) : Bool :=
  match l.requeued.find? onCore with
  | some x => x == k
  | none => (l.todo.all fun t => ((l.casts[t.1]?).map (·.core)) != some core) && l.behind.find? onCore == some k

/-- A saved group may come back: its launch goes on, its context runs, its cast is there, and no WGROW request comes first. -/
def State.mayRestore (s : State) (k : Nat) (g : Group) : Bool :=
  match s.launch? g.launch with
  | some l =>
    g.life == .saved && l.ending.isNone && s.mayRun l.partition l.context && !s.castSaved g.launch g.core
      && !s.growBlocked g.core && l.turnOf (fun x => (s.group x).core == g.core) g.core k
  | none => false

/-- The group resident again at a place and a window base. -/
def State.bringBack (s : State) (k : Nat) (g : Group) (v : Saved) (place base : Nat) : State :=
  let (n, s) := s.take
  let g := { g with
    life := .resident, saved := none, place := place, datapath := datapathOf place, rwb := base, admitted := n, since := s.clock }
  let s := (s.refill g v).setGroup k g
  match s.launch? g.launch with
  | some l =>
    (s.runContext l.partition l.context).setLaunch g.launch (some { l with
      requeued := l.requeued.filter (· != k), behind := l.behind.filter (· != k) })
  | none => s

/-- GROUP_RESTORE (R203). -/
def execGroupRestore (group : Nat) (s : State) : Ans :=
  let g := s.group group
  if !s.mayRestore group g then .next s
  else
    match g.saved, s.placeFor g.core g.handler.isSome, s.placeWindow g.core g.windowBytes g.area none with
    | some v, some place, some base => .next (s.bringBack group g v place base)
    | _, _, _ => .next s

/-! ### Casts (R349) -/

/-- A copy command of the cast whose push waits on a ring. -/
def CopyCmd.ofCast (c : CopyCmd) (launch core : Nat) : Bool := c.launch == launch && c.core == core

/-- The copy commands, with their numbers. -/
def State.copyList (s : State) : List (Nat × CopyCmd) :=
  s.copyCmds.filterMap fun x =>
    match x.2 with
    | some c => some (x.1, c)
    | none => none

/-- The fabric commands, with their numbers. -/
def State.fabList (s : State) : List (Nat × FabCmd) :=
  s.fabCmds.filterMap fun x =>
    match x.2 with
    | some c => some (x.1, c)
    | none => none

/-- Engine commands of a cast have completed, but for pushes that wait, and no lock stands on its scratch (R349 step 1); nor is an access
of a group of its cluster to it on its way. -/
def State.castQuiet (s : State) (launch : Nat) (c : Cast) : Bool :=
  (s.groups.all fun x => x.2.life != .resident || x.2.accesses.all fun a => a.accs.all fun y => y.space == 0 || y.core != c.core)
    && (s.copyList.all fun x => !x.2.ofCast launch c.core || x.2.pushing.isSome)
    && (s.fabList.all fun x => !(x.2.launch == launch && x.2.core == c.core))
    && (s.collCmds.all fun x => x.2.all fun y => !(y.launch == launch && y.core == c.core))
    && (s.core c.core).locks.all fun x =>
      match x.2 with
      | some l => l.space != 1 || decide (256 * l.hi ≤ c.scratch) || decide (c.scratch + c.scratchSize ≤ 256 * l.lo)
          || ((s.copyCmds.get none l.cmd).any fun y => y.ofCast launch c.core && y.pushing.isSome)
      | none => true

/-- The cast's last group has left its core by a save (R349). -/
def State.castLeft (s : State) (launch core : Nat) : Bool :=
  ((s.residents core).all fun x => x.2.launch != launch)
    && s.groups.any fun x => x.2.launch == launch && x.2.core == core && x.2.life == .saved

/-- The contents of a cast's scratch, frames and queues. -/
def State.castImage (s : State) (launch frames : Nat) (c : Cast) : SavedCast :=
  let n := s.core c.core
  let lo := 1024 * c.frame
  let hi := 1024 * (c.frame + frames)
  { scratch := n.scratch.slice c.scratch (c.scratch + c.scratchSize)
    scratchTags := n.scratchTags.slice (c.scratch / 8) ((c.scratch + c.scratchSize) / 8)
    acc := n.acc.slice lo hi, lost := n.lost.slice lo hi, accPoison := n.accPoison.slice lo hi
    queues := n.queues.filter fun x => x.2.any fun q => q.launch == launch }

/-- A cast of a launch changed. -/
def Launch.mapCast (l : Launch) (core : Nat) (f : Cast → Cast) : Launch :=
  { l with casts := l.casts.map fun c => if c.core = core then f c else c }

/-- The cast saved and its space free (R349 steps 2 and 3). -/
def State.saveCast (s : State) (launch : Nat) (l : Launch) (c : Cast) : State :=
  let image := s.castImage launch l.record.frames c
  let s := s.copyList.foldl (fun s x => if x.2.ofCast launch c.core then s.unlock x.1 else s) s
  let n := s.core c.core
  let s := s.setCore c.core { n with queues := n.queues.filter fun x => x.2.all fun q => q.launch != launch }
  s.setLaunch launch (some (l.mapCast c.core fun c => { c with saved := some image }))

/-- A table's entries from `lo` to `hi` replaced by those of an image. -/
def putImage {β : Type} [DecidableEq β] (d : β) (t image : Table β) (lo hi : Nat) : Table β :=
  image.foldl (fun t x => t.set d (lo + x.1) x.2) (t.clear lo hi)

/-- Range locks that commands of a launch, whose pushes wait and whose own casts are on their cores, have still to register: number,
context, core, range, and whether to write (R185, R202). A range in a cast that is saved waits for that cast. -/
def State.missingLocks (s : State) (launch : Nat) : List (Nat × Nat × Nat × Range × Bool) :=
  s.copyList.flatMap fun x =>
    let c := x.2
    if c.launch != launch || c.pushing.isNone || s.castSaved launch c.core then []
    else
      let src := match c.op with
        | .cpyq _ _ => (s.rangeOf launch c.core (tensorOf c.zs)).toList.map fun r => (r, false)
        | _ => []
      let dst := (s.rangeOf launch c.core (tensorOf c.zd)).toList.map fun r => (r, true)
      ((src ++ dst).filter fun r => (s.core (r.1.table c.core)).locks.all fun y => y.2.all fun k => k.cmd != x.1 || k.write != r.2).map
        fun r => (x.1, c.context, c.core, r.1, r.2)

/-- Every table has the entries that the missing locks need (R186). -/
def State.relockFits (s : State) (launch : Nat) : Bool :=
  let xs := s.missingLocks launch
  xs.all fun x =>
    let n := x.2.2.2.1.table x.2.2.1
    decide ((xs.filter fun y => y.2.2.2.1.table y.2.2.1 == n).length ≤ (s.core n).freeLocks.length)

/-- The missing locks registered. -/
def State.relock (s : State) (launch : Nat) : State :=
  (s.missingLocks launch).foldl (fun s x => s.lock (x.2.2.2.1.table x.2.2.1) x.1 x.2.1 x.2.2.2.1 x.2.2.2.2) s

/-- The cast back on its core at new bases (R349). -/
def State.placeCast (s : State) (launch : Nat) (l : Launch) (c : Cast) (v : SavedCast) (scratch frame : Nat) : State :=
  let s := s.openCore c.core l.record
  let n := s.core c.core
  let lo := 1024 * frame
  let hi := 1024 * (frame + l.record.frames)
  let s := s.setCore c.core { n with
    scratch := putImage 0 n.scratch v.scratch scratch (scratch + c.scratchSize)
    scratchTags := putImage 0 n.scratchTags v.scratchTags (scratch / 8) ((scratch + c.scratchSize) / 8)
    acc := putImage 0 n.acc v.acc lo hi, lost := putImage false n.lost v.lost lo hi
    accPoison := putImage false n.accPoison v.accPoison lo hi
    queues := v.queues.foldl (fun t x => t.set none x.1 x.2) n.queues }
  s.setLaunch launch (some (l.mapCast c.core fun c => { c with saved := none, scratch := scratch, frame := frame }))

/-- A saved cast may come back: its setting agrees with the core, and its queue numbers are free. The spec does not say whether another
launch may bind such a number meanwhile: here the save frees it, and the restore waits until it is unbound (log 43). -/
def State.castFits (s : State) (l : Launch) (c : Cast) (v : SavedCast) : Bool :=
  s.mayRun l.partition l.context && s.fusedOk (clusterOfCore c.core) l.record
    && v.queues.all fun x => (s.queue? c.core x.1).isNone

/-- CAST_RESTORE (R349): the locks of commands whose pushes wait are registered again, once the tables have room (R202). -/
def execCastRestore (launch core : Nat) (s : State) : Ans :=
  match s.launch? launch, s.castOn launch core with
  | some l, some c =>
    match c.saved, s.roomForCast core l.record with
    | some v, some (scratch, frame) =>
      let t := s.placeCast launch l c v scratch frame
      happens (l.ending.isNone && s.castFits l c v && t.relockFits launch) s (t.relock launch)
    | _, _ => .next s
  | _, _ => .next s

/-! ### WGROW's deadlock (R142) -/

/-- The resident group of a core that was admitted last. -/
def State.youngest (s : State) (core : Nat) : Option (Nat × Group) :=
  (s.residents core).foldl (fun best x =>
    match best with
    | none => some x
    | some b => if b.2.admitted ≤ x.2.admitted then some x else best) none

/-- The oldest request of a core cannot be granted as things stand (R141). -/
def State.growStuck (s : State) (core : Nat) : Bool :=
  match s.oldestGrower core with
  | some (k, n) =>
    let g := s.group k
    (s.placeWindow core (g.w * n * 4) g.area (some k)).isNone
  | none => false

/-- WGROW_DEADLOCK_PREEMPT (R142). -/
def execWgrowDeadlockPreempt (core : Nat) (s : State) : Ans :=
  match s.youngest core with
  | some (k, _) =>
    happens (s.growBlocked core && s.growStuck core) s ((s.askPreempt k false).servePreempt k)
  | none => .next s

end Sys2Proof.Machine
end

