-- ==== Sys2Proof/Machine/Launches.lean ====
section
/-!
DEFINITION. Queues of launch records and the callboard (R334 to R336), records (R337 to R339), events and completion (R341,
R342), admission and dispatch (R343, R173, R266, R42, R43).
-/
namespace Sys2Proof.Machine

/-! ### Memory as the device reads and writes it for a queue (R334, R335) -/

/-- `n` bytes at a virtual address of a context; none while it does not translate, or where they come poisoned (R357, log 59). -/
def State.deviceRead (s : State) (ctx part : Nat) (va : Dword) (n : Nat) : Option Nat :=
  match s.translate ctx part va.toNat aRead with
  | .ok pa _ => if s.stackDead pa then none else some (s.readMem pa n)
  | .fault _ => none

/-- Bytes written at a virtual address of a context; nothing while it does not translate. -/
def State.deviceStore (s : State) (ctx part : Nat) (va : Dword) (bs : List Byte) : State :=
  match s.translate ctx part va.toNat aWrite with
  | .ok pa _ => s.deviceWrite pa bs
  | .fault _ => s

/-! ### Launch records (R337, R339) -/

/-- Field [lo + n − 1 : lo] of a word. -/
def bits (w lo n : Nat) : Nat := w / 2 ^ lo % 2 ^ n

/-- The record whose little-endian fields `f` reads (offset, bytes). -/
def parseRecord (f : Nat → Nat → Nat) : LaunchRecord :=
  let a := f 0x60 4
  let b := f 0x64 4
  let c := f 0x68 4
  let d := f 0x6C 4
  let e := f 0x70 4
  let q := f 0x74 4
  let v := f 0x78 8
  let slen := bits (f 0x20 4) 16 16
  let llen := bits (f 0x20 4) 0 16
  let n := bits a 17 12
  let inSet : Nat → Nat → Nat → Bool := fun x lo hi => decide (lo ≤ x) && decide (x ≤ hi)
  { scode := BitVec.ofNat 64 (f 0 8), lcode := BitVec.ofNat 64 (f 8 8), rtab := BitVec.ofNat 64 (f 16 8)
    qtab := BitVec.ofNat 64 (f 24 8), slen := slen, llen := llen
    params := (List.range 15).foldl (fun (t : Table Word) i => t.set 0 (i + 1) (BitVec.ofNat 32 (f (0x24 + 4 * i) 4))) []
    width := 8 * 2 ^ bits a 29 3, n := n, groups := bits a 10 7, casts := bits a 4 6
    cscr := bits b 27 5, sarea := bits b 22 5, rarea := bits b 16 6, fused := bits b 15 1 == 1, cores := bits b 14 1 == 1
    prio := bits b 12 2, place := BitVec.ofNat 12 b
    chain := bits c 23 9, first := bits c 12 11, count := bits c 0 12
    trapent := bits d 12 20, watchdog := bits d 0 12
    udepth := 8 * bits e 28 4, enid := bits e 20 8, ftarget := bits e 17 3, ramp := bits e 16 1 == 1, steplen := bits e 0 16
    rtlen := bits q 20 12, qcount := bits q 13 7, aframes := bits q 3 10
    deps := [bits v 52 12, bits v 40 12, bits v 28 12, bits v 16 12], doneEvent := bits v 4 12
    valid := f 0 8 % 256 == 0 && f 8 8 % 256 == 0 && f 16 8 % 32 == 0 && (bits q 13 7 == 0 || f 24 8 % 8 == 0)
      && slen != 0 && llen != 0 && decide (bits a 29 3 ≤ 4) && inSet n 1 2048 && inSet (bits a 10 7) 1 64
      && inSet (bits a 4 6) 1 48 && bits a 0 4 == 0 && inSet (bits b 27 5) 1 24 && inSet (bits b 22 5) 8 24
      && decide (bits b 22 5 + bits b 16 6 ≤ 52) && decide (bits b 27 5 ≤ bits b 22 5)
      && decide (bits c 12 11 + bits c 0 12 ≤ n) && decide (bits d 12 20 < slen * 64) && inSet (bits e 28 4) 1 8
      && decide (bits q 13 7 ≤ 64) && decide (bits q 3 10 ≤ 768) && bits q 0 3 == 0 && bits v 0 4 == 0 }

/-- The address of a queue's head record (R334, R337). -/
def QueueDesc.headAt (d : QueueDesc) (w : WorkQueue) : Dword := d.ring + BitVec.ofNat 64 (128 * (w.head % 2 ^ d.log))

/-- A queue's head record: one is announced, the queue is enabled and its ring can be read (R335, R357). -/
def State.headRecord (s : State) (q : Nat) : Option LaunchRecord :=
  let d := s.queueDesc q
  let w := s.workQueue q
  if w.idle || !d.enable then none
  else
    match s.translate d.context d.part (d.headAt w).toNat aRead with
    | .ok pa _ => if s.stackDead pa then none else some (parseRecord fun off n => s.readMem (pa + off) n)
    | .fault _ => none

/-! ### Events (R341) -/

/-- Event e of a partition. -/
def State.eventAt (s : State) (p e : Nat) : Nat := (s.partUnit p 11).toNat + 32 * e

/-- What a record's dependences come to (R341). -/
inductive Deps where
  | satisfied
  | waiting
  | failed
deriving DecidableEq, Repr, Inhabited

/-- The dependences of a record: a failed one at once, otherwise all must be set; a poisoned entry is not (R357, log 59). -/
def State.deps (s : State) (p : Nat) (r : LaunchRecord) : Deps :=
  let ws := (r.deps.filter (· != 0)).map fun e => s.tableWord (s.eventAt p e) 8
  if ws.any fun w => bits w 63 1 == 1 && bits w 0 8 != 0 then .failed
  else if ws.all fun w => bits w 63 1 == 1 then .satisfied
  else .waiting

/-- A completion event written (R341). -/
def State.writeEvent (s : State) (p e status : Nat) (t : TrapInfo) (energy : Dword) : State :=
  if e = 0 then s
  else
    let word0 := 2 ^ 63 + (causeWord t).toNat % 512 * 256 + status % 256
    s.deviceWrite (s.eventAt p e) (bytes64 word0 ++ bytes64 energy.toNat ++ bytes64 t.info.toNat ++ bytes64 t.pc.toNat)

/-! ### Notify stores and slots (R335, R336) -/

def State.setWorkQueue (s : State) (q : Nat) (w : WorkQueue) : State :=
  { s with workQueues := s.workQueues.set WorkQueue.start q w }

/-- The queue holds a slot. -/
def State.inSlot (s : State) (q : Nat) : Bool := s.slots.any fun x => x.2 == some q

/-- `b` lies at or after `a` on the 32-bit ring of indices. -/
def notBehind (a b : Nat) : Bool := decide ((b + 2 ^ 32 - a) % 2 ^ 32 < 2 ^ 31)

/-- A notify store taken (R335, R336): one that announces further records is noted for them. -/
def State.announce (s : State) (q t : Nat) : State :=
  let (n, s) := s.take
  let w := s.workQueue q
  let s := s.setWorkQueue q (if w.announced != t && notBehind w.announced t then
    { w with announced := t, notified := w.notified ++ [(t, n)] } else w)
  if s.inSlot q || s.pendingQueues.contains q then s else { s with pendingQueues := s.pendingQueues ++ [q] }

/-- NOTIFY_STORE (R335): ignored for a disabled queue and where it lies behind the head. -/
def execNotifyStore (queue : Nat) (t : BitVec 32) (s : State) : Ans :=
  happens (decide (queue < 1024) && (s.queueDesc queue).enable && notBehind (s.workQueue queue).head t.toNat) s
    (s.announce queue t.toNat)

/-- Priority of a queue's head record, lowest where none can be read. -/
def State.headPrio (s : State) (q : Nat) : Nat :=
  match s.headRecord q with
  | some r => r.prio
  | none => 0

/-- Arrival of the notify store that announced a queue's head record (R343). -/
def WorkQueue.arrival (w : WorkQueue) : Nat :=
  match w.notified.find? fun x => x.1 != w.head && notBehind w.head x.1 with
  | some x => x.2
  | none => 0

/-- Of two queues the one whose head record has the higher priority, and among equals the older notify store. -/
def State.better (s : State) (a b : Nat) : Bool :=
  decide (s.headPrio b < s.headPrio a)
    || (s.headPrio a == s.headPrio b && decide ((s.workQueue a).arrival < (s.workQueue b).arrival))

/-- The best of several queues. -/
def State.bestQueue (s : State) (qs : List Nat) : Option Nat :=
  qs.foldl (fun best q =>
    match best with
    | none => some q
    | some b => if s.better q b then some q else best) none

/-- A slot frees: it is empty, its queue is, or its head record waits on dependences while a queue is pending (R336). -/
def State.slotFrees (s : State) (slot : Nat) : Bool :=
  match s.slots.get none slot with
  | none => true
  | some q =>
    (s.workQueue q).idle || (!s.pendingQueues.isEmpty && (match s.headRecord q with
      | some r => s.deps (s.queueDesc q).part r == .waiting
      | none => false))

/-- The slot given to the best pending queue; a queue that leaves it with records rejoins the pending list. -/
def State.turnSlot (s : State) (slot : Nat) : State :=
  let next := s.bestQueue s.pendingQueues
  let left := match s.slots.get none slot with
    | some q => if (s.workQueue q).idle then [] else [q]
    | none => []
  { s with
    slots := s.slots.set none slot next
    pendingQueues := (s.pendingQueues.filter fun q => some q != next) ++ left }

/-- CALLBOARD_SLOT_RELEASE (R336). -/
def execCallboardSlotRelease (slot : Nat) (s : State) : Ans := happens (decide (slot < 32) && s.slotFrees slot) s (s.turnSlot slot)

/-! ### Admission (R339, R343) -/

/-- What the scheduler decides of a record. -/
inductive Verdict where
  /-- It waits; for space where `space` is set. -/
  | wait (space : Bool)
  /-- It completes with a status and runs nothing. -/
  | finish (status : Nat)
  /-- Its casts go to these cores, ascending. -/
  | enter (cores : List Nat)
deriving DecidableEq, Repr, Inhabited

/-- An entry of a queue binding table: queue, offset and slots; none where it is invalid (R255, R338). -/
def parseBinding (scratchSize w : Nat) : Option (Nat × Nat × Nat) :=
  let off := bits w 6 21
  let n := bits w 27 9
  if n = 0 ∨ n > 256 ∨ w / 2 ^ 36 ≠ 0 ∨ !ringFits scratchSize off n then none else some (bits w 0 6, off, n)

/-- A record's bindings; none where the table cannot be read, an entry is invalid or a queue is named twice (R339). -/
def State.bindings (s : State) (d : QueueDesc) (r : LaunchRecord) : Option (List (Nat × Nat × Nat)) :=
  (List.range r.qcount).foldl (fun acc i =>
    match acc, s.deviceRead d.context d.part (r.qtab + BitVec.ofNat 64 (8 * i)) 8 with
    | some l, some w =>
      match parseBinding (65536 * r.cscr) w with
      | some b => if l.any fun x => x.1 == b.1 then none else some (l ++ [b])
      | none => none
    | _, _ => none) (some [])

/-- Clusters a record's casts may use (R337, R347). -/
def State.permitted (s : State) (p : Nat) (r : LaunchRecord) : List Nat :=
  (List.range 12).filter fun c => s.ownsCluster p c && !(s.sector (c / 2)).failed && (r.place == 0 || r.place.getLsbD c)

/-- The record is refused (R339, R395). -/
def State.refused (s : State) (d : QueueDesc) (r : LaunchRecord) : Bool :=
  let area := 65536 * r.rarea
  !r.valid || (r.fused && !s.feature 7) || ((List.range 12).any fun c => r.place.getLsbD c && !s.ownsCluster d.part c)
    || (s.bindings d r).isNone || decide ((if r.cores then r.groups else 1) * r.share > area)
    || decide (r.casts > 4 * (s.permitted d.part r).length)

/-- `n` windows of a size find room beside the used ones. -/
def fitWindows (bytes area : Nat) : Nat → List (Nat × Nat) → Bool
  | 0, _ => true
  | n + 1, used =>
    match lowestGap used bytes area with
    | some b => fitWindows bytes area n (used ++ [(b, b + bytes)])
    | none => false

/-- Every group of a cast fits a core now (R343 step 3, R14). -/
def State.groupsFit (s : State) (core : Nat) (r : LaunchRecord) : Bool :=
  let here := s.residents core
  let unified := here.foldl (fun n x => n + x.2.area) (r.groups * r.width * r.udepth * 32)
  decide (here.length + r.groups ≤ 64)
    && fitWindows (r.width * roundN r.n * 4) (65536 * (s.areas core r).2 - unified) r.groups
      (here.map fun x => (x.2.rwb, x.2.rwb + x.2.windowBytes))

/-- A core takes a cast of the record now, and with CORES = 1 its groups (R173, R266, R343). -/
def State.coreTakes (s : State) (r : LaunchRecord) (qs : List (Nat × Nat × Nat)) (core : Nat) : Bool :=
  s.fusedOk (clusterOfCore core) r && (s.roomForCast core r).isSome
    && decide (r.share ≤ 65536 * (s.areas core r).2) && (!r.cores || (s.groupsFit core r && !s.growBlocked core))
    && qs.all fun q => (s.queue? core q.1).isNone

/-- A core holds the record's own partition already. -/
def State.samePartition (s : State) (r : LaunchRecord) (core : Nat) : Bool :=
  s.coreHeld core && (s.core core).partition == some (r.sarea, r.rarea)

/-- A chain image has the record's geometry, cast placement included, and its range (R42, R43). -/
def ChainImage.matches (i : ChainImage) (r : LaunchRecord) (cores : List Nat) : Bool :=
  i.width == r.width && i.n == r.n && i.groups == r.groups && i.first == r.first && i.count == r.count && i.place == r.place
    && i.cores.length == r.casts && i.cores.all cores.contains

/-- The cores a record's casts take now, ascending: those of its chain's predecessor, or cores of the same partition before
others, each in ascending order (R343 step 2). -/
def State.chooseCores (s : State) (d : QueueDesc) (r : LaunchRecord) (image : Option ChainImage) : Option (List Nat) :=
  match s.bindings d r with
  | none => none
  | some qs =>
    match image with
    | some i => if i.cores.all (s.coreTakes r qs) then some i.cores else none
    | none =>
      let free := ((s.permitted d.part r).flatMap coresOf).filter (s.coreTakes r qs)
      let picked := ((free.filter (s.samePartition r)) ++ free.filter fun c => !s.samePartition r c).take r.casts
      if picked.length = r.casts then some ((List.range 48).filter picked.contains) else none

/-- The verdict on a head record (R43, R341, R343); a launch that has not completed counts as the predecessor of a record whatever
its context or partition (log 71). -/
def State.verdict (s : State) (d : QueueDesc) (r : LaunchRecord) : Verdict :=
  let image := s.predecessor r
  match s.deps d.part r with
  | .failed => .finish 6
  | .waiting => .wait false
  | .satisfied =>
    if s.refused d r then .finish 5
    else if r.chain != 0 && s.launchList.any (fun x => x.2.record.chain == r.chain) then .wait false
    else if image.any fun i => !i.matches r ((s.permitted d.part r).flatMap coresOf) then .finish 4
    else if !s.mayRun d.part d.context then .wait false
    else
      match s.chooseCores d r image with
      | some cs => .enter cs
      | none => .wait true

/-- The head passed, and the head word written (R335). -/
def State.passHead (s : State) (q : Nat) (d : QueueDesc) : State :=
  let w := s.workQueue q
  let h := (w.head + 1) % 2 ^ 32
  let noted := w.notified.filter fun x => x.1 != h && notBehind h x.1
  (s.setWorkQueue q { w with head := h, notified := noted }).deviceStore d.context d.part d.headWord (bytes64 h)

/-- The casts of a launch on its cores (R41, R343 step 2). -/
def castsOn (cores : List Nat) : List Cast :=
  let clusters := (List.range 12).filter fun c => cores.any fun n => clusterOfCore n == c
  (List.range cores.length).zipWith (fun i n =>
    { core := n, castId := i, companyId := (clusters.filter fun c => decide (c < clusterOfCore n)).length, scratch := 0
      scratchSize := 0, frame := 0, saved := none }) cores

/-- A cast's space taken: its scratch (log 13) and frames cleared (R222), its queue bindings made (R259). -/
def State.openCast (s : State) (launch : Nat) (r : LaunchRecord) (qs : List (Nat × Nat × Nat)) (c : Cast) : Cast × State :=
  match s.roomForCast c.core r with
  | none => (c, s)
  | some (scratch, frame) =>
    let s := s.openCore c.core r
    let n := s.core c.core
    let lo := 1024 * frame
    let hi := 1024 * (frame + r.frames)
    let sHi := scratch + 65536 * r.cscr
    let s := s.setCore c.core { n with
      acc := n.acc.clear lo hi, lost := n.lost.clear lo hi, accPoison := n.accPoison.clear lo hi
      scratch := n.scratch.clear scratch sHi, scratchTags := n.scratchTags.clear (scratch / 8) (sHi / 8) }
    ({ c with scratch := scratch, scratchSize := 65536 * r.cscr, frame := frame },
      qs.foldl (fun s q => s.bindQueue launch c.core q.1 q.2.1 q.2.2) s)

/-- The launch admitted with its casts; its identifier is a free value (log 9). -/
def State.openLaunch (s : State) (q : Nat) (d : QueueDesc) (r : LaunchRecord) (cores : List Nat) : Nat × State :=
  let (id, s) := s.take
  let qs := (s.bindings d r).getD []
  let (casts, s) := (castsOn cores).foldl (fun (p : List Cast × State) c =>
    let (c, s) := p.2.openCast id r qs c
    (p.1 ++ [c], s)) ([], s)
  let todo := (List.range casts.length).flatMap fun i => (List.range r.groups).map fun k => (i, k)
  let l : Launch :=
    { launchId := (Config.freeWord s.free).setWidth 32, record := r, queue := q, context := d.context, partition := d.part
      casts := casts, todo := todo, requeued := [], behind := [], left := todo.length, fade := ⟨0, 0, []⟩, energy := 0
      order := id, ending := none, started := false, filler := [], served := 0, cycles := 0 }
  let s := { s with free := s.free + 1, boot := { s.boot with fixed := true } }
  let s := if r.chain = 0 || (s.predecessor r).isSome then s else { s with chains := r.blankImage (casts.map (·.core)) :: s.chains }
  (id, (s.setLaunch id (some l)).runContext d.part d.context)

/-! ### Dispatch (R40, R42, R343) -/

/-- A group as it starts on a cast (R40, R41). -/
def Launch.newGroup (l : Launch) (key : Nat) (c : Cast) (k place base order : Nat) : Group :=
  let r := l.record
  { Group.start with
    launch := key, core := c.core, datapath := datapathOf place, place := place, admitted := order, groupId := k
    castId := c.castId, companyId := c.companyId, houseId := sectorOfCore c.core, groupCount := r.groups, w := r.width
    n := roundN r.n, rwb := base, area := r.width * r.udepth * 32, origin := [(k, 0, r.width)], scalars := r.params
    pc := r.scode, lane := .idle r.width }

/-- The registers a group inherits through its chain (R42). -/
def State.inherited (s : State) (r : LaunchRecord) (core k : Nat) : Saved :=
  let none_ : Saved := { full := false, regs := [], tags := [], wings := [], wingTags := [] }
  match s.predecessor r with
  | some i => { none_ with regs := i.regs.get [] (core * 64 + k), tags := i.tags.get [] (core * 64 + k) }
  | none => none_

/-- A launch after one of its groups is dispatched; the first starts the fade (R355). -/
def Launch.dispatched (l : Launch) (t : Nat × Nat) : Launch :=
  { l with
    todo := l.todo.filter (· != t), started := true
    fade := if !l.started && l.record.ramps then ⟨1, 0, []⟩ else l.fade }

/-- A group made resident at a place and a window base. -/
def State.startGroup (s : State) (key : Nat) (l : Launch) (t : Nat × Nat) (c : Cast) (place base : Nat) : State :=
  let (n, s) := s.take
  let g := { l.newGroup key c t.2 place base n with since := s.clock }
  let id := s.newKey
  (((s.refill g (s.inherited l.record c.core t.2)).setGroup id g).setLaunch key (some (l.dispatched t))).runContext
    l.partition l.context

/-- Where an undispatched group may start now: its core has its cast, no requeued group of the launch and no WGROW request
that comes first, and room. -/
def State.startFor (s : State) (l : Launch) (t : Nat × Nat) : Option (Cast × Nat × Nat) :=
  match l.casts[t.1]? with
  | none => none
  | some c =>
    if c.saved.isSome || s.growBlocked c.core || l.requeued.any (fun x => (s.group x).core == c.core) then none
    else
      match s.placeFor c.core false, s.placeWindow c.core (l.record.width * roundN l.record.n * 4)
          (l.record.width * l.record.udepth * 32) none with
      | some place, some base => some (c, place, base)
      | _, _ => none

/-- The first undispatched group that may start, of each cast its lowest (R343 step 3). -/
def State.dispatchOne (s : State) (key : Nat) : State :=
  match s.launch? key with
  | none => s
  | some l =>
    if l.ending.isSome || !s.mayRun l.partition l.context then s
    else
      let firsts := l.todo.filter fun t => l.todo.all fun u => u.1 != t.1 || decide (t.2 ≤ u.2)
      match firsts.findSome? fun t => (s.startFor l t).map fun x => (t, x) with
      | some (t, c, place, base) => s.startGroup key l t c place base
      | none => s

/-- GROUP_DISPATCH (R343). -/
def execGroupDispatch (launch : Nat) (s : State) : Ans := .next (s.dispatchOne launch)

/-- `n` dispatches in one step (R343 step 3, CORES = 1). -/
def State.dispatchAll (s : State) (key : Nat) : Nat → State
  | 0 => s
  | n + 1 => (s.dispatchOne key).dispatchAll key n

/-- A verdict carried out (R335, R341, R343). -/
def State.carryOut (s : State) (q : Nat) (d : QueueDesc) (r : LaunchRecord) (v : Verdict) : State :=
  match v with
  | .wait _ => s
  | .finish status => (s.passHead q d).writeEvent d.part r.doneEvent status .none 0
  | .enter cores =>
    let (key, s) := (s.passHead q d).openLaunch q d r cores
    if r.cores then s.dispatchAll key (r.casts * r.groups) else s

/-- The queues in slots whose head record is ready, and the verdicts: its dependences are satisfied, and nothing but space may be
missing. -/
def State.readyHeads (s : State) : List (Nat × LaunchRecord × Verdict) :=
  s.slots.filterMap fun x =>
    match x.2 with
    | none => none
    | some q =>
      match s.headRecord q with
      | none => none
      | some r =>
        match s.verdict (s.queueDesc q) r with
        | .wait false => none
        | v => some (q, r, v)

/-- The heads whose dependences have failed: each is decided at once (R341). -/
def State.failedHeads (s : State) : List (Nat × LaunchRecord × Verdict) := s.readyHeads.filter fun x => x.2.2 == .finish 6

/-- The heads that can be decided now: those that have failed, or else of each partition the one that comes first, unless it waits for
space. A record that waits for space holds back the other heads of its partition, and of no other (R343, log 72). -/
def State.decidable (s : State) : List (Nat × LaunchRecord × Verdict) :=
  if !s.failedHeads.isEmpty then s.failedHeads
  else
    s.readyHeads.filter fun x =>
      let mine := s.readyHeads.filter fun y => (s.queueDesc y.1).part == (s.queueDesc x.1).part
      x.2.2 != .wait true && s.bestQueue (mine.map (·.1)) == some x.1

/-- LAUNCH_ADMIT (R343): the record with the highest priority, among equals the oldest by notify store. -/
def execLaunchAdmit (s : State) : Ans :=
  let c := s.decidable
  match s.bestQueue (c.map (·.1)) with
  | none => .next s
  | some q =>
    match c.find? fun x => x.1 == q with
    | some (_, r, v) => happens s.boot.ready s (s.carryOut q (s.queueDesc q) r v)
    | none => .next s

/-! ### Completion (R341, R342, R356) -/

/-- The groups of a launch with their numbers. -/
def State.groupsOf (s : State) (key : Nat) : List (Nat × Group) := s.groups.filter fun x => x.2.launch == key

/-- The launch is to complete: it ends, or its last group has exited and its ramp-down is over (R342, R355). -/
def Launch.due (l : Launch) : Bool :=
  l.ending.isSome || (l.left == 0 && (l.fade.phase != 2 || l.fade.step == 8))

/-- The L1s that a core's accesses go through, apart and fused (R267). -/
def l1sOfCore (core : Nat) : List Nat := [core, 48 + clusterOfCore core]

/-- L1s through which a launch's casts go. -/
def Launch.l1s (l : Launch) : List Nat := (l.casts.flatMap fun c => l1sOfCore c.core).eraseDups

/-- The L1's sweep or drain belongs to a group of the launch. -/
def State.sweepOf (s : State) (key k : Nat) : Bool :=
  (s.l1 k).sweeping && (s.groupsOf key).any fun x =>
    (s.l1 k).draining == some x.1 || ((x.2.acqS.any (·.2) || x.2.acqL.any (·.2)) && s.l1Of x.2.core == k)

/-- Nothing of a launch's accesses is on its way (R190 steps 1 to 3, R342). -/
def State.accessesDone (s : State) (key : Nat) : Bool :=
  ((s.groupsOf key).all fun x => x.2.unack == 0 && x.2.accesses.isEmpty)
    && s.reqList.all fun x =>
      let joined := match x.2.kind with
        | .atomic a => a.joined.map (·.group)
        | _ => []
      !(s.groupsOf key).any fun y => (x.2.group :: joined).contains y.1

/-- Engine, fabric and collective commands of a launch dropped, their locks released (R342, R185). -/
def State.dropCommands (s : State) (key : Nat) : State :=
  let s := s.copyList.foldl (fun s x => if x.2.launch = key then (s.unlock x.1).setCopyCmd x.1 none else s) s
  let s := s.fabList.foldl (fun (s : State) x =>
    if x.2.launch = key then { s.unlock x.1 with fabCmds := (s.unlock x.1).fabCmds.set none x.1 none } else s) s
  { s with collCmds := s.collCmds.filter fun x => x.2.all fun c => c.launch != key }

/-- A group of another launch that uses an L1, or has used it: what it pinned there stays until its launch ends. -/
def State.otherUser (s : State) (key k : Nat) : Option Nat :=
  (s.groups.find? fun x => x.2.launch != key && (l1sOfCore x.2.core).contains k).map (·.1)

/-- After a termination for a hardware fault every pin is cleared, every visitor copy is invalid, its way with it (R294), and every L1 is
swept (R297). From an L1 that a group of another launch uses or has used, what it holds leaves first, and only its clean lines go. -/
def State.cleanDie (s : State) (key : Nat) : State :=
  let ks := List.range 60
  let s := ks.foldl (fun (s : State) k =>
    match s.otherUser key k with
    | some g =>
      let s := s.flushL1 k g
      s.setL1 k (s.l1 k).dropClean
    | none => s.setL1 k (s.l1 k).sweep) s
  { s with slices := s.slices.map fun (x : Nat × Slice) =>
      (x.1, { x.2.freeVisitors (fun _ => true) with
        visitors := [], pins := x.2.pins.filter fun p => (s.otherUser key p.2).isSome }) }

/-- Bytes that a launch's groups and its commands were served since the last update, and cycles its groups were resident. -/
def State.servedTo (s : State) (key : Nat) (l : Launch) : Nat := l.served + s.sumGroups key (·.served)
def State.cyclesOf (s : State) (key : Nat) (l : Launch) : Nat := l.cycles + s.sumGroups key s.span

/-- Everything that a launch has used is in its total: nothing since the last update of the energy counts (R356). -/
def State.metered (s : State) (key : Nat) (l : Launch) : Bool :=
  l.filler.isEmpty && s.servedTo key l == 0 && s.cyclesOf key l == 0 && (s.groupsOf key).all fun x => x.2.work == 0

/-- The launch gone: its groups, casts, bindings and commands; its energy accounted and its event written (R341, R356). -/
def State.finishLaunch (s : State) (key : Nat) (l : Launch) : State :=
  let (status, t) := l.ending.getD (0, .none)
  let ids := (s.groupsOf key).map (·.1)
  let s := s.dropCommands key
  let s := if status = 7 then s.cleanDie key else s
  let s := l.casts.foldl (fun s c => s.endBindings key c.core) s
  let s := l.casts.foldl (fun (s : State) c =>
    s.setCore c.core { s.core c.core with growers := (s.core c.core).growers.filter fun x => !ids.contains x.1 }) s
  let p := s.part l.partition
  let s := { s with
    groups := s.groups.filter fun x => x.2.launch != key
    apertureErrors := s.apertureErrors.filter fun x => !ids.contains x
    partitions := s.partitions.set PartState.start l.partition
      { p with energy := p.energy.set 0 l.record.enid (p.energy.get 0 l.record.enid + l.energy) } }
  (s.writeEvent l.partition l.record.doneEvent status t l.energy).setLaunch key none

/-- LAUNCH_COMPLETE (R341, R342): sweeps its groups began are ended, its pinned lines leave under the event's release, the host sees
the device's writes (R332), the next update brings the last of its energy (R356), and then the launch completes. -/
def execLaunchComplete (launch : Nat) (s : State) : Ans :=
  match s.launch? launch with
  | none => .next s
  | some l =>
    if !l.due then .next s
    else
      let sweeps := l.l1s.filter (s.sweepOf launch)
      let pinned := l.l1s.filter fun k => !(s.l1 k).pins.isEmpty
      if !sweeps.isEmpty then
        .next (sweeps.foldl (fun (s : State) k =>
          if s.writesOut k then s else s.setL1 k { (s.l1 k).sweep with draining := none }) s)
      else
        match pinned, s.groupsOf launch with
        | k :: _, (g, _) :: _ => .next (s.unpinAll k g)
        | _, _ => happens (s.accessesDone launch && s.hostView.isEmpty && s.metered launch l) s (s.finishLaunch launch l)

end Sys2Proof.Machine
end

