-- ==== Sys2Proof/Machine/Schedule.lean ====
section
/-!
DEFINITION. The scheduler's pre-emptions (R344, R345, R348), pauses (R352), and launches ended by the driver (R342, R369).
-/
namespace Sys2Proof.Machine

/-! ### Rotation (R345) -/

/-- Rotation is due: no co-residency, every resident group blocked, and a group not dispatched. -/
def State.rotates (s : State) (key : Nat) (l : Launch) : Bool :=
  let here := (s.groupsOf key).filter fun x => x.2.life == .resident
  !l.record.cores && l.ending.isNone && !here.isEmpty && (here.all fun x => x.2.blocked)
    && !(l.todo.isEmpty && l.requeued.isEmpty && l.behind.isEmpty)

/-- The most recently blocked resident group of a launch. -/
def State.lastBlocked (s : State) (key : Nat) : Option Nat :=
  (((s.groupsOf key).filter fun x => x.2.life == .resident).foldl (fun (best : Option (Nat × Group)) x =>
    match best with
    | none => some x
    | some b => if b.2.blockedAt ≤ x.2.blockedAt then some x else best) none).map (·.1)

/-- A resident group of a launch that a request already stands against. -/
def State.asked (s : State) (key : Nat) : Option Nat :=
  ((s.groupsOf key).find? fun x => x.2.life == .resident && x.2.preempt.isSome).map (·.1)

/-- SCHEDULER_ROTATION (R345): the group is dispatched again behind every undispatched one. -/
def execSchedulerRotation (launch : Nat) (s : State) : Ans :=
  match s.launch? launch with
  | none => .next s
  | some l =>
    match s.asked launch with
    | some k => .next (s.servePreempt k)
    | none =>
      match s.lastBlocked launch with
      | some k => happens (s.rotates launch l) s ((s.askPreempt k true).servePreempt k)
      | none => .next s

/-! ### Room for a launch of higher priority (R344) -/

/-- A launch of a partition with a lower priority. -/
def State.lower (s : State) (p prio key : Nat) : Bool :=
  (s.launch? key).any fun l => l.partition == p && decide (l.record.prio < prio)

/-- The launches of a partition with lower priority, the youngest first: their numbers rise as they are admitted. -/
def State.juniors (s : State) (p prio : Nat) : List Nat := ((s.launchList.map (·.1)).filter (s.lower p prio)).reverse

/-- The stores once launches hold nothing on cores: `ps` gives a launch and a core each. -/
def State.cleared (s : State) (ps : List (Nat × Nat)) : State :=
  let gone : Nat × Group → Bool := fun x => ps.contains (x.2.launch, x.2.core)
  let left : Nat → Cast → Cast := fun key c => if ps.contains (key, c.core) then { c with saved := some default } else c
  { s with
    groups := s.groups.filter fun x => !gone x
    cores := s.cores.map fun (c : Nat × Core) => (c.1, { c.2 with
      queues := c.2.queues.filter fun q => q.2.all fun y => !ps.contains (y.launch, c.1)
      growers := c.2.growers.filter fun x => !gone (x.1, s.group x.1) })
    launches := s.launches.map fun (x : Nat × Option Launch) => (x.1, x.2.map fun l => { l with casts := l.casts.map (left x.1) }) }

/-- The cores that a record may be placed on, in the order of R343. -/
def State.wantedCores (s : State) (d : QueueDesc) (r : LaunchRecord) : List Nat :=
  match s.predecessor r with
  | some i => i.cores
  | none => (s.permitted d.part r).flatMap coresOf

/-- The record finds cores for its casts once those launches hold nothing on those cores. -/
def State.enough (s : State) (d : QueueDesc) (r : LaunchRecord) (qs : List (Nat × Nat × Nat)) (ps : List (Nat × Nat)) : Bool :=
  decide (r.casts ≤ ((s.wantedCores d r).filter ((s.cleared ps).coreTakes r qs)).length)

/-- The casts of lower launches in the clusters that a record may be placed in, launch and core, the youngest launch's first. -/
def State.juniorCasts (s : State) (d : QueueDesc) (r : LaunchRecord) : List (Nat × Nat) :=
  let cores := ((s.wantedCores d r).map clusterOfCore).eraseDups.flatMap coresOf
  (s.juniors d.part r.prio).flatMap fun k =>
    (cores.filter fun n => (s.castOn k n).any fun c => c.saved.isNone).map fun n => (k, n)

/-- What to pre-empt for a record that waits for space, launch and core (R344): casts of the youngest launches of lower priority first, and
none without which the others are enough; nothing where all of them are not enough. -/
def State.toClear (s : State) (d : QueueDesc) (r : LaunchRecord) : List (Nat × Nat) :=
  match s.bindings d r with
  | none => []
  | some qs =>
    let ps := s.juniorCasts d r
    match (List.range (ps.length + 1)).find? fun n => s.enough d r qs (ps.take n) with
    | some n => (ps.take n).reverse.foldl (fun keep p => if s.enough d r qs (keep.erase p) then keep.erase p else keep) (ps.take n)
    | none => []

/-- Their resident groups there. -/
def State.victims (s : State) (d : QueueDesc) (r : LaunchRecord) : List (Nat × Group) :=
  let ps := s.toClear d r
  s.groups.filter fun x => x.2.life == .resident && ps.contains (x.2.launch, x.2.core)

/-- Order of admission of a group's launch. -/
def State.launchOrder (s : State) (g : Group) : Nat :=
  match s.launch? g.launch with
  | some l => l.order
  | none => 0

/-- Of several groups one of the youngest launch, the last admitted (R344). -/
def State.youngestOf (s : State) (gs : List (Nat × Group)) : Option Nat :=
  (gs.foldl (fun (best : Option (Nat × Group)) x =>
    match best with
    | none => some x
    | some b =>
      let a := s.launchOrder b.2
      let n := s.launchOrder x.2
      if a < n ∨ (a = n ∧ b.2.admitted ≤ x.2.admitted) then some x else best) none).map (·.1)

/-- ADMISSION_PREEMPT (R344): one group at a time; one that is asked already is served first. -/
def execAdmissionPreempt (queue : Nat) (s : State) : Ans :=
  let d := s.queueDesc queue
  match s.headRecord queue with
  | none => .next s
  | some r =>
    let vs := s.victims d r
    match vs.find? fun x => x.2.preempt.isSome with
    | some (k, _) => .next (s.servePreempt k)
    | none =>
      match s.youngestOf vs with
      | some k => happens (s.inSlot queue && s.verdict d r == .wait true) s ((s.askPreempt k false).servePreempt k)
      | none => .next s

/-! ### Casts that make room (R349) -/

/-- The space of a launch's cast on a core is needed: by a record that waits for space, by a saved cast whose context runs, or for the
migration of a partition that is pausing (R343, R348, R352). -/
def State.spaceNeeded (s : State) (launch core : Nat) (l : Launch) : Bool :=
  (s.readyHeads.any fun x => x.2.2 == .wait true && (s.wantedCores (s.queueDesc x.1) x.2.1).contains core)
    || (s.launchList.any fun x => x.1 != launch && x.2.ending.isNone && s.mayRun x.2.partition x.2.context
      && x.2.casts.any fun c => c.core == core && c.saved.isSome)
    || (s.part l.partition).pausing

/-- CAST_SAVE (R349). -/
def execCastSave (launch core : Nat) (s : State) : Ans :=
  match s.launch? launch, s.castOn launch core with
  | some l, some c =>
    happens (c.saved.isNone && l.ending.isNone && s.castLeft launch core && s.spaceNeeded launch core l && s.castQuiet launch c) s
      (s.saveCast launch l c)
  | _, _ => .next s

/-! ### Time slices and pauses (R348, R352) -/

/-- Every resident group of a partition asked to leave, and served. -/
def State.clearPartition (s : State) (p : Nat) : State :=
  s.groups.foldl (fun s x =>
    if x.2.life == .resident && s.partitionOf x.2 == p then (s.askPreempt x.1 false).servePreempt x.1 else s) s

/-- The next context of a partition after its running one that has work. -/
def State.nextContext (s : State) (p : Nat) : Option Nat :=
  ((List.range 63).map fun i => ((s.part p).context + 1 + i) % 64).find? fun x => s.hasWork p x

/-- CONTEXT_TIME_SLICE (R348). -/
def execContextTimeSlice (partition : Nat) (s : State) : Ans :=
  match s.nextContext partition with
  | some ctx => .next ((s.clearPartition partition).runContext partition ctx)
  | none => .next s

/-- No group of a partition is resident. -/
def State.partitionEmpty (s : State) (p : Nat) : Bool :=
  s.groups.all fun x => x.2.life != .resident || s.partitionOf x.2 != p

def State.setPart (s : State) (p : Nat) (x : PartState) : State :=
  { s with partitions := s.partitions.set PartState.start p x }

/-- PARTITION_PAUSE (R352): repeated, it serves the pre-emptions; once the last group has left, FLOOR takes the guest time. -/
def execPartitionPause (partition : Nat) (s : State) : Ans :=
  let s := (s.setPart partition { s.part partition with pausing := true }).clearPartition partition
  happens (s.partitionEmpty partition && !(s.part partition).paused) s
    (s.setPart partition { s.part partition with
      floor := s.guestTime partition, paused := true, pausedAt := s.hostTime })

/-- Scaled host time (R351). -/
def State.scaled (s : State) (p ns : Nat) : Nat :=
  ns * (if s.partUnit p 12 = 0 then 2 ^ 32 else (s.partUnit p 12).toNat) / 2 ^ 32

/-- The end of a pause (R352): with PAUSEHIDE the scaled time of the pause leaves TOFFSET; a partition that comes from another
package brings its FLOOR. -/
def State.resumePartition (s : State) (p : Nat) (floor : Option Dword) : State :=
  let x := s.part p
  let x := { x with floor := floor.getD x.floor }
  if !x.paused then s.setPart p { x with pausing := false }
  else
    let gone := s.scaled p s.hostTime - s.scaled p x.pausedAt
    let s := s.setPart p { x with pausing := false, paused := false }
    if s.feature 16 && (s.partUnit p 9).getLsbD 34 then
      { s with driver := { s.driver with
          parts := s.driver.parts.set 0 (16 * p + 13) (s.partUnit p 13 - BitVec.ofNat 64 gone) } }
    else s

/-! ### The driver ends work (R342, R369) -/

/-- LAUNCH_KILL (R342). -/
def execLaunchKill (launch : Nat) (s : State) : Ans := .next (s.endLaunch launch 8 .none)

/-- The V bit of a landing-table entry cleared (R360, R369). -/
def State.closeLanding (s : State) (i : Nat) : State :=
  let at_ := s.driver.landBase.toNat + 32 * i + 23
  s.deviceWrite at_ [s.byte at_ &&& 0x7F]

/-- Open instances of a context's sets ended with NACK, those too that this package has not opened yet: their contributions are gone from
the staging buffers, which a later set finds empty (R369). -/
def State.abortContext (s : State) (ctx : Nat) : State :=
  let mine := fun (set : Nat) => (s.collSet set).context == ctx
  { s with
    collCmds := s.collCmds.map fun x =>
      match x.2 with
      | some c => if mine c.setIndex then (x.1, some { c with aborted := some (c.aborted.getD true) }) else x
      | none => x
    landed := s.landed.filter fun l => !mine l.set
    aborts := s.aborts.filter fun a => !mine a.1
    collEnded := s.collEnded.filter fun x => !mine (x.1 / 2) }

/-- CONTEXT_TEARDOWN (R342, R369): its launches end with KILLED, its landing regions take nothing more, and its open
collective instances end with NACK. -/
def execContextTeardown (context : Nat) (s : State) : Ans :=
  let s := s.launchList.foldl (fun s x => if x.2.context = context then s.endLaunch x.1 8 .none else s) s
  let s := (List.range 4096).foldl (fun s i =>
    if (s.landing i).valid && (s.landing i).context == context then s.closeLanding i else s) s
  .next (s.abortContext context)

end Sys2Proof.Machine
end

