-- ==== Sys2Proof/Machine/Failures.lean ====
section
/-!
DEFINITION. Errors and failures of units (R204, R275, R296, R297, R330, R357, R359, R398, R399).
-/
namespace Sys2Proof.Machine

/-! ### The failed-step record (R394) -/

/-- A failure of a step and unit written: a second one of the same counts in its entry. -/
def State.recordFailure (s : State) (step unit action : Nat) : State :=
  let r := s.boot.record
  let one : FailedStep → FailedStep := fun f =>
    if f.step = step ∧ f.unit = unit then { f with attempts := min 15 (f.attempts + 1), action := action } else f
  let r := if r.any fun f => f.step == step && f.unit == unit then r.map one
    else if r.length < 63 then r ++ [⟨step, unit, 1, action⟩]
    else r
  { s with boot := { s.boot with record := r } }

/-- Every launch for which a condition holds ended with HWFAULT (R342). -/
def State.failLaunches (s : State) (p : Nat → Launch → Bool) : State :=
  s.launchList.foldl (fun s x => if p x.1 x.2 then s.endLaunch x.1 7 .none else s) s

/-! ### Corrected errors (R204, R296, R330) -/

/-- Point codes of R330. -/
def ErrorPoint.code (p : ErrorPoint) : Nat :=
  match p with
  | .l1Fill => 0
  | .hostEgress => 1
  | .fabricEgress => 2
  | .unifiedStore => 3
  | .accumulatorStore => 4
  | .l2Line => 5
  | .memoryStack => 6
  | .linkFlit => 7
  | .fabricComplex => 8

/-- A corrected error logged where it is the first of its unit in the interval. -/
def State.logFirst (s : State) (point unit pa : Nat) : State :=
  if s.logged.contains (point, unit) then s
  else { s with logged := (point, unit) :: s.logged }.logError pa point unit 0

/-- The threshold of R296, 0 read as 256. -/
def State.darkThreshold (s : State) : Nat := if s.driver.darkThr = 0 then 256 else s.driver.darkThr.toNat

/-- A sector fails (R297): its launches end, it takes no cast, and the next start maps it out. -/
def State.failSector (s : State) (h : Nat) : State :=
  let s := s.setSector h { s.sector h with failed := true }
  let s := (s.recordFailure 7 (2 * h) 2).recordFailure 7 (2 * h + 1) 2
  let s := s.logError 0 5 (16 * h) 3
  s.failLaunches fun _ l => l.casts.any fun c => sectorOfCore c.core == h

/-- A slice passes its threshold (R296): it starts to go dark, unless four of its sector have (R297). -/
def State.overThreshold (s : State) (k : Nat) : State :=
  let x := s.slice k
  let dark := (List.range 16).filter fun i => (s.slice (k / 16 * 16 + i)).dark || (s.slice (k / 16 * 16 + i)).moving
  if x.dark || x.moving then s
  else if dark.length ≥ 4 then s.failSector (k / 16)
  else s.setSlice k { x with moving := true }

/-- A corrected error of a slice counted (R296). -/
def State.countSlice (s : State) (k : Nat) : State :=
  let x := s.slice k
  let s := s.setSlice k { x with errors := x.errors + 1 }
  if x.errors + 1 > s.darkThreshold then s.overThreshold k else s

/-- CORRECTED_ERROR (R204, R296, R330): counted by the core, slice, stack or link that holds it (R297, R357), and logged. -/
def execCorrectedError (point : ErrorPoint) (unit : Nat) (pa : BitVec 52) (s : State) : Ans :=
  let s := s.logFirst (ErrorPoint.code point) unit pa.toNat
  let core := s.setCore unit { s.core unit with corerr := ((s.core unit).corerr + 1) % 2 ^ 32 }
  match point with
  | .l1Fill => .next core
  | .unifiedStore => .next core
  | .accumulatorStore => .next core
  | .l2Line => happens (decide (unit < 96)) s (s.countSlice unit)
  | .hostEgress => .next s
  | .fabricEgress => .next s
  | .memoryStack => .next { s with stackErrors := s.stackErrors.set 0 unit (s.stackErrors.get 0 unit + 1) }
  | .linkFlit => .next { s with linkErrors := s.linkErrors.set 0 unit (s.linkErrors.get 0 unit + 1) }
  | .fabricComplex => .next s

/-- ERROR_COUNT_INTERVAL (R296, R330): the interval of the units with a number ends. -/
def execErrorCountInterval (slice : Nat) (s : State) : Ans :=
  .next { s.setSlice slice { s.slice slice with errors := 0 } with logged := s.logged.filter fun x => x.2 != slice }

/-! ### A slice goes dark (R296) -/

/-- The nearest live slice of a sector below (or above) a slice, modulo 16. -/
def State.nearest (s : State) (k : Nat) (below : Bool) : Option Nat :=
  ((List.range 15).map fun i =>
    k / 16 * 16 + (if below then (k % 16 + 15 - i) % 16 else (k % 16 + 1 + i) % 16)).find? fun j => !(s.slice j).dark

/-- A slice's buckets moved, in ascending order alternately below and above it (R296 step 3). -/
def State.moveBuckets (s : State) (k : Nat) : State :=
  let h := k / 16
  let x := s.sector h
  let mine := (List.range 256).filter fun b => (x.buckets.get none b).getD (16 * h + b / 16) == k
  let moved := mine.foldl (fun (p : Table (Option Nat) × Bool) b =>
    (match s.nearest k p.2 with
     | some j => p.1.set none b (if j = 16 * h + b / 16 then none else some j)
     | none => p.1, !p.2)) (x.buckets, true)
  s.setSector h { x with buckets := moved.1 }

/-- A held request goes to the new slice of its line's bucket, in the sector where it was held. -/
def State.release1 (s : State) (id : Nat) : State :=
  match s.req? id with
  | some r => s.queueAt (s.sliceIn (r.slice / 16) (128 * r.line)) id r
  | none => s

/-- The move made (R296): visitor copies invalid, pins passed on, reservations cleared, requests released; the next start
maps the slice out. R330 has failures logged, and does not say whether this is one: here it is not logged, and nor is a crossbar error
on an aperture access (R275, log 76). -/
def State.goDark (s : State) (k : Nat) : State :=
  let x := s.slice k
  let s := { s with resvs := s.resvs.filter fun r => s.homeSlice (128 * r.granule) != k }
  let s := (s.setSlice k { x with
    dark := true, moving := false, held := [], ways := [], lru := [], visitors := [], pins := [] }).moveBuckets k
  let s := x.pins.foldl (fun (s : State) p =>
    let j := s.homeSlice (128 * p.1)
    s.setSlice j { s.slice j with pins := (s.slice j).pins ++ [p] }) s
  x.held.foldl State.release1 (s.recordFailure 6 k 2)

/-- SLICE_MOVE_COMPLETE (R296): the requests already in the slice have completed. -/
def execSliceMoveComplete (slice : Nat) (s : State) : Ans :=
  let x := s.slice slice
  happens (x.moving && x.queue.isEmpty && s.reqList.all fun r => !(r.2.slice == slice && r.2.stage == .granted)) s
    (s.goDark slice)

/-! ### Uncorrectable errors (R204, R297, R357, R398) -/

/-- A 64-byte block at home poisoned. -/
def State.poisonHome (s : State) (block : Nat) : State :=
  (s.setTagsOf (64 * block) 64 tagPOI).recheck (64 * block)

/-- Words of a line with a masked byte. -/
def touchedWords (m : BitVec 128) : BitVec 16 :=
  BitVec.ofNat 16 ((List.range 16).foldl (fun a i => if m.toNat / 2 ^ (8 * i) % 256 = 0 then a else a + 2 ^ i) 0)

/-- A block of an L1 line poisoned: words that hold unsent or unmerged bytes carry the poison home with them. -/
def Line.poison (x : Line) (upper : Bool) : Line :=
  let w : BitVec 16 := if upper then 0xFF00 else 0x00FF
  { x with
    tags := mix (expand4 w) (BitVec.ofNat 64 0xEEEEEEEEEEEEEEEE) x.tags, tagKnown := x.tagKnown ||| w
    tagDirty := x.tagDirty ||| (w &&& touchedWords x.dirty)
    unsentTags := x.unsent.foldl (fun t u => t.set 0 u.1 (t.get 0 u.1 ||| (w &&& touchedWords u.2))) x.unsentTags }

/-- An error in a core's L1. -/
def State.poisonL1 (s : State) (core pa : Nat) : State :=
  let k := s.l1Of core
  let l := s.l1 k
  match l.lines.get none (pa / 128) with
  | some x => s.setL1 k { l with lines := l.lines.set none (pa / 128) (some (x.poison (pa / 64 % 2 == 1))) }
  | none => s

/-- Something of a block changed behind its check value, which stays as it stood (R398). -/
def State.behindCheck (s : State) (block : Nat) (f : State → State) : State :=
  let v := s.checkValue block
  let t := f s
  { t with check := t.check.set 0 block (v ^^^ t.blockCrc block) }

/-- An entry of a thread's unify stack poisoned (R204). -/
def Thread.poisonEntry (t : Thread) (index : Nat) : Thread := { t with ustack := t.ustack.set index .poisoned }

/-- UNCORRECTABLE_ERROR (R204, R275, R297, R357, R398). -/
def execUncorrectableError (site : ErrorSite) (s : State) : Ans :=
  match site with
  | .registerWord core word =>
    let c := s.core core
    .next ((s.setCore core { c with regTags := c.regTags.set 0 word tagPOI }).logError 0 3 core 1)
  | .scratchWord core word =>
    let c := s.core core
    .next ((s.setCore core { c with scratchTags := c.scratchTags.set 0 word tagPOI }).logError 0 3 core 1)
  | .understudyPair group thread pair =>
    let g := s.group group
    .next ((s.setGroup group { g with
      handler := g.handler.map fun h => { h with tags := h.tags.set 0 (thread * 32 + pair) tagPOI } }).logError 0 3 g.core 1)
  | .element core index =>
    let c := s.core core
    .next ((s.setCore core { c with accPoison := c.accPoison.set false index true }).logError 0 4 core 1)
  | .memoryBlock point unit pa =>
    let s := if point = .l1Fill then s.poisonL1 unit pa.toNat else s.poisonHome (pa.toNat / 64)
    .next (s.logError pa.toNat (ErrorPoint.code point) unit 1)
  | .aperture group => .next { s with apertureErrors := group :: s.apertureErrors }
  | .ustackEntry group thread index =>
    let g := s.group group
    .next ((s.setGroup group (g.setThread thread ((g.thread thread).poisonEntry index))).logError 0 3 g.core 1)
  | .silent pa byte => .next (s.behindCheck (pa.toNat / 64) fun s => s.setByte pa.toNat byte)
  | .silentTag pa tag => .next (s.behindCheck (pa.toNat / 64) fun s => s.setWordTag pa.toNat tag)
  | .silentCheck pa v =>
    let b := pa.toNat / 64
    .next { s with check := s.check.set 0 b (v ^^^ s.blockCrc b) }

/-! ### Failures of units (R275, R297, R357, R359) -/

/-- STACK_FAILURE (R357). -/
def execStackFailure (stack : Nat) (s : State) : Ans :=
  let s := { s with deadStacks := stack :: s.deadStacks.filter (· != stack) }
  .next (((s.recordFailure 5 stack 2).logError 0 6 stack 3).failLaunches fun _ _ => true)

/-- LINK_FAILURE (R297): one of the seven links, which of them is a free value (log 59). -/
def execLinkFailure (s : State) : Ans :=
  let link := (Config.freeWord s.free).toNat % 7
  let s := { s with free := s.free + 1 }
  .next (({ s with linksDown := link :: s.linksDown.filter (· != link) }.logError 0 7 0 3).failLaunches fun _ _ => true)

/-- SECTOR_FAILURE (R297). -/
def execSectorFailure (sector : Nat) (s : State) : Ans := .next (s.failSector sector)

/-- The groups of a launch on other clusters that wait in XCHG receive status 1 (R275). -/
def State.releasePartners (s : State) (launch cluster : Nat) : State :=
  s.groups.foldl (fun (s : State) x =>
    match x.2.xchg with
    | some f =>
      if x.2.launch = launch ∧ x.2.life = .resident ∧ clusterOfCore x.2.core ≠ cluster then
        (s.putStatus (s.xchgSide x.1 f.ops) 1).leaveXchg x.1 f.ops
      else s
    | none => s) s

/-- ISLAND_FAULT (R275): the XCHG partners of groups on the cluster receive status 1, every launch with a cast there ends, and
later deliveries to the cluster fail. -/
def execIslandFault (cluster : Nat) (s : State) : Ans :=
  let s := { s with islands := s.islands.set Island.start cluster { s.island cluster with failed := true } }
  let here : Launch → Bool := fun l => l.casts.any fun c => clusterOfCore c.core == cluster
  let s := s.launchList.foldl (fun s x => if here x.2 then s.releasePartners x.1 cluster else s) s
  .next ((s.logError 0 3 (4 * cluster) 3).failLaunches fun _ l => here l)

/-- FLIT_RESEND (R359): a resend that fails eight times in a row takes the port down. -/
def execFlitResend (port : Nat) (ok : Bool) (s : State) : Ans :=
  let p := s.ports.get ⟨false, 0⟩ port
  let n := if ok then 0 else p.resends + 1
  let down := p.down || decide (n ≥ 8)
  let s' := { s.wakeFabric with ports := s.ports.set ⟨false, 0⟩ port ⟨down, if down then 0 else n⟩ }
  .next (if down && !p.down then s'.logError 0 7 port 3 else s')

/-- FABRIC_COMPLEX_FAILURE (R359): launches with a started fabric or collective command end. -/
def execFabricComplexFailure (s : State) : Ans :=
  let busy : Nat → Bool := fun key =>
    (s.fabList.any fun x => x.2.launch == key) || s.collCmds.any fun x => x.2.any fun c => c.launch == key
  .next (({ s with fabricDown := true }.logError 0 8 0 3).failLaunches fun key _ => busy key)

end Sys2Proof.Machine
end

