-- ==== Sys2Proof/Machine/Power.lean ====
section
/-!
DEFINITION. Power as programs see it (R353 to R356), the island clock (R274) and the routers' power (R373).
-/
namespace Sys2Proof.Machine

/-- A level moved by at most one step, 0 to 7 (R354). -/
def moveLevel (x : Nat) (m : PowerMove) : Nat :=
  match m with
  | .down => x - 1
  | .hold => x
  | .up => min 7 (x + 1)

/-- The island clock moved one step (R274): it slows only at dimmer level 0. -/
def moveClock (slow level : Nat) (m : PowerMove) : Nat :=
  match m with
  | .down => if level = 0 then min 2 (slow + 1) else slow
  | .hold => slow
  | .up => slow - 1

/-- An island after one update of a limit. -/
def Island.move (i : Island) (level : Nat) (limit : PowerLimit) (m : PowerMove) : Island :=
  match limit with
  | .cap => { i with cap := moveLevel i.cap m }
  | .thermal => { i with thermal := moveLevel i.thermal m }
  | .partition p => { i with part := i.part.set 7 p (moveLevel (i.part.get 7 p) m) }
  | .row => { i with row := moveLevel i.row m }
  | .clock => { i with slow := moveClock i.slow level m }

/-- The limit has a budget to follow: that of a partition only where its cap sets one (R346). -/
def State.budgeted (s : State) (limit : PowerLimit) : Bool :=
  match limit with
  | .partition p => s.capOf p != 0
  | _ => true

/-- POWER_LIMIT_UPDATE (R354): which way a limit moves is the meters' (log 18). -/
def execPowerLimitUpdate (cluster : Nat) (limit : PowerLimit) (move : PowerMove) (s : State) : Ans :=
  happens (s.budgeted limit) s
    { s with islands := s.islands.set Island.start cluster ((s.island cluster).move (s.level cluster) limit move) }

/-- The fade after a step has lasted its time (R355); step 8 of the ramp-down is its end. -/
def State.nextFade (s : State) (l : Launch) : Fade :=
  match l.fade.phase with
  | 1 => if l.fade.step < 7 then ⟨1, l.fade.step + 1, []⟩ else ⟨0, 0, []⟩
  | 2 => if l.fade.step < 8 then s.rampDown l (l.fade.step + 1) else l.fade
  | _ => l.fade

/-- The level of a step of the ramp-down to target T: T − ⌈(k + 1) × T ÷ 8⌉, at least 0 (R355). -/
def downLevel (t k : Nat) : Nat := t - ((k + 1) * t + 7) / 8

/-- Filler dot products of a cast in a step of the ramp-down: its core's four units issue in L + 1 of every 8 cycles of a step of
STEPLEN × 10 ns (R353, R355), at three cycles to a nanosecond (R274), in those of them that no other launch has used (log 18). -/
def State.fillerOf (s : State) (l : Launch) (core : Nat) : Nat :=
  4 * ((downLevel l.record.ftarget l.fade.step + 1) * (30 * l.record.step) / 8) - ((s.core core).array - l.fade.used.get 0 core)

/-- The filler of a ramp-down step counts as the ending launch's work on the islands of its casts (R355). -/
def State.fill (s : State) (l : Launch) : Launch :=
  if l.fade.phase = 2 ∧ l.fade.step < 8 then
    { l with filler := l.casts.foldl (fun (t : Table Nat) c =>
        t.set 0 (clusterOfCore c.core) (t.get 0 (clusterOfCore c.core) + s.fillerOf l c.core)) l.filler }
  else l

/-- FADE_STEP (R355). -/
def execFadeStep (launch : Nat) (s : State) : Ans :=
  match s.launch? launch with
  | some l => .next (s.setLaunch launch (some { s.fill l with fade := s.nextFade l }))
  | none => .next s

/-! ### Energy (R356) -/

/-- A part of `amount` in the proportion of `own` to `total` (R356). -/
def share (amount own total : Nat) : Nat := if total = 0 then 0 else amount * own / total

/-- A launch's work on an island since the last update. -/
def State.workOn (s : State) (cluster key : Nat) (l : Launch) : Nat :=
  l.filler.get 0 cluster + s.sumGroups key fun g => if clusterOfCore g.core = cluster then g.work else 0

/-- What an update gives a launch (R356): of each island's energy by its work there, of that of L2, network, memory and links by the
bytes it was served, of leakage by its resident group-cycles. -/
def State.energyOf (s : State) (m : Meters) (key : Nat) (l : Launch) : Nat :=
  let sum := fun (f : Nat × Launch → Nat) => (s.launchList.map f).foldl (· + ·) 0
  (m.islands.foldl (fun e x => e + share x.2 (s.workOn x.1 key l) (sum fun y => s.workOn x.1 y.1 y.2)) 0)
    + share m.traffic (s.servedTo key l) (sum fun y => s.servedTo y.1 y.2)
    + share m.leakage (s.cyclesOf key l) (sum fun y => s.cyclesOf y.1 y.2)

/-- ENERGY_UPDATE (R356): what the meters read in the interval divided among the launches, whose counts start afresh. -/
def execEnergyUpdate (meters : Meters) (s : State) : Ans :=
  .next { s with
    launches := s.launches.map fun x =>
      (x.1, x.2.map fun l => { l with
        energy := l.energy + BitVec.ofNat 64 (s.energyOf meters x.1 l), filler := [], served := 0, cycles := 0 })
    groups := s.groups.map fun x => (x.1, { x.2 with work := 0, served := 0, since := s.clock }) }

/-! ### Routers (R373) -/

/-- A command that needs the fabric, or a flit: a wake (R373). A resend that is due counts as well. -/
def State.fabricWake (s : State) : Bool :=
  !s.fabList.isEmpty || (s.collCmds.any fun x => x.2.isSome) || (s.ports.any fun x => x.2.resends != 0)
    || s.groups.any fun x => x.2.life == .resident && (x.2.fabQ.head?.any fun e => e.guard == .decided true)

/-- A router has been idle for 64 cycles of the die clock. -/
def State.routerIdle (s : State) (k : Nat) : Bool :=
  decide (max (s.routers.get Router.start k).last s.fabricUse + 64 ≤ s.clock)

/-- ROUTER_POWER_DOWN (R373): after 64 idle cycles with no wake pending; no command's result depends on it. -/
def execRouterPowerDown (router : Nat) (s : State) : Ans :=
  happens (s.routerIdle router && !s.fabricWake) s
    { s with routers := s.routers.set Router.start router { s.routers.get Router.start router with down := true } }

/-- ROUTER_WAKE (R373): the idle count starts again. -/
def execRouterWake (router : Nat) (s : State) : Ans :=
  .next { s with routers := s.routers.set Router.start router ⟨false, s.clock⟩ }

end Sys2Proof.Machine
end

