-- ==== Sys2Proof/Machine/Boot.lean ====
section
/-!
DEFINITION. Device start, the failed-step record, features, firmware and attestation (R393 to R397).
-/
namespace Sys2Proof.Machine

/-! ### The failed-step record as bytes (R394) -/

/-- An entry as a 32-bit value. -/
def FailedStep.word (f : FailedStep) : Nat := f.step * 2 ^ 24 + f.unit * 2 ^ 16 + f.attempts * 2 ^ 12 + f.action * 2 ^ 8

/-- The 256 bytes of the record. -/
def recordBytes (r : List FailedStep) : List Byte :=
  ((leBytes 4 r.length ++ r.flatMap fun (f : FailedStep) => leBytes 4 f.word) ++ List.replicate 256 0).take 256

/-! ### Start (R393) -/

/-- What a start keeps: the non-volatile store, host memory, time and the model's own counters. -/
def State.restart (s : State) : State :=
  { State.reset with
    mem := s.mem.filter fun x => decide (hostBit ≤ x.1)
    boot := { State.reset.boot with record := s.boot.record, image := s.boot.image }
    hostTime := s.hostTime, clock := s.clock, irqs := s.irqs, hostData := s.hostData, hostPoison := s.hostPoison, fresh := s.fresh
    free := s.free, nextFault := 1, agenda := s.agenda }

/-- A start halted at a step (R393). -/
def State.haltAt (s : State) (step : Nat) : State := { s with boot := { s.boot with step := step, halted := true } }

/-- A unit that a record maps out. -/
def isOut (r : List FailedStep) (step unit : Nat) : Bool := r.any fun f => f.step == step && f.unit == unit && f.action == 2

/-- A unit's failure recorded (R393): a stack is retrained once before it is mapped out. -/
def State.failUnit (s : State) (step unit : Nat) : State :=
  let again := s.boot.record.any fun f => f.step == step && f.unit == unit
  s.recordFailure step unit (if step = 5 ∧ !again then 1 else 2)

/-- A step of 5 to 9 on every unit not mapped out. -/
def State.testUnits (s : State) (failures : List (Nat × Nat)) (step count : Nat) : State :=
  (List.range count).foldl (fun (s : State) u =>
    if !isOut s.boot.record step u && failures.contains (step, u) then s.failUnit step u else s) s

/-- Units of a step that the record leaves. -/
def liveUnits (r : List FailedStep) (step count : Nat) : List Nat := (List.range count).filter fun u => !isOut r step u

/-- The record leaves too little for a start (R393). -/
def tooFew (r : List FailedStep) : Bool :=
  (liveUnits r 7 12).isEmpty || (liveUnits r 9 2).isEmpty || decide ((liveUnits r 5 12).length < 2)
    || (List.range 6).any fun h => decide (((liveUnits r 6 96).filter fun k => k / 16 == h).length < 12)

/-- Slices mapped out are dark from the start (R296). -/
def State.darkenSlices (s : State) : State :=
  let out := (List.range 96).filter fun k => isOut s.boot.applied 6 k
  let s := out.foldl (fun s k => s.setSlice k { s.slice k with dark := true }) s
  out.foldl State.moveBuckets s

/-- Steps 4 to 10. The units that the record maps out are those of the failures before this start: what fails now is mapped out at
the next one (R393); whether step 10 halts is decided by the record as it then stands (log 73). -/
def State.train (s : State) (failures : List (Nat × Nat)) : State :=
  let s := { s with boot := { s.boot with applied := s.boot.record } }
  let s := if failures.contains (4, 0) then s.recordFailure 4 0 1 else s
  let s := ((((s.testUnits failures 5 12).testUnits failures 6 96).testUnits failures 7 12).testUnits failures 8 18).testUnits
    failures 9 2
  let s := s.darkenSlices
  if failures.contains (10, 0) then (s.recordFailure 10 0 3).haltAt 10
  else if tooFew s.boot.record then s.haltAt 10
  else { s with boot := { s.boot with step := 11 } }

/-- Steps 1 to 3, and the rest where they pass (R393, R396). -/
def State.bootSteps (s : State) (failures : List (Nat × Nat)) : State :=
  if failures.contains (1, 0) then (s.recordFailure 1 0 3).haltAt 1
  else if failures.contains (2, 0) || !Config.sm2Verifies s.boot.image then (s.recordFailure 2 0 3).haltAt 2
  else if failures.contains (3, 0) then (s.recordFailure 3 0 3).haltAt 3
  else
    { s with boot := { s.boot with
      imageDigest := Config.sm3 s.boot.image, recordDigest := Config.sm3 (recordBytes s.boot.record) } }.train failures

/-- DEVICE_START (R393). A package that has started already goes back to step 0 first; its steps run at the next start event,
so that the driver's setting of LOCAL comes before them (R319). -/
def execDeviceStart (failures : List (Nat × Nat)) (s : State) : Ans :=
  .next (if s.boot.step = 0 then s.bootSteps failures else s.restart)

/-- FSRCLR (R394): while halted or before step 11. -/
def execFsrclr (s : State) : Ans :=
  happens (s.boot.halted || decide (s.boot.step < 11)) s { s with boot := { s.boot with record := [] } }

/-! ### Features (R395) -/

/-- CAPS. -/
def caps : BitVec 128 := 0x3FFFF

/-- A mask that a write may set. -/
def maskOk (mask : BitVec 128) : Bool := mask &&& ~~~caps == 0 && mask.getLsbD 0

/-- FEATEN_WRITE (R395): refused as a whole, or accepted, which ends step 11. Before step 11, while halted and once a launch
has been admitted it is refused. -/
def execFeatenWrite (mask : BitVec 128) (s : State) : Ans :=
  let d := s.driver
  if !maskOk mask || s.boot.halted || s.boot.fixed || decide (s.boot.step < 11) then
    .next { s with driver := { d with featSt := 2 } }
  else
    .next { s with
      driver := { d with featEn := mask, featSt := 1 }, boot := { s.boot with step := 12, ready := true } }

/-! ### Firmware and attestation (R396, R397) -/

/-- IMGCTL_GO (R327, R396): accepted only while halted or before step 11; FAIL where the range is not host memory. -/
def execImgctlGo (s : State) : Ans :=
  let d := s.driver
  let pa := d.imgBase.toNat
  let n := d.imgLen.toNat
  if !(s.boot.halted || decide (s.boot.step < 11)) then .next s
  else if pa < hostBit ∨ 2 * hostBit < pa + n then .next { s with driver := { d with imgDone := false, imgFail := true } }
  else
    .next { s with
      driver := { d with imgDone := true, imgFail := false }
      boot := { s.boot with image := (List.range n).map fun i => s.byte (pa + i) } }

/-- A 256-bit value as 32 bytes, most significant first. -/
def bytes256 (v : BitVec 256) : List Byte := (leBytes 32 v.toNat).reverse

/-- The signed part of a report (R327, R397). -/
def State.reportBody (s : State) : List Byte :=
  let d := s.driver
  let n := min 32 d.attLen.toNat
  let nonce := (List.range 32).map fun i => if i < n then BitVec.ofNat 8 ((d.attNonce.get 0 (i / 8)).toNat / 2 ^ (8 * (i % 8))) else 0
  bytes256 s.boot.imageDigest ++ bytes256 s.boot.recordDigest ++ leBytes 16 d.featEn.toNat ++ nonce ++ leBytes 4 d.attLen.toNat
    ++ List.replicate 12 0

/-- ATTCTL_GO (R397). -/
def execAttctlGo (s : State) : Ans :=
  let body := s.reportBody
  let (r, t) := Config.sm2Sign body
  let s := s.deviceWrite s.driver.attBuf.toNat (body ++ bytes256 r ++ bytes256 t)
  .next { s with driver := { s.driver with attDone := true } }

end Sys2Proof.Machine
end

