-- ==== Sys2Proof/Machine/HostRegs.lean ====
section
/-!
DEFINITION. The driver's registers and the host link (R290, R325 to R333, R398, R399).
-/
namespace Sys2Proof.Machine

/-! ### Translation invalidation (R329) -/

/-- INVCTL_GO (R329): ignored while busy. -/
def execInvctlGo (s : State) : Ans :=
  let d := s.driver
  happens (!d.invBusy) s { s with driver := { d with invDone := false, invBusy := true } }

/-- A cached translation lies in the named range (R329). -/
def Driver.invalidates (d : Driver) (e : TlbEntry) : Bool :=
  let first := d.invVa.toNat % 2 ^ 57 / 2 ^ 16
  let count := d.invLen.toNat / 2 ^ 16
  d.invCtx.getLsbD 31
    || (e.context == d.invCtx.toNat % 64 && (count == 0 || (decide (first ≤ e.page) && decide (e.page < first + count))))

/-- INVALIDATION_DONE (R329). Where INVCTX, INVVA or INVLEN is written meanwhile, the values at the completion count (log 76). -/
def execInvalidationDone (s : State) : Ans :=
  let d := s.driver
  happens d.invBusy s { s with
    tlb := s.tlb.filter fun e => !d.invalidates e, driver := { d with invDone := true, invBusy := false } }

/-! ### The fault ring (R325, R328) -/

/-- PAGEFAULT's information (R188). -/
def Parked.info (p : Parked) : Dword :=
  let at_ := if p.access = aFetch then p.pc else p.va
  BitVec.ofNat 64 (bitOf (p.access == aWrite || p.access == aAtomic) * 2 ^ 57 + at_.toNat % 2 ^ 57)

/-- The trap of a refused fault (R196). -/
def Parked.trap (p : Parked) : TrapInfo := ⟨cPAGEFAULT, p.pc, p.info, p.lane, p.frag, false⟩

/-- A parked group answered (R325): replayed, or refused. -/
def State.answerGroup (s : State) (k : Nat) (verdict : Bool) : State :=
  let g := s.group k
  match g.parked with
  | none => s
  | some p =>
    let s := s.setGroup k { g with parked := none }
    if verdict then s.takeTrap k p.trap else s

/-- The groups parked on a record. -/
def State.parkedOn (s : State) (id : Nat) : List Nat :=
  (s.groups.filter fun x => x.2.life == .resident && x.2.parked.any fun p => p.fault == some id).map (·.1)

/-- FREPLY (R325, R328). -/
def execFreply (verdict : Bool) (s : State) : Ans :=
  let id := s.driver.freplyId.toNat
  if s.faults.any fun f => f.id == id then
    let s' := { s with faults := s.faults.filter fun f => f.id != id }
    .next ((s.parkedOn id).foldl (fun s k => s.answerGroup k verdict) s')
  else .next { s with driver := { s.driver with badId := true } }

/-- Groups parked while the ring was full post their records as space allows (R325). -/
def State.postWaiting (s : State) : State :=
  s.groups.foldl (fun s x => if x.2.life == .resident && x.2.parked.any fun p => p.fault.isNone then s.recordFault x.1 else s) s

/-- FRCONS_WRITE (R328). -/
def execFrconsWrite (v : BitVec 32) (s : State) : Ans := .next { s with driver := { s.driver with frCons := v } }.postWaiting

/-- FAULT_RING_CONFIG_WRITE (R328): refused while a record is open. -/
def execFaultRingConfigWrite (size : Bool) (v : BitVec 64) (s : State) : Ans :=
  let d := s.driver
  if !s.faults.isEmpty then .next { s with driver := { d with badSet := true } }
  else
    let d := if size then { d with frSize := v.setWidth 4 } else { d with frBase := v }
    .next { s with driver := { d with frProd := 0, frCons := 0 } }.postWaiting

/-! ### Counters that a read clears (R326, R327, R330, R356) -/

/-- ERRCONS_WRITE (R330). -/
def execErrconsWrite (v : BitVec 32) (s : State) : Ans := .next { s with driver := { s.driver with errCons := v } }

/-- CORERR_READ (R204, R327). -/
def execCorerrRead (core : Nat) (s : State) : Ans :=
  let c := s.core core
  .next { s.setCore core { c with corerr := 0 } with hostData := BitVec.ofNat 64 c.corerr, hostPoison := false }

/-- One 32-bit half of an energy accumulator read and cleared: the spec does not say what a 4-byte read of a 64-bit register clears,
and that it clears what it returns is the model's choice (log 74). -/
def State.enaccHalf (s : State) (partition entry : Nat) (high : Bool) : State :=
  let p := s.part partition
  let v := p.energy.get 0 entry
  let left := if high then pairOf (loHalf v) 0 else pairOf 0 (hiHalf v)
  { s.setPart partition { p with energy := p.energy.set 0 entry left } with
    hostData := ((if high then hiHalf v else loHalf v).setWidth 64), hostPoison := false }

/-- ENACC_READ (R327, R356). -/
def execEnaccRead (partition entry : Nat) (s : State) : Ans :=
  let p := s.part partition
  .next { s.setPart partition { p with energy := p.energy.set 0 entry 0 } with
    hostData := p.energy.get 0 entry, hostPoison := false }

/-- ERRLOST_READ (R330). -/
def execErrlostRead (s : State) : Ans :=
  .next { s with
    driver := { s.driver with errLost := 0 }, hostData := s.driver.errLost.setWidth 64, hostPoison := false }

/-! ### Slice records (R290, R295) -/

/-- A context's record of a slice changed. -/
def State.setRecord (s : State) (slice context : Nat) (f : SliceContext → SliceContext) : State :=
  let x := s.slice slice
  s.setSlice slice { x with
    contexts := x.contexts.set SliceContext.start context (f (x.contexts.get SliceContext.start context)) }

/-- The bucket refilled by a write of RATE, DEPTH or BORROW (R290). -/
def SliceContext.refilled (c : SliceContext) : SliceContext := { c with tokens := c.depth, debt := 0 }

/-- SLICE_RATE_WRITE (R290): SLRATE, or SLDEPTH with BORROW. -/
def execSliceRateWrite (slice context : Nat) (depthReg : Bool) (v : BitVec 32) (s : State) : Ans :=
  .next (s.setRecord slice context fun c =>
    SliceContext.refilled (if depthReg then { c with depth := v.setWidth 16, borrow := (v >>> 16).setWidth 16 }
      else { c with rate := v.setWidth 16 }))

/-- SLWAYS_WRITE (R295). -/
def execSlwaysWrite (slice context : Nat) (v : BitVec 32) (s : State) : Ans :=
  .next (s.setRecord slice context fun c => { c with wayMask := v.setWidth 16 })

/-! ### Writes of driver registers (R326, R327) -/

/-- The state an event comes to. -/
def stateOr (a : Ans) (s : State) : State :=
  match a with
  | .next t => t
  | _ => s

/-- A 4-byte register written. -/
def State.writeReg4 (s : State) (off : Nat) (v : Word) : State :=
  let d := s.driver
  let bit0 := v.getLsbD 0
  let run : Ans → State := fun a => stateOr a s
  match off with
  | 0x10 => if s.boot.step ≤ 4 ∧ v.toNat % 16 ≤ 8 then { s with driver := { d with localSel := v.setWidth 4 } } else s
  | 0x18 => { s with driver := { d with domainId := v.setWidth 12 } }
  | 0x28 => { s with driver := { d with retryLim := v.setWidth 16 } }
  | 0x30 => { s with driver := { d with darkThr := v.setWidth 16 } }
  | 0x20000 => { s with driver := { d with invCtx := v &&& 0x8000003F } }
  | 0x20018 => if bit0 then run (execInvctlGo s) else s
  | 0x30008 => run (execFaultRingConfigWrite true (v.setWidth 64) s)
  | 0x30018 => run (execFrconsWrite v s)
  | 0x30028 => run (execFreply bit0 s)
  | 0x30030 => { s with driver := { d with badId := d.badId && !bit0, badSet := d.badSet && !v.getLsbD 1 } }
  | 0x50008 => { s with driver := { d with errSize := v.setWidth 4 } }
  | 0x50018 => run (execErrconsWrite v s)
  | 0x60028 => if bit0 then run (execFsrclr s) else s
  | 0x60038 => { s with driver := { d with imgLen := v } }
  | 0x60040 => if bit0 then run (execImgctlGo s) else s
  | 0x60048 =>
    let s := { s with driver := { d with attLen := (v >>> 8).setWidth 6 } }
    if bit0 then stateOr (execAttctlGo s) s else s
  | _ =>
    let k := (off - 0x1000000) / 0x8000
    let at_ := (off - 0x1000000) % 0x8000
    if 0x1000000 ≤ off ∧ k < 96 ∧ at_ < 2048 then
      match at_ % 32 with
      | 0 => run (execSliceRateWrite k (at_ / 32) false v s)
      | 4 => run (execSliceRateWrite k (at_ / 32) true v s)
      | 8 => run (execSlwaysWrite k (at_ / 32) v s)
      | _ => s
    else s

/-- The unit of a wider register latched until its highest one is written (R326). -/
def State.latch (s : State) (off : Nat) (v : Dword) : State :=
  { s with driver := { s.driver with latches := s.driver.latches.set 0 off v } }

/-- The latched 8-byte units of a register from `off`. -/
def Driver.units (d : Driver) (off count : Nat) : List (Nat × Dword) :=
  (List.range count).map fun i => (i, d.latches.get 0 (off + 8 * i))

/-- The bits of 8-byte unit `u` of a partition descriptor that are not reserved (R346, R7). -/
def partMask (u : Nat) : Dword :=
  match u with
  | 0 => 0xFFF
  | 1 => 0xFFFFFFFFFFFFFFFF
  | 2 => 0xFFFFFFFF
  | 4 => 0xFFFFFFFFFFFFFFFF
  | 5 => 0xFFFFFFFFFFFFFFFF
  | 6 => 0xFFFFFFFFFFFFFFFF
  | 7 => 0x3FFFFF
  | 8 => 0xFFFFFFFFFFFFFFFF
  | 9 => 0x7FFFFFFFF
  | 10 => 0xFFFFFFFF
  | 11 => 0xFFFFFFFFFFFFFFFF
  | 12 => 0xFFFFFFFFFFFFFFFF
  | 13 => 0xFFFFFFFFFFFFFFFF
  | _ => 0

/-- An 8-byte register, or an 8-byte unit of a wider one, written; reserved fields stay zero (R7). -/
def State.writeReg8 (s : State) (off : Nat) (v : Dword) : State :=
  let d := s.driver
  match off with
  | 0x20 => if s.boot.ready then s else { s with driver := { d with htime := v }, hostTime := v.toNat }
  | 0x40 => { s with driver := { d with tagBase := v } }
  | 0x48 => { s with driver := { d with landBase := v } }
  | 0x50 => { s with driver := { d with collBase := v } }
  | 0x58 => { s with driver := { d with qdBase := v } }
  | 0x60 => { s with driver := { d with routeBase := v } }
  | 0x20008 => { s with driver := { d with invVa := v } }
  | 0x20010 => { s with driver := { d with invLen := v } }
  | 0x30000 => stateOr (execFaultRingConfigWrite false v s) s
  | 0x30020 => { s with driver := { d with freplyId := v } }
  | 0x50000 => { s with driver := { d with errBase := v } }
  | 0x60010 => s.latch off v
  | 0x60018 => stateOr (execFeatenWrite (v ++ d.latches.get 0 0x60010) s) s
  | 0x60030 => { s with driver := { d with imgBase := v } }
  | 0x60050 => { s with driver := { d with attBuf := v } }
  | _ =>
    if 0x1000 ≤ off ∧ off < 0x1800 then
      let s := s.latch off v
      if off % 128 = 120 then
        let p := (off - 0x1000) / 128
        { s with driver := { s.driver with
            parts := (s.driver.units (off - 120) 16).foldl (fun (t : Table Dword) x => t.set 0 (16 * p + x.1) (x.2 &&& partMask x.1)) d.parts } }
      else s
    else if 0x10000 ≤ off ∧ off < 0x10200 then { s with driver := { d with roots := d.roots.set 0 ((off - 0x10000) / 8) (v &&& 0xFFFFFFFFFF001) } }
    else if 0x60080 ≤ off ∧ off < 0x600A0 then
      let s := s.latch off v
      if off = 0x60098 then
        { s with driver := { s.driver with
            attNonce := (s.driver.units 0x60080 4).foldl (fun (t : Table Dword) x => t.set 0 x.1 x.2) d.attNonce } }
      else s
    else s

/-- An offset that lies in a register of 8 bytes or more (R327). -/
def wideReg (off : Nat) : Bool :=
  let at_ : Nat → Nat → Bool := fun lo hi => decide (lo ≤ off) && decide (off < hi)
  at_ 0x20 0x28 || at_ 0x40 0x68 || at_ 0x1000 0x1800 || at_ 0x10000 0x10200 || at_ 0x20008 0x20018 || at_ 0x30000 0x30008
    || at_ 0x30020 0x30028 || at_ 0x50000 0x50008 || at_ 0x60010 0x60020 || at_ 0x60030 0x60038 || at_ 0x60050 0x60058
    || at_ 0x60080 0x600A0

/-- DRIVER_REGISTER_WRITE (R326): an aligned access of 4 or 8 bytes; an 8-byte register takes effect with its high half. -/
def execDriverRegisterWrite (offset size : Nat) (v : BitVec 64) (s : State) : Ans :=
  if offset % size ≠ 0 then .next s
  else
    match size with
    | 4 =>
      if !wideReg offset then .next (s.writeReg4 offset (loHalf v))
      else if offset % 8 = 0 then .next (s.latch (offset + 1) (v &&& 0xFFFFFFFF))
      else .next (s.writeReg8 (offset - 4) (pairOf (loHalf (s.driver.latches.get 0 (offset - 3))) (loHalf v)))
    | 8 =>
      if wideReg offset then .next (s.writeReg8 offset v)
      else .next ((s.writeReg4 offset (loHalf v)).writeReg4 (offset + 4) (hiHalf v))
    | _ => .next s

/-! ### Reads of driver registers (R326, R327) -/

/-- A 32-bit part of a 64-bit value by its offset. -/
def half (v : Dword) (off : Nat) : Word := if off % 8 = 0 then loHalf v else hiHalf v

/-- The bits of 8-byte unit `u` of a partition descriptor as they read: TENANTSCOPE and CLAMPTRAP are 0 while CLAMP is clear, PAUSEHIDE while
PHIDE is (R395). -/
def State.shownPart (s : State) (u : Nat) : Dword :=
  let hide := fun (k : Nat) (bits : Dword) => if s.feature k then 0 else bits
  if u = 9 then ~~~(hide 15 0x300000000 ||| hide 16 0x400000000) else ~~~0

/-- Four bytes of the control aperture; what no register holds, and what is write-only, reads zero. GO of INVCTL, IMGCTL and ATTCTL is RW,
and the spec does not say what it reads as after a 1 was written: here it starts the action and reads 0; DEVID's stepping, for which R327
gives no value, reads 0 (log 76). -/
def State.readReg4 (s : State) (off : Nat) : Word :=
  let d := s.driver
  let low := off / 8 * 8
  let only : Word → Word := fun v => if off % 8 = 0 then v else 0
  let in_ : Nat → Nat → Bool := fun lo hi => decide (lo ≤ off) && decide (off < hi)
  match low with
  | 0x00 => only 0x48120800
  | 0x08 => only (BitVec.ofNat 32 (s.boot.step % 256 + bitOf s.boot.ready * 256 + bitOf s.boot.halted * 512))
  | 0x10 => only (d.localSel.setWidth 32)
  | 0x18 => only (d.domainId.setWidth 32)
  | 0x20 => half d.htime off
  | 0x28 => only (d.retryLim.setWidth 32)
  | 0x30 => only (d.darkThr.setWidth 32)
  | 0x40 => half d.tagBase off
  | 0x48 => half d.landBase off
  | 0x50 => half d.collBase off
  | 0x58 => half d.qdBase off
  | 0x60 => half d.routeBase off
  | 0x20000 => only d.invCtx
  | 0x20008 => half d.invVa off
  | 0x20010 => half d.invLen off
  | 0x20018 => only (BitVec.ofNat 32 (bitOf d.invDone * 2 + bitOf d.invBusy * 4))
  | 0x30000 => half d.frBase off
  | 0x30008 => only (d.frSize.setWidth 32)
  | 0x30010 => only d.frProd
  | 0x30018 => only d.frCons
  | 0x30020 => half d.freplyId off
  | 0x30030 => only (BitVec.ofNat 32 (bitOf d.badId + bitOf d.badSet * 2))
  | 0x50000 => half d.errBase off
  | 0x50008 => only (d.errSize.setWidth 32)
  | 0x50010 => only d.errProd
  | 0x50018 => only d.errCons
  | 0x60000 => half (caps.setWidth 64) off
  | 0x60010 => half (d.featEn.setWidth 64) off
  | 0x60018 => half ((d.featEn >>> 64).setWidth 64) off
  | 0x60020 => only (d.featSt.setWidth 32)
  | 0x60030 => half d.imgBase off
  | 0x60038 => only d.imgLen
  | 0x60040 => only (BitVec.ofNat 32 (bitOf d.imgDone * 2 + bitOf d.imgFail * 4))
  | 0x60048 => only (BitVec.ofNat 32 (bitOf d.attDone * 2 + d.attLen.toNat * 256))
  | 0x60050 => half d.attBuf off
  | _ =>
    if in_ 0x1000 0x1800 then half (d.parts.get 0 ((low - 0x1000) / 8) &&& s.shownPart (low / 8 % 16)) off
    else if in_ 0x10000 0x10200 then half (d.roots.get 0 ((low - 0x10000) / 8)) off
    else if in_ 0x60080 0x600A0 then half (d.attNonce.get 0 ((low - 0x60080) / 8)) off
    else if in_ 0x60100 0x60200 then BitVec.ofNat 32 (leNat (((recordBytes s.boot.record).drop (off - 0x60100)).take 4))
    else if in_ 0x1000000 0x1300000 then
      let k := (off - 0x1000000) / 0x8000
      let at_ := (off - 0x1000000) % 0x8000
      if at_ < 0x800 then BitVec.ofNat 32 (s.viewRead (viewPa + 4096 * (at_ / 32) + 32 * k + at_ % 32) 4)
      else if at_ = 0x800 then BitVec.ofNat 32 (s.slice k).errors
      else if at_ = 0x804 then BitVec.ofNat 32 (bitOf (s.slice k).dark)
      else 0
    else if in_ 0x2000000 0x2040000 then BitVec.ofNat 32 (s.viewRead (viewPa + (off - 0x2000000)) 4)
    else 0

/-- A host read of the control aperture (R326); some registers are cleared by it (R327). -/
def State.driverRead (s : State) (off size : Nat) : State :=
  let v : Dword :=
    if off % size ≠ 0 then 0
    else
      match size with
      | 4 => (s.readReg4 off).setWidth 64
      | 8 => pairOf (s.readReg4 off) (s.readReg4 (off + 4))
      | _ => 0
  if off % 8 = 0 ∧ (size = 4 ∨ size = 8) ∧ 0x2000 ≤ off ∧ off < 0x2000 + 8 * 48 then stateOr (execCorerrRead ((off - 0x2000) / 8) s) s
  else if off % size = 0 ∧ (size = 4 ∨ size = 8) ∧ 0x40000 ≤ off ∧ off < 0x48000 then
    let p := (off - 0x40000) / 8 / 256
    let e := (off - 0x40000) / 8 % 256
    if size = 8 then stateOr (execEnaccRead p e s) s else s.enaccHalf p e (off % 8 == 4)
  else if off = 0x50020 ∧ (size = 4 ∨ size = 8) then stateOr (execErrlostRead s) s
  else { s with hostData := v, hostPoison := false }

/-! ### The host link (R331 to R333, R398, R399) -/

/-- Bytes changed in memory by a party that is not a home's requester. -/
def State.pokeBytes (s : State) (pa : Nat) (bs : List Byte) : State :=
  (bs.foldl (fun (p : State × Nat) b => (p.1.setByte p.2 b, p.2 + 1)) (s, pa)).1

/-- The 64-byte blocks that `n` bytes touch. -/
def blocksOf (pa n : Nat) : List Nat := if n = 0 then [] else (List.range ((pa + n - 1) / 64 - pa / 64 + 1)).map fun i => pa / 64 + i

/-- The blocks that `n` bytes touch hold what the host wrote: words RAW, and a check value formed at the link (R333, R398). -/
def State.enters (s : State) (pa n : Nat) : State :=
  (blocksOf pa n).foldl (fun (s : State) b => (s.setTagsOf (64 * b) 64 0).recheck (64 * b)) s

/-- HOST_WRITE (R333): host memory changes, the host sees its own bytes, and each block touched arrives tagged RAW. -/
def execHostWrite (pa : BitVec 52) (bytes : List Byte) (s : State) : Ans :=
  let a := pa.toNat
  let s' := (s.pokeBytes a bytes).enters a bytes.length
  happens (decide (hostBit ≤ a)) s
    { s' with
      hostView := s'.hostView.filter fun x => !(decide (a ≤ x.1) && decide (x.1 < a + bytes.length))
      hostBad := s'.hostBad.filter fun b => !(blocksOf a bytes.length).contains b }

/-- A byte of its own memory as the host sees it (R332). -/
def State.hostByte (s : State) (pa : Nat) : Byte := (s.hostView.get none pa).getD (s.byte pa)

/-- The host reads its own memory, a block that the link gave it as poisoned among it (R399). -/
def State.hostRead (s : State) (pa n : Nat) : State :=
  if pa < hostBit then s
  else { s with
    hostData := BitVec.ofNat 64 (gather (fun i => s.hostByte (pa + i)) n), hostPoison := (blocksOf pa n).any s.hostBad.contains }

/-- A host write into package memory, merged at the home; its words arrive RAW. -/
def State.linkWrite (s : State) (a : Nat) (bs : List Byte) : State :=
  let s := s.writeMem a bs
  let s := if bs.isEmpty then s else s.setTagsOf a bs.length 0
  (blocksOf a bs.length).foldl (fun (s : State) b => s.recheck (64 * b)) s

/-- A host read of package memory, its check values verified at egress (R399). -/
def State.linkRead (s : State) (a n : Nat) : State :=
  let bad := (blocksOf a n).filter fun b => s.check.get 0 b != 0
  let s' := bad.foldl (fun (s : State) b => s.logError (64 * b) 1 0 2) s
  { s' with
    hostData := BitVec.ofNat 64 (s.readMem a n)
    hostPoison := !bad.isEmpty || (decide (n ≠ 0) && (tagsAt s.tags a n).contains tagPOI) }

/-- HOST_LINK_REQUEST (R331, R398): a read returns up to 8 bytes. -/
def execHostLinkRequest (write : Bool) (pa : BitVec 52) (bytes : List Byte) (s : State) : Ans :=
  let a := pa.toNat
  if hostBit ≤ a then .next s
  else if s.stackDead a then .next (if write then s else { s with hostData := 0, hostPoison := true })
  else .next (if write then s.linkWrite a bytes else s.linkRead a bytes.length)

end Sys2Proof.Machine
end

