-- ==== Sys2Proof/Machine/MatrixIssue.lean ====
section
/-!
DEFINITION. The issue of matrix instructions: the collective checks (R232), those of their operands (R229, R231, R235 to R240), the
unit's queue (R233) and the batches (R241, R245).
-/
namespace Sys2Proof.Machine

/-! ### Collective issue (R232, R233) -/

/-- The state as the group's own matrix operations see it: every earlier one performed (R243). -/
def State.ownView (s : State) : State := s.ownRun s.cur s.grp.matOps.length

/-- Threads in which a matrix instruction executes: its predicate is that which the group's earlier matrix operations leave (R243,
log 68). -/
def State.matActive (s : State) (i : Instr) (w : LaneOps) : List Nat :=
  if s.grp.predPending i then s.ownView.activeBy w.q w.neg
  else s.activeBy w.q w.neg

/-- The checks of R232 after ILLOP. -/
def State.collective (s : State) (i : Instr) (w : LaneOps) : Option (Nat × Dword) :=
  let g := s.grp
  let n := (s.matActive i w).length
  if g.w < 32 then some (cILLWIDTH, BitVec.ofNat 64 g.w)
  else if g.stream.frags.length > 1 || n != s.fragThreads.length then some (cILLCONV, BitVec.ofNat 64 n)
  else none

/-- Frames beyond those of the cast (R223, R339): ILLOP with the first frame. -/
def State.framesTrap (s : State) (i : Instr) : Option Dword :=
  if (frameField i).1 + (frameField i).2 > min 768 (s.recordOf s.grp).frames then some (BitVec.ofNat 64 (frameField i).1) else none

/-- All matrix operations of the groups on a unit that it has not started, by number (R233). -/
def State.unitQueue (s : State) (core unit : Nat) : List MatOp :=
  let ops := (s.residents core).flatMap fun x =>
    if x.2.datapath / 4 = unit then (x.2.batches.flatMap (·.ops)) ++ x.2.openOps else []
  ops.filter fun m => !m.started

/-- Places in a unit's queue (R233). -/
def unitDepth : Nat := 8

/-- The operation with its register rows read as they stand (R229). -/
def State.captureRows (s : State) (m : MatOp) : MatOp :=
  let keys := m.rows.flatMap fun x =>
    (List.range x.2.2).flatMap fun t => (List.range x.2.1).map fun k => (t, x.1 + k)
  { m with
    regs := Table.setAll 0 [] (keys.map fun k => (regKey k.1 k.2, s.rdV k.1 k.2))
    poison := (keys.filter fun k => s.rdTag k.1 k.2 == tagPOI).map fun k => regKey k.1 k.2 }

/-- A register row of the operation waits for an access on its way (R118, R229). -/
def State.rowsAwait (s : State) (m : MatOp) : Bool :=
  s.lateDests.any fun d => m.rows.any fun x => d.1 &&& lowMask x.2.2 != 0 && rangesMeet d.2 (x.1, x.2.1)

/-- A matrix operation joins the open batch, unless its unit's queue is full (R233, R241). -/
def State.issueMatrix (s : State) (i : Instr) : Res :=
  let g := s.grp
  let m : MatOp :=
    { id := s.fresh, instr := i, cap := s.cap, regs := [], poison := [], old := if readsStore i then s.cores else []
      inHandler := g.handler.isSome, started := false, done := false, rivals := [] }
  if (s.unitQueue g.core (g.datapath / 4)).length ≥ unitDepth then s.holdLane .unitFull
  else if s.rowsAwait m then s.holdLane .scoreboard
  else
    let s := s.take.2
    .done (s.setGrp { g with openOps := g.openOps ++ [s.captureRows m] })

/-- A matrix instruction: ILLOP, then R232, then the checks of its operands in R189's order, then its issue. -/
def matrixLane (i : Instr) (w : LaneOps) (s : State) (illop : State → Option Dword)
    (checks : State → List (Nat × Dword)) (go : State → Res) : Ans :=
  issueLane i (fun s => passes s.grp.stream.frag.mask) s fun s =>
    match illop s with
    | some info => .trap cILLOP info s
    | none =>
      match s.collective i w with
      | some (c, info) => .trap c info s
      | none =>
        match firstCause (checks s) with
        | some (c, info) => .trap c info s
        | none => go s

/-! ### MMA and MMAI: the checks of R235 -/

/-- The tile named by an operand field, from the captured pair. -/
def State.tileAt (s : State) (r : VReg) : Tile := tileOf s.grp.core (s.cap.rdS r.toNat) (s.cap.rdS (r.toNat + 1))
def State.tileAtOk (s : State) (r : VReg) (row : Nat) : Bool := tileOk (s.cap.rdS r.toNat) (s.cap.rdS (r.toNat + 1)) row

/-- ILLOP of an operand: a malformed tile, too many rows for the width, or registers beyond N (R229, R231). -/
def State.operandIllop (s : State) (i : Instr) (tile : Bool) (r : VReg) (rows bits : Nat) : Option Dword :=
  if tile then if s.tileAtOk r (bits / 8) then none else some (BitVec.ofNat 64 i.opcode)
  else if rows > s.grp.w then some (BitVec.ofNat 64 i.opcode)
  else s.grp.rangeTrap [(r.toNat, bits / 32)] i

/-- Checks of a scale address (R215, R226): alignment, space, range lock, crossbar error. R187, R215 and R226 do not say which record's
address TRAPINFO names where one beyond the first meets PROT or a range lock: here the records are one access, and the scale address
itself is named (log 76). -/
def State.scaleChecks (s : State) (space core addr len rows k : Nat) : List (Nat × Dword) :=
  if len = 0 then []
  else
    let e := BitVec.ofNat 64 addr
    let size := 4 * rows * (k / len)
    let e' := if space = 3 then BitVec.ofNat 64 (addr % 2 ^ 23) else e
    (if addr % 4 ≠ 0 then [(cMISALIGN, e)] else [])
      ++ (if space = 3 && addr / 2 ^ 23 != 0 then [(cPROT, e)]
          else
            match s.checkSpace { s.grp with core := core } space e' size with
            | .error x => [x]
            | .ok t =>
              (s.checkLock s.grp t size false).toList ++ ((s.aperturePoison s.grp t).map fun i => (cPOISON, i)).toList)

/-- The format block an operation names. -/
def State.blockOf (s : State) (w : LaneOps) : BitVec 512 := s.cap.zs.get 0 (w.fn.toNat % 16)

/-- ILLOP of MMA and MMAI (R214, R215, R223, R229, R231). -/
def State.mmaIllop (s : State) (i : Instr) (integer : Bool) (w : LaneOps) : Option Dword :=
  let z := s.blockOf w
  let f := formatOf z
  let k := LaneOps.extK w
  let op := some (BitVec.ofNat 64 i.opcode)
  let legal := formatOk z
    && (match pairFeature integer f.afmt f.bfmt with
        | some n => s.feature n
        | none => false)
    && ((f.alen == 0 && f.blen == 0) || s.feature 6)
    && (f.alen == 0 || k % f.alen == 0) && (f.blen == 0 || k % f.blen == 0)
  if !legal then op
  else
    (s.framesTrap i).orElse fun _ =>
      (s.operandIllop i (w.fn.getLsbD 7) w.va (LaneOps.extM w) (k * elementBits f.afmt)).orElse fun _ =>
        s.operandIllop i (w.fn.getLsbD 6) w.vb (LaneOps.extN w) (k * elementBits f.bfmt)

/-- Space and core in which an operand's scale records lie (R226). -/
def State.scaleSpace (s : State) (tile : Bool) (r : VReg) : Nat × Nat :=
  if tile then ((s.tileAt r).space, s.grp.core) else (2, s.grp.core)

/-- MISALIGN, PROT and RANGELOCK of MMA and MMAI (R226, R231). -/
def State.mmaChecks (s : State) (w : LaneOps) : List (Nat × Dword) :=
  let f := formatOf (s.blockOf w)
  let k := LaneOps.extK w
  let tiles : Bool → VReg → Nat → Nat → List (Nat × Dword) := fun tile r rows bits =>
    if tile then s.tileChecks (s.tileAt r) rows (bits / 8) false else []
  let scales : Bool → VReg → Nat → Nat → Nat → List (Nat × Dword) := fun tile r addr len rows =>
    s.scaleChecks (s.scaleSpace tile r).1 (s.scaleSpace tile r).2 addr len rows k
  tiles (w.fn.getLsbD 7) w.va (LaneOps.extM w) (k * elementBits f.afmt)
    ++ tiles (w.fn.getLsbD 6) w.vb (LaneOps.extN w) (k * elementBits f.bfmt)
    ++ scales (w.fn.getLsbD 7) w.va f.ascale f.alen (LaneOps.extM w)
    ++ scales (w.fn.getLsbD 6) w.vb f.bscale f.blen (LaneOps.extN w)

/-- MMA (R235). -/
def execMma (w : LaneOps) (s : State) : Ans :=
  matrixLane (.mma w) w s (fun s => s.mmaIllop (.mma w) false w) (fun s => s.mmaChecks w) fun s => s.issueMatrix (.mma w)
/-- MMAI (R235). -/
def execMmai (w : LaneOps) (s : State) : Ans :=
  matrixLane (.mmai w) w s (fun s => s.mmaIllop (.mmai w) true w) (fun s => s.mmaChecks w) fun s => s.issueMatrix (.mmai w)

/-! ### The other operations: checks (R236 to R240) -/

/-- MZERO (R237). -/
def execMzero (w : LaneOps) (s : State) : Ans :=
  matrixLane (.mzero w) w s (fun s => s.framesTrap (.mzero w)) (fun _ => []) fun s => s.issueMatrix (.mzero w)
/-- MFLAGC (R237). -/
def execMflagc (w : LaneOps) (s : State) : Ans :=
  matrixLane (.mflagc w) w s (fun s => s.framesTrap (.mflagc w)) (fun _ => []) fun s => s.issueMatrix (.mflagc w)
/-- MFLAG (R240). -/
def execMflag (w : LaneOps) (s : State) : Ans :=
  matrixLane (.mflag w) w s (fun s => s.framesTrap (.mflag w)) (fun _ => []) fun s => s.issueMatrix (.mflag w)

/-- ILLOP of a frame move: its frames, then the shape of its tile (R231, R236). -/
def State.moveIllop (s : State) (i : Instr) (w : LaneOps) (r : VReg) : Option Dword :=
  (s.framesTrap i).orElse fun _ =>
    if w.fn.getLsbD 7 && !s.tileAtOk r (32 * elemBytes w.type) then some (BitVec.ofNat 64 i.opcode) else none

/-- MLDA (R238). -/
def execMlda (w : LaneOps) (s : State) : Ans :=
  matrixLane (.mlda w) w s (fun s => s.moveIllop (.mlda w) w w.va)
    (fun s => if w.fn.getLsbD 7 then s.tileChecks (s.tileAt w.va) (32 * LaneOps.count w) (32 * elemBytes w.type) false else [])
    fun s => s.issueMatrix (.mlda w)
/-- MSTA (R238): the tile it writes is checked for writes. -/
def execMsta (w : LaneOps) (s : State) : Ans :=
  matrixLane (.msta w) w s (fun s => s.moveIllop (.msta w) w w.vd)
    (fun s => if w.fn.getLsbD 7 then s.tileChecks (s.tileAt w.vd) (32 * LaneOps.count w) (32 * elemBytes w.type) true else [])
    fun s => s.issueMatrix (.msta w)

/-! ### Batches (R241, R245) -/

/-- MFENCE (R241): an empty batch with none outstanding before it completes at once. -/
def execMfence (w : LaneOps) (s : State) : Ans :=
  matrixLane (.mfence w) w s (fun _ => none) (fun _ => []) fun s =>
    let g := s.grp
    if g.batches.any fun b => b.id == g.batchCtr.toNat then s.holdLane .mfence
    else if g.openOps.isEmpty && g.batches.isEmpty then .done (s.setGrp { g with batchCtr := g.batchCtr + 1 })
    else
      .done (s.setGrp { g with
        batches := g.batches ++ [⟨g.batchCtr.toNat, g.openOps⟩], openOps := [], batchCtr := g.batchCtr + 1 })

/-- MWAIT (R245). -/
def execMwait (w : LaneOps) (s : State) : Ans :=
  matrixLane (.mwait w) w s (fun _ => none) (fun _ => []) fun s =>
    if s.grp.batches.any fun b => b.id == w.imm.toNat % 16 then s.holdLane .mwait else .done s
/-- MWAITN (R245). -/
def execMwaitn (w : LaneOps) (s : State) : Ans :=
  matrixLane (.mwaitn w) w s (fun _ => none) (fun _ => []) fun s =>
    if s.grp.batches.length > w.imm.toNat % 16 then s.holdLane .mwait else .done s

end Sys2Proof.Machine
end

