-- ==== Sys2Proof/Machine/Dispatch.lean ====
section
/-!
DEFINITION. The dispatch: one arm for each operation and event of the opcode table.
-/
namespace Sys2Proof.Machine

/-- The effect of one instruction or event. -/
def exec (i : Instr) (s : State) : Host.Outcome State Fault Refusal :=
  match i with
  | .sadd sd sa sb => Sys2Proof.Machine.execSadd sd sa sb s
  | .ssub sd sa sb => Sys2Proof.Machine.execSsub sd sa sb s
  | .smul sd sa sb => Sys2Proof.Machine.execSmul sd sa sb s
  | .smulh sd sa sb => Sys2Proof.Machine.execSmulh sd sa sb s
  | .sdiv sd sa sb => Sys2Proof.Machine.execSdiv sd sa sb s
  | .srem sd sa sb => Sys2Proof.Machine.execSrem sd sa sb s
  | .sand sd sa sb => Sys2Proof.Machine.execSand sd sa sb s
  | .sor sd sa sb => Sys2Proof.Machine.execSor sd sa sb s
  | .sxor sd sa sb => Sys2Proof.Machine.execSxor sd sa sb s
  | .sshl sd sa sb => Sys2Proof.Machine.execSshl sd sa sb s
  | .sshr sd sa sb => Sys2Proof.Machine.execSshr sd sa sb s
  | .ssra sd sa sb => Sys2Proof.Machine.execSsra sd sa sb s
  | .smin sd sa sb => Sys2Proof.Machine.execSmin sd sa sb s
  | .smax sd sa sb => Sys2Proof.Machine.execSmax sd sa sb s
  | .sslt sd sa sb => Sys2Proof.Machine.execSslt sd sa sb s
  | .saddp sd sa sb => Sys2Proof.Machine.execSaddp sd sa sb s
  | .saddi sd sa imm => Sys2Proof.Machine.execSaddi sd sa imm s
  | .sandi sd sa imm => Sys2Proof.Machine.execSandi sd sa imm s
  | .sori sd sa imm => Sys2Proof.Machine.execSori sd sa imm s
  | .sxori sd sa imm => Sys2Proof.Machine.execSxori sd sa imm s
  | .sshli sd sa n => Sys2Proof.Machine.execSshli sd sa n s
  | .sshri sd sa n => Sys2Proof.Machine.execSshri sd sa n s
  | .ssrai sd sa n => Sys2Proof.Machine.execSsrai sd sa n s
  | .sslti sd sa imm => Sys2Proof.Machine.execSslti sd sa imm s
  | .saddpi sd sa imm => Sys2Proof.Machine.execSaddpi sd sa imm s
  | .slui sd imm => Sys2Proof.Machine.execSlui sd imm s
  | .spopc sd sa => Sys2Proof.Machine.execSpopc sd sa s
  | .sclz sd sa => Sys2Proof.Machine.execSclz sd sa s
  | .sbfx sd sa len pos => Sys2Proof.Machine.execSbfx sd sa len pos s
  | .sbfi sd sa len pos => Sys2Proof.Machine.execSbfi sd sa len pos s
  | .ssel sd sa sb sc => Sys2Proof.Machine.execSsel sd sa sb sc s
  | .sld sd base off => Sys2Proof.Machine.execSld sd base off s
  | .sldp sd base off => Sys2Proof.Machine.execSldp sd base off s
  | .sst ss base off => Sys2Proof.Machine.execSst ss base off s
  | .sstp ss base off => Sys2Proof.Machine.execSstp ss base off s
  | .sldaq sd base scope off => Sys2Proof.Machine.execSldaq sd base scope off s
  | .sstrl ss base scope off => Sys2Proof.Machine.execSstrl ss base scope off s
  | .samo sd sa sb op scope => Sys2Proof.Machine.execSamo sd sa sb op scope s
  | .scas sd sa sb scope => Sys2Proof.Machine.execScas sd sa sb scope s
  | .fence scope order => Sys2Proof.Machine.execFence scope order s
  | .racq ss scope => Sys2Proof.Machine.execRacq ss scope s
  | .sbeq sa sb off => Sys2Proof.Machine.execSbeq sa sb off s
  | .sbne sa sb off => Sys2Proof.Machine.execSbne sa sb off s
  | .sblt sa sb off => Sys2Proof.Machine.execSblt sa sb off s
  | .sbge sa sb off => Sys2Proof.Machine.execSbge sa sb off s
  | .sblo sa sb off => Sys2Proof.Machine.execSblo sa sb off s
  | .sbhs sa sb off => Sys2Proof.Machine.execSbhs sa sb off s
  | .sj off => Sys2Proof.Machine.execSj off s
  | .sjal sd off => Sys2Proof.Machine.execSjal sd off s
  | .sjr sd sa imm => Sys2Proof.Machine.execSjr sd sa imm s
  | .sloop sa off => Sys2Proof.Machine.execSloop sa off s
  | .sbg g neg off => Sys2Proof.Machine.execSbg g neg off s
  | .lrun g neg entry => Sys2Proof.Machine.execLrun g neg entry s
  | .lrunr g neg sa => Sys2Proof.Machine.execLrunr g neg sa s
  | .lsync => Sys2Proof.Machine.execLsync s
  | .gnew g => Sys2Proof.Machine.execGnew g s
  | .gsets g neg sa => Sys2Proof.Machine.execGsets g neg sa s
  | .gwait g => Sys2Proof.Machine.execGwait g s
  | .wsplit sd ways => Sys2Proof.Machine.execWsplit sd ways s
  | .wfuse sd sa tag => Sys2Proof.Machine.execWfuse sd sa tag s
  | .wgrow n => Sys2Proof.Machine.execWgrow n s
  | .region index => Sys2Proof.Machine.execRegion index s
  | .sexit => Sys2Proof.Machine.execSexit s
  | .syield => Sys2Proof.Machine.execSyield s
  | .cpy g neg zd zs sa => Sys2Proof.Machine.execCpy g neg zd zs sa s
  | .cpyq g neg zd zs sa => Sys2Proof.Machine.execCpyq g neg zd zs sa s
  | .cpys g neg zd sa => Sys2Proof.Machine.execCpys g neg zd sa s
  | .gath g neg zd zs zi => Sys2Proof.Machine.execGath g neg zd zs zi s
  | .scat g neg zd zs zi => Sys2Proof.Machine.execScat g neg zd zs zi s
  | .mcast g neg zd zs sa => Sys2Proof.Machine.execMcast g neg zd zs sa s
  | .qpush sa scope queue => Sys2Proof.Machine.execQpush sa scope queue s
  | .qpop sd scope queue => Sys2Proof.Machine.execQpop sd scope queue s
  | .qtryPop sd scope queue => Sys2Proof.Machine.execQtryPop sd scope queue s
  | .qtryPush sd sa scope queue => Sys2Proof.Machine.execQtryPush sd sa scope queue s
  | .qtryCount sd queue => Sys2Proof.Machine.execQtryCount sd queue s
  | .qbind sa sb queue => Sys2Proof.Machine.execQbind sa sb queue s
  | .zld z base off => Sys2Proof.Machine.execZld z base off s
  | .zst z base off => Sys2Proof.Machine.execZst z base off s
  | .zset z sa w => Sys2Proof.Machine.execZset z sa w s
  | .zget sd z w => Sys2Proof.Machine.execZget sd z w s
  | .mkset mk sa w => Sys2Proof.Machine.execMkset mk sa w s
  | .mksetPre mk sa => Sys2Proof.Machine.execMksetPre mk sa s
  | .ewait n => Sys2Proof.Machine.execEwait n s
  | .xput g neg zl sa => Sys2Proof.Machine.execXput g neg zl sa s
  | .xget g neg zl sa => Sys2Proof.Machine.execXget g neg zl sa s
  | .xwait sd n => Sys2Proof.Machine.execXwait sd n s
  | .collAred g neg zd zs sa op => Sys2Proof.Machine.execCollAred g neg zd zs sa op s
  | .collAgath g neg zd zs sa => Sys2Proof.Machine.execCollAgath g neg zd zs sa s
  | .collRscat g neg zd zs sa op => Sys2Proof.Machine.execCollRscat g neg zd zs sa op s
  | .cwait sd n => Sys2Proof.Machine.execCwait sd n s
  | .scsrr sd csr => Sys2Proof.Machine.execScsrr sd csr s
  | .scsrw ss csr => Sys2Proof.Machine.execScsrw ss csr s
  | .strap code => Sys2Proof.Machine.execStrap code s
  | .stret => Sys2Proof.Machine.execStret s
  | .snop => Sys2Proof.Machine.execSnop s
  | .sbrk code => Sys2Proof.Machine.execSbrk code s
  | .iadd w => Sys2Proof.Machine.execIadd w s
  | .isub w => Sys2Proof.Machine.execIsub w s
  | .imul w => Sys2Proof.Machine.execImul w s
  | .imulh w => Sys2Proof.Machine.execImulh w s
  | .imad w => Sys2Proof.Machine.execImad w s
  | .imin w => Sys2Proof.Machine.execImin w s
  | .imax w => Sys2Proof.Machine.execImax w s
  | .iabs w => Sys2Proof.Machine.execIabs w s
  | .vand w => Sys2Proof.Machine.execVand w s
  | .vor w => Sys2Proof.Machine.execVor w s
  | .vxor w => Sys2Proof.Machine.execVxor w s
  | .blut w => Sys2Proof.Machine.execBlut w s
  | .shl w => Sys2Proof.Machine.execShl w s
  | .shr w => Sys2Proof.Machine.execShr w s
  | .sra w => Sys2Proof.Machine.execSra w s
  | .rotr w => Sys2Proof.Machine.execRotr w s
  | .popc w => Sys2Proof.Machine.execPopc w s
  | .clz w => Sys2Proof.Machine.execClz w s
  | .brev w => Sys2Proof.Machine.execBrev w s
  | .bfx w => Sys2Proof.Machine.execBfx w s
  | .bfi w => Sys2Proof.Machine.execBfi w s
  | .icmp w => Sys2Proof.Machine.execIcmp w s
  | .sel w => Sys2Proof.Machine.execSel w s
  | .mov w => Sys2Proof.Machine.execMov w s
  | .movi w => Sys2Proof.Machine.execMovi w s
  | .moviLong32 vd q neg imm => Sys2Proof.Machine.execMoviLong32 vd q neg imm s
  | .moviLong64 vd q neg imm => Sys2Proof.Machine.execMoviLong64 vd q neg imm s
  | .sregr w => Sys2Proof.Machine.execSregr w s
  | .fadd w => Sys2Proof.Machine.execFadd w s
  | .fsub w => Sys2Proof.Machine.execFsub w s
  | .fmul w => Sys2Proof.Machine.execFmul w s
  | .ffma w => Sys2Proof.Machine.execFfma w s
  | .fmin w => Sys2Proof.Machine.execFmin w s
  | .fmax w => Sys2Proof.Machine.execFmax w s
  | .fcmp w => Sys2Proof.Machine.execFcmp w s
  | .fdiv w => Sys2Proof.Machine.execFdiv w s
  | .fsqrt w => Sys2Proof.Machine.execFsqrt w s
  | .frcp w => Sys2Proof.Machine.execFrcp w s
  | .frsq w => Sys2Proof.Machine.execFrsq w s
  | .fex2 w => Sys2Proof.Machine.execFex2 w s
  | .flg2 w => Sys2Proof.Machine.execFlg2 w s
  | .fsin w => Sys2Proof.Machine.execFsin w s
  | .fcos w => Sys2Proof.Machine.execFcos w s
  | .fsinpi w => Sys2Proof.Machine.execFsinpi w s
  | .fcospi w => Sys2Proof.Machine.execFcospi w s
  | .ftanh w => Sys2Proof.Machine.execFtanh w s
  | .fclass w => Sys2Proof.Machine.execFclass w s
  | .frnd w => Sys2Proof.Machine.execFrnd w s
  | .cvt w => Sys2Proof.Machine.execCvt w s
  | .pack w => Sys2Proof.Machine.execPack w s
  | .unpack w => Sys2Proof.Machine.execUnpack w s
  | .brm s0 s1 s2 s3 => Sys2Proof.Machine.execBrm s0 s1 s2 s3 s
  | .rcv w => Sys2Proof.Machine.execRcv w s
  | .lend w => Sys2Proof.Machine.execLend w s
  | .gset w => Sys2Proof.Machine.execGset w s
  | .qlop w => Sys2Proof.Machine.execQlop w s
  | .lnop w => Sys2Proof.Machine.execLnop w s
  | .shfl w => Sys2Proof.Machine.execShfl w s
  | .ballot w => Sys2Proof.Machine.execBallot w s
  | .vote w => Sys2Proof.Machine.execVote w s
  | .vmatch w => Sys2Proof.Machine.execVmatch w s
  | .redux w => Sys2Proof.Machine.execRedux w s
  | .psum w => Sys2Proof.Machine.execPsum w s
  | .vtos w => Sys2Proof.Machine.execVtos w s
  | .xchg w => Sys2Proof.Machine.execXchg w s
  | .ld w => Sys2Proof.Machine.execLd w s
  | .st w => Sys2Proof.Machine.execSt w s
  | .ldv w => Sys2Proof.Machine.execLdv w s
  | .stv w => Sys2Proof.Machine.execStv w s
  | .pref w => Sys2Proof.Machine.execPref w s
  | .cwb w => Sys2Proof.Machine.execCwb w s
  | .atom w => Sys2Proof.Machine.execAtom w s
  | .cas w => Sys2Proof.Machine.execCas w s
  | .red w => Sys2Proof.Machine.execRed w s
  | .fatom w => Sys2Proof.Machine.execFatom w s
  | .lres w => Sys2Proof.Machine.execLres w s
  | .scond w => Sys2Proof.Machine.execScond w s
  | .tld w => Sys2Proof.Machine.execTld w s
  | .tst w => Sys2Proof.Machine.execTst w s
  | .tmk w => Sys2Proof.Machine.execTmk w s
  | .tget w => Sys2Proof.Machine.execTget w s
  | .tset w => Sys2Proof.Machine.execTset w s
  | .ttest w => Sys2Proof.Machine.execTtest w s
  | .func w => Sys2Proof.Machine.execFunc w s
  | .deref w => Sys2Proof.Machine.execDeref w s
  | .bind w => Sys2Proof.Machine.execBind w s
  | .unify w => Sys2Proof.Machine.execUnify w s
  | .halloc w => Sys2Proof.Machine.execHalloc w s
  | .choice w => Sys2Proof.Machine.execChoice w s
  | .nextalt w => Sys2Proof.Machine.execNextalt w s
  | .backtrack w => Sys2Proof.Machine.execBacktrack w s
  | .cut w => Sys2Proof.Machine.execCut w s
  | .commit w => Sys2Proof.Machine.execCommit w s
  | .mma w => Sys2Proof.Machine.execMma w s
  | .mmai w => Sys2Proof.Machine.execMmai w s
  | .mzero w => Sys2Proof.Machine.execMzero w s
  | .mlda w => Sys2Proof.Machine.execMlda w s
  | .msta w => Sys2Proof.Machine.execMsta w s
  | .mflag w => Sys2Proof.Machine.execMflag w s
  | .mflagc w => Sys2Proof.Machine.execMflagc w s
  | .mfence w => Sys2Proof.Machine.execMfence w s
  | .mwait w => Sys2Proof.Machine.execMwait w s
  | .mwaitn w => Sys2Proof.Machine.execMwaitn w s
  | .laneBlockStart group => Sys2Proof.Machine.execLaneBlockStart group s
  | .guardedEntryDiscard group queue => Sys2Proof.Machine.execGuardedEntryDiscard group queue s
  | .copyCommandStart group => Sys2Proof.Machine.execCopyCommandStart group s
  | .engineCommandComplete cmd => Sys2Proof.Machine.execEngineCommandComplete cmd s
  | .cpyqPush cmd => Sys2Proof.Machine.execCpyqPush cmd s
  | .mcastDelivery cmd cluster => Sys2Proof.Machine.execMcastDelivery cmd cluster s
  | .mcastComplete cmd => Sys2Proof.Machine.execMcastComplete cmd s
  | .fabricCommandStart group => Sys2Proof.Machine.execFabricCommandStart group s
  | .fabricPacketReceive packet => Sys2Proof.Machine.execFabricPacketReceive packet s
  | .fabricCommandComplete cmd reply => Sys2Proof.Machine.execFabricCommandComplete cmd reply s
  | .collCommandStart group => Sys2Proof.Machine.execCollCommandStart group s
  | .collContributionReceive set seq rank data => Sys2Proof.Machine.execCollContributionReceive set seq rank data s
  | .collInstanceComplete cmd => Sys2Proof.Machine.execCollInstanceComplete cmd s
  | .collAbortReceive set seq nack => Sys2Proof.Machine.execCollAbortReceive set seq nack s
  | .matrixOpStart core unit => Sys2Proof.Machine.execMatrixOpStart core unit s
  | .matrixOpComplete op => Sys2Proof.Machine.execMatrixOpComplete op s
  | .batchComplete group => Sys2Proof.Machine.execBatchComplete group s
  | .l1WriteRequestSend l1 line group => Sys2Proof.Machine.execL1WriteRequestSend l1 line group s
  | .homeWriteMerge slice req => Sys2Proof.Machine.execHomeWriteMerge slice req s
  | .writeAck req => Sys2Proof.Machine.execWriteAck req s
  | .homeRead slice req => Sys2Proof.Machine.execHomeRead slice req s
  | .l1Fill req => Sys2Proof.Machine.execL1Fill req s
  | .visitorFill req => Sys2Proof.Machine.execVisitorFill req s
  | .homeAtomic slice req => Sys2Proof.Machine.execHomeAtomic slice req s
  | .pinRegistration slice req => Sys2Proof.Machine.execPinRegistration slice req s
  | .retryResend req => Sys2Proof.Machine.execRetryResend req s
  | .racqDrainOrder group => Sys2Proof.Machine.execRacqDrainOrder group s
  | .racqDrainReply group => Sys2Proof.Machine.execRacqDrainReply group s
  | .sliceTokenRefill slice => Sys2Proof.Machine.execSliceTokenRefill slice s
  | .sliceRequestService slice => Sys2Proof.Machine.execSliceRequestService slice s
  | .correctedError point unit pa => Sys2Proof.Machine.execCorrectedError point unit pa s
  | .errorCountInterval slice => Sys2Proof.Machine.execErrorCountInterval slice s
  | .uncorrectableError site => Sys2Proof.Machine.execUncorrectableError site s
  | .stackFailure stack => Sys2Proof.Machine.execStackFailure stack s
  | .linkFailure => Sys2Proof.Machine.execLinkFailure s
  | .sectorFailure sector => Sys2Proof.Machine.execSectorFailure sector s
  | .islandFault cluster => Sys2Proof.Machine.execIslandFault cluster s
  | .flitResend port ok => Sys2Proof.Machine.execFlitResend port ok s
  | .fabricComplexFailure => Sys2Proof.Machine.execFabricComplexFailure s
  | .handlerEntryDeferred group => Sys2Proof.Machine.execHandlerEntryDeferred group s
  | .fragmentWatchdog group => Sys2Proof.Machine.execFragmentWatchdog group s
  | .fairnessSwitch group => Sys2Proof.Machine.execFairnessSwitch group s
  | .preemptionRequest group => Sys2Proof.Machine.execPreemptionRequest group s
  | .tenantTimeout group => Sys2Proof.Machine.execTenantTimeout group s
  | .groupRestore group => Sys2Proof.Machine.execGroupRestore group s
  | .castSave launch core => Sys2Proof.Machine.execCastSave launch core s
  | .castRestore launch core => Sys2Proof.Machine.execCastRestore launch core s
  | .wgrowGrant core => Sys2Proof.Machine.execWgrowGrant core s
  | .wgrowDeadlockPreempt core => Sys2Proof.Machine.execWgrowDeadlockPreempt core s
  | .wfuseTimeout group => Sys2Proof.Machine.execWfuseTimeout group s
  | .xchgTimeout group => Sys2Proof.Machine.execXchgTimeout group s
  | .syieldResume group => Sys2Proof.Machine.execSyieldResume group s
  | .schedulerRotation launch => Sys2Proof.Machine.execSchedulerRotation launch s
  | .admissionPreempt queue => Sys2Proof.Machine.execAdmissionPreempt queue s
  | .callboardSlotRelease slot => Sys2Proof.Machine.execCallboardSlotRelease slot s
  | .launchAdmit => Sys2Proof.Machine.execLaunchAdmit s
  | .groupDispatch launch => Sys2Proof.Machine.execGroupDispatch launch s
  | .launchComplete launch => Sys2Proof.Machine.execLaunchComplete launch s
  | .contextTimeSlice partition => Sys2Proof.Machine.execContextTimeSlice partition s
  | .powerLimitUpdate cluster limit move => Sys2Proof.Machine.execPowerLimitUpdate cluster limit move s
  | .fadeStep launch => Sys2Proof.Machine.execFadeStep launch s
  | .energyUpdate meters => Sys2Proof.Machine.execEnergyUpdate meters s
  | .routerPowerDown router => Sys2Proof.Machine.execRouterPowerDown router s
  | .routerWake router => Sys2Proof.Machine.execRouterWake router s
  | .hostWrite pa bytes => Sys2Proof.Machine.execHostWrite pa bytes s
  | .deviceStart failures => Sys2Proof.Machine.execDeviceStart failures s
  | .invalidationDone => Sys2Proof.Machine.execInvalidationDone s
  | .notifyStore queue t => Sys2Proof.Machine.execNotifyStore queue t s
  | .invctlGo => Sys2Proof.Machine.execInvctlGo s
  | .freply verdict => Sys2Proof.Machine.execFreply verdict s
  | .frconsWrite v => Sys2Proof.Machine.execFrconsWrite v s
  | .faultRingConfigWrite size v => Sys2Proof.Machine.execFaultRingConfigWrite size v s
  | .errconsWrite v => Sys2Proof.Machine.execErrconsWrite v s
  | .corerrRead core => Sys2Proof.Machine.execCorerrRead core s
  | .enaccRead partition entry => Sys2Proof.Machine.execEnaccRead partition entry s
  | .errlostRead => Sys2Proof.Machine.execErrlostRead s
  | .imgctlGo => Sys2Proof.Machine.execImgctlGo s
  | .attctlGo => Sys2Proof.Machine.execAttctlGo s
  | .fsrclr => Sys2Proof.Machine.execFsrclr s
  | .featenWrite mask => Sys2Proof.Machine.execFeatenWrite mask s
  | .sliceRateWrite slice context depthReg v => Sys2Proof.Machine.execSliceRateWrite slice context depthReg v s
  | .slwaysWrite slice context v => Sys2Proof.Machine.execSlwaysWrite slice context v s
  | .driverRegisterWrite offset size v => Sys2Proof.Machine.execDriverRegisterWrite offset size v s
  | .hostLinkRequest write pa bytes => Sys2Proof.Machine.execHostLinkRequest write pa bytes s
  | .contextTeardown context => Sys2Proof.Machine.execContextTeardown context s
  | .launchKill launch => Sys2Proof.Machine.execLaunchKill launch s
  | .sliceMoveComplete slice => Sys2Proof.Machine.execSliceMoveComplete slice s
  | .partitionPause partition => Sys2Proof.Machine.execPartitionPause partition s

end Sys2Proof.Machine
end

