-- ==== Sys2Proof/Machine/Turns.lean ====
section
/-!
DEFINITION. Turns of the agenda (log 2): a stream issues, an event takes place, the host reads; and the turn taken while the
agenda is empty.
-/
namespace Sys2Proof.Machine

/-! ### The streams -/

/-- An instruction word that is unassigned or fails its checks (R62): ILLOP with the opcode. -/
def illegalWord (lane : Bool) (bytes : List Byte) : Dword :=
  BitVec.ofNat 64 (leNat (bytes.drop (if lane then 11 else 3)))

/-- The scalar stream of a group issues one instruction (R48, R62, R197); one that names a register held for an earlier instruction
waits (R70). -/
def State.scalarTurn (s : State) (k : Nat) : Ans :=
  let s := { s with cur := k }
  if !s.grp.scalarRuns then .next s
  else
    match s.fetchScalar s.grp with
    | .trap c info => .next (s.trapScalar c info)
    | .park va kind => .next (s.parkGroup va kind aFetch false)
    | .ok bytes =>
      match decodeBytes false bytes with
      | .ok i => if s.scalarLegal i && s.scalarHeld i then .next (s.waitScalar .scoreboard) else exec i s
      | .error _ => .next (s.trapScalar cILLOP (illegalWord false bytes))

/-- The lane stream may issue now: its fragment is ready and has not used its slots while another is ready (R118); while the stream is
held (R126, R190), only what has begun goes on. -/
def State.laneIssues (s : State) : Bool :=
  let l := s.grp.stream
  s.grp.life == .resident && l.running
    && (if s.laneBound then l.frag.issued
        else l.frag.state == .ready && (l.frag.issued || !(decide (l.slots ≥ 256) && l.otherReady)))

/-- The deferred POISON that comes before the next lane instruction (R239): none before an instruction that has begun (R190). -/
def State.poisonFirst (s : State) : Option Nat :=
  let g := s.grp
  if s.laneBound || g.stream.frag.issued || g.xchg.isSome then none else g.poisonDue.head?

/-- The lane stream of a group issues one instruction, a deferred POISON before it (R239). -/
def State.laneTurn (s : State) (k : Nat) : Ans :=
  let s := { s with cur := k }
  if !s.laneIssues then .next s
  else
    match s.poisonFirst with
    | some i => .next ((s.upd fun g => { g with poisonDue := g.poisonDue.drop 1 }).trapLane cPOISON (poisonInfo 4 (BitVec.ofNat 64 i)))
    | none =>
      match s.fetchLane s.grp with
      | .trap c info => .next (s.trapLane c info)
      | .park va kind => .next (s.parkGroup va kind aFetch true)
      | .ok bytes =>
        match decodeBytes true bytes with
        | .ok i => exec i s
        | .error _ => .next (s.trapLane cILLOP (illegalWord true bytes))

/-- The lane stream of a group issues an atomic ahead of the instruction it stands at (R307). -/
def State.aheadTurn (s : State) (k : Nat) : State :=
  let s := { s with cur := k }
  if s.laneIssues then s.leadAtomic else s

/-! ### Caches that act on their own -/

/-- A translation cache takes up an entry of the tables (R323); one it holds already stays. -/
def State.tlbTake (s : State) (ctx page : Nat) : State :=
  if s.tlb.any fun e => e.context == ctx && e.page == page then s
  else
    match s.walk ctx (page * 2 ^ 16) with
    | .ok (pte, big) => { s with tlb := s.tlb ++ [⟨ctx, page, pte, big⟩] }
    | .error _ => s

/-- A cached translation dropped (R323). -/
def State.tlbForget (s : State) (ctx page : Nat) : State :=
  { s with tlb := s.tlb.filter fun e => !(e.context == ctx && e.page == page) }

/-- An L1 evicts a line (R286): a pinned one leaves by its unpinning request, counted on the first group of the L1; unsent
bytes leave; a clean line goes. -/
def State.evictLine (s : State) (k line : Nat) : State :=
  let l := s.l1 k
  match l.lines.get none line with
  | none => s
  | some x =>
    if x.pinned then
      match s.groups.find? fun g => g.2.life == .resident && s.l1Of g.2.core == k with
      | some g => s.unpin k line g.1
      | none => s
    else if !x.unsent.isEmpty then s.sendLine k line
    else if x.dirty = 0 ∧ x.tagDirty = 0 then s.setL1 k { l with lines := l.lines.set none line none }
    else s

/-! ### One turn -/

/-- A turn taken. -/
def runTurn (t : Turn) (s : State) : Ans :=
  match t with
  | .scalar k => s.scalarTurn k
  | .lane k => s.laneTurn k
  | .event i => if i.isLane || i.isScalar then .fault .badTurn else exec i s
  | .tlbFill ctx page => .next (s.tlbTake ctx page)
  | .tlbDrop ctx page => .next (s.tlbForget ctx page)
  | .evict k line => .next (s.evictLine k line)
  | .driverRead off size => .next (s.driverRead off size)
  | .ahead k => .next (s.aheadTurn k)
  | .access k id => .next (s.runAccess k id)
  | .merge id other => .next (s.mergeReqs id other)
  | .hostDeliver block => .next (s.showHost block)
  | .hostRead pa size => .next (s.hostRead pa size)
  | .resume p floor => .next (s.resumePartition p floor)
  | .tick ns => .next (s.passTime ns)
  | .engineMove cmd cluster => .next ((s.moveElement cmd).moveDelivery cmd cluster)
  | .idle => .next s

/-! ### The step of an empty agenda (log 2) -/

/-- What a request waits for. -/
def reqEvents (rr : Nat) (x : Nat × Req) : List (State → Ans) :=
  match x.2.stage with
  | .waiting => [execSliceRequestService x.2.slice, execSliceTokenRefill x.2.slice]
  | .granted =>
    match x.2.kind with
    | .read => [execHomeRead x.2.slice x.1]
    | .prefetch => [execHomeRead x.2.slice x.1]
    | .write _ _ _ _ _ => [execHomeWriteMerge x.2.slice x.1]
    | .pin => [execPinRegistration x.2.slice x.1]
    | .atomic _ => [execHomeAtomic x.2.slice x.1]
  | .replied => if x.2.kind = .read then [execL1Fill x.1] else [execWriteAck x.1]
  | .refused => if rr % 64 = 0 then [execRetryResend x.1] else []

/-- Write requests that unsent bytes are due. -/
def State.sendEvents (s : State) : List (State → Ans) :=
  s.l1s.flatMap fun k => k.2.lines.flatMap fun x =>
    match x.2 with
    | some y => y.unsent.map fun u => execL1WriteRequestSend k.1 x.1 u.1
    | none => []

/-- Events of a group. -/
def groupEvents (x : Nat × Group) : List (State → Ans) :=
  let k := x.1
  (if x.2.preempt.isSome then [execPreemptionRequest k] else []) ++
    (x.2.accesses.map fun a => fun s => .next (s.runAccess k a.id)) ++
    [execHandlerEntryDeferred k, execFragmentWatchdog k, execBatchComplete k, execGuardedEntryDiscard k .lane
     , execGuardedEntryDiscard k .copy, execGuardedEntryDiscard k .fabric, execLaneBlockStart k, execCopyCommandStart k
     , execFabricCommandStart k, execCollCommandStart k, execFairnessSwitch k, execRacqDrainOrder k, execRacqDrainReply k
     , execSyieldResume k, execGroupRestore k]

/-- Matrix events of a unit that has work. -/
def State.matrixEvents (s : State) : List (State → Ans) :=
  (List.range 48).flatMap fun n => (List.range 4).flatMap fun u =>
    (s.unitOps n u).map fun x => if x.2.started then execMatrixOpComplete x.2.id else execMatrixOpStart n u

/-- Events of commands that have left their queues; what another package answers comes from the agenda alone. -/
def State.commandEvents (s : State) : List (State → Ans) :=
  (s.copyList.flatMap fun x =>
    [execEngineCommandComplete x.1, execCpyqPush x.1, execMcastComplete x.1] ++ (List.range 12).map fun c => execMcastDelivery x.1 c)
  ++ (s.fabList.flatMap fun x =>
    if x.2.target.toNat % 4096 = s.driver.domainId.toNat then [execFabricCommandComplete x.1 ⟨0, [], []⟩] else [])
  ++ s.collCmds.flatMap fun x =>
    match x.2 with
    | some c =>
      [execCollInstanceComplete x.1, execCollContributionReceive c.setIndex c.seq (s.collSet c.setIndex).rank ⟨[], []⟩]
    | none => []

/-- A slot without a queue, or with one that has no record. -/
def State.slotOpen (s : State) (slot : Nat) : Bool := (s.slots.get none slot).all fun q => (s.workQueue q).idle

/-- An update of the energy counts with meters that read anything (R356, log 18). -/
def State.freeUpdate (s : State) : Ans :=
  let v := fun i => (Config.freeWord (s.free + i)).toNat
  execEnergyUpdate ⟨(List.range 12).map fun c => (c, v c), v 12, v 13⟩ { s with free := s.free + 14 }

/-- Events of launches, cores and the callboard. -/
def State.launchEvents (s : State) : List (State → Ans) :=
  (s.launchList.flatMap fun x =>
    [execLaunchComplete x.1, execGroupDispatch x.1] ++ (x.2.casts.map fun c => execCastRestore x.1 c.core)
      ++ if x.2.due && !s.metered x.1 x.2 then [State.freeUpdate] else [])
  ++ ((List.range 48).flatMap fun n =>
    if (s.core n).growers.isEmpty then [] else [execWgrowGrant n, execWgrowDeadlockPreempt n])
  ++ (if s.pendingQueues.isEmpty then [] else ((List.range 32).filter s.slotOpen).map execCallboardSlotRelease)
  ++ [execLaunchAdmit, execInvalidationDone]
  ++ s.slices.map fun x => execSliceMoveComplete x.1

/-- The oldest device writes that the host does not see yet become visible to it. -/
def State.showEvents (s : State) : List (State → Ans) :=
  (s.hostView.head?.map fun x => fun s => Host.Outcome.next (s.showHost (x.1 / 64))).toList

/-- The events that may be due. -/
def State.candidates (s : State) : List (State → Ans) :=
  (s.reqList.flatMap (reqEvents s.rr)) ++ s.sendEvents ++ s.groups.flatMap groupEvents ++ s.matrixEvents
    ++ s.commandEvents ++ s.launchEvents ++ s.showEvents

/-- Events that time brings, and the scheduler's changes of what is resident. -/
def State.timedEvents (s : State) : List (State → Ans) :=
  (s.reqList.map fun x => execRetryResend x.1)
  ++ (s.launchList.flatMap fun x =>
    (if x.2.fade.phase = 0 then [] else [execFadeStep x.1]) ++ [execSchedulerRotation x.1])
  ++ (s.slots.filterMap fun x => x.2.map execAdmissionPreempt)
  ++ (s.groups.flatMap fun x =>
    (if x.2.xchg.isSome then [execXchgTimeout x.1] else []) ++ (if x.2.fuse.isSome then [execWfuseTimeout x.1] else [])
      ++ if x.2.preempt.isSome then [execTenantTimeout x.1] else [])
  ++ (if s.pendingQueues.isEmpty then [] else (List.range 32).map execCallboardSlotRelease)
  ++ (List.range 16).map execContextTimeSlice

/-- An answer that changes the state. -/
def changes (s : State) (a : Ans) : Bool :=
  match a with
  | .next t => !decide (t = s)
  | _ => true

/-- The first event that would change the state now; every fourth pair of turns starts elsewhere in the list, so that no event waits
for ever behind others. -/
def State.firstEvent (s : State) : Option (State → Ans) :=
  let xs := s.candidates
  let k := if s.rr % 8 < 2 then s.rr / 8 % xs.length else 0
  (xs.drop k ++ xs.take k).find? fun f => changes s (f s)

/-- The first timed event that would change the state now. -/
def State.firstTimed (s : State) : Option (State → Ans) := s.timedEvents.find? fun f => changes s (f s)

/-- The streams that may issue. -/
def State.streams (s : State) : List (State → Ans) :=
  s.groups.flatMap fun x =>
    (if x.2.scalarRuns then [fun s => s.scalarTurn x.1] else []) ++ if { s with cur := x.1 }.laneIssues then [fun s => s.laneTurn x.1] else []

/-- The first stream, counted from the turn's own, whose issue changes the state now. -/
def State.firstStream (s : State) : Option (State → Ans) :=
  let xs := s.streams
  let k := s.rr / 2 % xs.length
  (xs.drop k ++ xs.take k).find? fun f => changes s (f s)

/-- The step taken while the agenda is empty: the start while the package has not started, then events that are due and
streams that may issue, by turns; an event that time brings comes now and then, and where nothing else can move. -/
def State.defaultStep (s : State) : Ans :=
  let s' := { s with rr := s.rr + 1 }
  if s.boot.step = 0 then execDeviceStart [] s'
  else if s.boot.halted then .next s'
  else
    let timed := fun (_ : Unit) => s.firstTimed
    let event := fun (_ : Unit) => s.firstEvent
    let stream := fun (_ : Unit) => s.firstStream
    let other := fun (_ : Unit) => if s.rr % 2 = 0 then (event ()).orElse stream else (stream ()).orElse event
    match (if s.rr % 1024 = 1023 then (timed ()).orElse other else (other ()).orElse timed) with
    | some f => f s'
    | none => .next s'

/-! ### A first program (log 15) -/

/-- Where a placed instruction stands: its virtual and physical address. -/
def firstPc : Nat := 0x100000

/-- The launch a placed instruction belongs to. -/
def firstLaunch : Launch :=
  { launchId := 0
    record := { LaunchRecord.none with
      scode := BitVec.ofNat 64 firstPc, lcode := BitVec.ofNat 64 firstPc, slen := 1, llen := 1, width := 8, n := 16, sarea := 8
      rarea := 8, cscr := 8, udepth := 8 }
    queue := 0, context := 0, partition := 0
    casts := [{ core := 0, castId := 0, companyId := 0, scratch := 0, scratchSize := 524288, frame := 0, saved := none }]
    todo := [], requeued := [], behind := [], left := 1, fade := ⟨0, 0, []⟩, energy := 0, order := 0, ending := none, started := true
    filler := [], served := 0, cycles := 0 }

/-- Its group: the scalar stream stands at the instruction, or the lane stream does. -/
def firstGroup (lane : Bool) : Group :=
  { Group.start with
    w := 8, n := 16, area := 2048, origin := [(0, 0, 8)], pc := BitVec.ofNat 64 firstPc
    lane := if lane then .start 8 (BitVec.ofNat 64 firstPc) .none else .idle 8 }

/-- The package ready, with one resident group that is about to issue from `firstPc`, whose page a translation cache maps. -/
def State.withGroup (s : State) (lane : Bool) : State :=
  let s := { s with
    boot := { s.boot with step := 12, ready := true }, driver := { s.driver with featEn := 0x3BFFF }
    launches := s.launches.set none 0 (some firstLaunch), groups := s.groups.set Group.start 0 (firstGroup lane)
    tlb := ⟨0, firstPc / 2 ^ 16, BitVec.ofNat 64 (firstPc + 0xA7), false⟩ :: s.tlb, cur := 0
    agenda := [if lane then .lane 0 else .scalar 0] }
  s.setCore 0 { s.core 0 with partition := some (8, 8) }

/-- The bytes of an instruction stored at `firstPc`. -/
def State.placeWord (s : State) (n w : Nat) : State := s.pokeBytes firstPc (leBytes n w)

end Sys2Proof.Machine
end

