-- ==== Sys2Proof/Machine/Step.lean ====
section
/-!
DEFINITION. One step of the package: one turn (log 2), and the placing of a first instruction (log 15).
-/
namespace Sys2Proof.Machine

/-- One step: the agenda's next turn, or the one of an empty agenda. -/
def step (s : State) : Host.Outcome State Fault Refusal :=
  match s.agenda with
  | t :: ts => runTurn t { s with agenda := ts }
  | [] => s.defaultStep

/-- The instruction of the opcode table's bits stored where the next step fetches it, in the stream its length names. -/
def State.withFetchWord (s : State) (nbits w : Nat) : State :=
  (s.withGroup (decide (nbits > 32))).placeWord (if nbits > 32 then 12 else 4) (w % 2 ^ nbits)

end Sys2Proof.Machine
end

