-- ==== Sys2Proof/Safety.lean ====
section
/-!
DEFINITION. The terms of claims: a run that goes on, what an instruction may change, when a lane instruction passes its
checks, and the invariant of memory.
-/
namespace Sys2Proof.Machine

/-! ### Runs -/

/-- The machine goes on: neither a fault nor a refusal. -/
def Runs (a : Ans) : Prop := ∃ t, a = .next t

/-- The state an outcome of an instruction's effect carries. -/
def Res.state : Res → State
  | .done s => s
  | .jump s => s
  | .stay s => s
  | .trap _ _ s => s
  | .park _ _ _ s => s

/-! ### Frames -/

/-- Nothing but the executing group differs: no other group, no byte of memory, no core, register or engine of the package. -/
def OnlyGroup (s t : State) : Prop := t = s.setGrp t.grp

/-- The same memory: every byte, every word's tag, every check value. -/
def SameMemory (s t : State) : Prop := t.mem = s.mem ∧ t.tags = s.tags ∧ t.check = s.check

/-- A group apart from its scalar registers, its PC, its wait and the model's counts of what it has issued (R65, R356), and in handler mode
from the handler's scalar registers. -/
def ScalarFrame (g h : Group) : Prop :=
  { h with scalars := g.scalars, handler := g.handler, pc := g.pc, waitS := g.waitS, work := g.work } = g
    ∧ h.handler.map (fun x => { x with scalars := [] }) = g.handler.map (fun x => { x with scalars := [] })

/-! ### Lane instructions -/

/-- A lane instruction passes its encoding, feature and register checks (R33, R62, R395) and no matrix result holds its
registers (R244). -/
def State.Issues (s : State) (i : Instr) : Prop := s.laneIllegal i = none ∧ s.scoreboard i = none

/-- No active thread reads a poisoned register (R204). -/
def State.Clean (s : State) (w : LaneOps) (i : Instr) : Prop := s.firstPoison (s.active w) i.sources = none

/-- What an instruction writes: in each thread that receives a result, that of the active thread it comes from (R31). -/
def State.results (s : State) (w : LaneOps) (f : Nat → Out) : List (Nat × Out) :=
  (s.active w).flatMap fun t => (s.receivers w t).map fun r => (r, f t)

/-- The machine after results have been written and the fragment has passed the instruction. -/
def State.wrote (s : State) (w : LaneOps) (f : Nat → Out) : State :=
  (s.putAll w.vd (s.results w f)).passLane (laneSlots w s)

/-- An exact integer in `n` bits, wrapped or clamped (R98). -/
def narrow (n : Nat) (isSigned sat : Bool) (x : Int) : BitVec n := if sat then clampInt n isSigned x else BitVec.ofInt n x

/-- A result of R97's widths from two sources, the second of which may be the immediate. -/
def State.int2 (s : State) (w : LaneOps) (f : (n : Nat) → BitVec n → BitVec n → BitVec n) (t : Nat) : Out :=
  if wideType w.type then .w64 (f 64 (s.a64 w t) (s.bi64 w t)) else .w32 (f 32 (s.a32 w t) (s.bi32 w t))

/-- A result from one source. -/
def State.int1 (s : State) (w : LaneOps) (f : (n : Nat) → BitVec n → BitVec n) (t : Nat) : Out :=
  if wideType w.type then .w64 (f 64 (s.a64 w t)) else .w32 (f 32 (s.a32 w t))

/-- A result from three registers. -/
def State.int3 (s : State) (w : LaneOps) (f : (n : Nat) → BitVec n → BitVec n → BitVec n → BitVec n) (t : Nat) : Out :=
  if wideType w.type then .w64 (f 64 (s.a64 w t) (s.b64 w t) (s.c64 w t))
  else .w32 (f 32 (s.a32 w t) (s.b32 w t) (s.c32 w t))

/-- The elements of a register, the lowest first (R115, R116). -/
def elements (x : Word) (type : BitVec 4) : List Nat :=
  (List.range (32 / typeBits type)).map fun i => elementAt x.toNat (typeBits type) i

/-- Elements of `n` bits side by side, the first in the lowest bits. -/
def sideBySide (n : Nat) : List Nat → Nat
  | [] => 0
  | x :: xs => x + 2 ^ n * sideBySide n xs

/-- Registers an output takes from its destination on. -/
def Out.size : Out → Nat
  | .w32 _ => 1
  | .w64 _ => 2
  | .tw _ => 2
  | .words vs => vs.length
  | .bit _ => 0
  | .keep => 0

/-! ### Memory -/

/-- A GLOBAL access of `n` bytes at `e` by the executing group passes its checks and reaches address `pa` of memory, whole in one line:
aligned, canonical, under no lock (R187), mapped for the access (R321 to R324), no VIEW page, the L1 not sweeping (R284), no late
atomic of the group on its way to the line (R306). -/
structure State.Reaches (s : State) (e : Dword) (n access pa : Nat) (tagged : Bool) : Prop where
  aligned : e.toNat % n = 0
  canonical : canonical e = true
  unlocked : (s.core s.grp.core).lockHit 0 (s.contextOf s.grp) (e.toNat % 2 ^ 57) n (access != aRead) = none
  mapped : s.xlate s.grp e access = .ok pa tagged
  memory : isView pa = false
  whole : pa % 128 + n ≤ 128
  awake : (s.l1 (s.l1Of s.grp.core)).sweeping = false
  free : s.lateOn s.grp (pa / 128) = false

/-- The L1 of the executing group holds line `x` at `pa` with `n` bytes that a load may take now (R279, R283), none of them of a word
tagged POI (R204). -/
structure State.Holds (s : State) (pa n : Nat) (x : Line) : Prop where
  line : (s.l1 (s.l1Of s.grp.core)).lines.get none (pa / 128) = some x
  bytes : ∀ i, pa % 128 ≤ i → i < pa % 128 + n →
    ((s.l1 (s.l1Of s.grp.core)).readable (decide (s.l1Of s.grp.core ≥ 48)) x).getLsbD i = true
  tags : ∀ i, pa % 128 / 8 ≤ i → i ≤ (pa % 128 + n - 1) / 8 →
    ((s.l1 (s.l1Of s.grp.core)).knownTags (decide (s.l1Of s.grp.core ≥ 48)) x).getLsbD i = true
      ∧ BitVec.ofNat 4 (x.tags.toNat / 2 ^ (4 * i)) ≠ tagPOI

/-- Memory's bytes and tags stand in their canonical form. -/
def State.MemoryOk (s : State) : Prop := Memory.wf s.mem ∧ s.tags.wf (0 : Tag) = true

end Sys2Proof.Machine
end

