-- ==== Sys2Proof/Certificates/Slice0/Obligations.lean ====
section
/-!
DEFINITION. Statements about the machine, from the numbered rules of the spec.
-/
section
open Sys2Proof Sys2Proof.Machine

/-! ### Scalar results (R27, R28, R52, R74, R75) -/

/-- What a scalar register result changes (R27): the destination, unless it is s0; the PC, by 4; the
wait. Every other
register, flag and special register of the group, every other group and every byte of memory stays. -/
def Obligations.ScalarResultFrame : Prop :=
  ∀ (s : State) (sd : SReg) (v : Word),
    let t := s.resultS sd v
    OnlyGroup s t ∧ SameMemory s t ∧ ScalarFrame s.grp t.grp ∧ t.grp.pc = s.grp.nextPc
      ∧ (∀ r, t.grp.rdS r = if r = sd.toNat ∧ r ≠ 0 then v else s.grp.rdS r)
      ∧ (∀ a, t.byte a = s.byte a)

/-- What a scalar pair result changes (R28): the even register takes the low half, the next one the high half; on s0:s1 the
low half is discarded. Everything else stays. -/
def Obligations.ScalarPairResultFrame : Prop :=
  ∀ (s : State) (sd : SReg) (v : Dword), evenReg sd = true →
    let t := s.resultPair sd v
    OnlyGroup s t ∧ SameMemory s t ∧ ScalarFrame s.grp t.grp ∧ t.grp.pc = s.grp.nextPc
      ∧ (∀ r, t.grp.rdS r = if r = sd.toNat + 1 then hiHalf v else if r = sd.toNat ∧ r ≠ 0 then loHalf v else s.grp.rdS r)
      ∧ (∀ a, t.byte a = s.byte a)

/-- The two-register integer instructions of R74, over the integers: each completes with its result for every state and every
choice of registers. -/
def Obligations.ScalarRegisterArithmetic : Prop :=
  ∀ (s : State) (sd sa sb : SReg),
    let a := s.sreg sa
    let b := s.sreg sb
    let gives := fun (i : Instr) (v : Word) => exec i s = .next (s.resultS sd v)
    gives (.sadd sd sa sb) (BitVec.ofInt 32 (a.toInt + b.toInt))
      ∧ gives (.ssub sd sa sb) (BitVec.ofInt 32 (a.toInt - b.toInt))
      ∧ gives (.smul sd sa sb) (BitVec.ofInt 32 (a.toInt * b.toInt))
      ∧ gives (.smulh sd sa sb) (BitVec.ofInt 32 (a.toInt * b.toInt / 2 ^ 32))
      ∧ gives (.sdiv sd sa sb) (if b = 0 then 0xFFFFFFFF else BitVec.ofInt 32 (a.toInt.tdiv b.toInt))
      ∧ gives (.srem sd sa sb) (if b = 0 then a else BitVec.ofInt 32 (a.toInt.tmod b.toInt))
      ∧ gives (.sand sd sa sb) (a &&& b) ∧ gives (.sor sd sa sb) (a ||| b) ∧ gives (.sxor sd sa sb) (a ^^^ b)
      ∧ gives (.sshl sd sa sb) (BitVec.ofNat 32 (a.toNat * 2 ^ (b.toNat % 32)))
      ∧ gives (.sshr sd sa sb) (BitVec.ofNat 32 (a.toNat / 2 ^ (b.toNat % 32)))
      ∧ gives (.ssra sd sa sb) (BitVec.ofInt 32 (a.toInt / 2 ^ (b.toNat % 32)))
      ∧ gives (.smin sd sa sb) (BitVec.ofInt 32 (min a.toInt b.toInt))
      ∧ gives (.smax sd sa sb) (BitVec.ofInt 32 (max a.toInt b.toInt))
      ∧ gives (.sslt sd sa sb) (if a.toInt < b.toInt then 1 else 0)

/-- The immediate, counting, field and select instructions of R52 and R74, and the pair additions of R75. A field that does
not fit in the register is ILLOP; so is an odd register in a pair (R28). SADDP and SADDPI add to a 64-bit pair (R75); both
registers must be even (R28). -/
def Obligations.ScalarImmediateArithmetic : Prop :=
  (∀ (s : State) (sd sa sb sc : SReg) (imm : BitVec 12) (imm18 : BitVec 18) (n len pos : BitVec 5),
      let a := s.sreg sa
      let k : Word := imm.signExtend 32
      let gives := fun (i : Instr) (v : Word) => exec i s = .next (s.resultS sd v)
      gives (.saddi sd sa imm) (BitVec.ofInt 32 (a.toInt + imm.toInt))
        ∧ gives (.sandi sd sa imm) (a &&& k) ∧ gives (.sori sd sa imm) (a ||| k) ∧ gives (.sxori sd sa imm) (a ^^^ k)
        ∧ gives (.sslti sd sa imm) (if a.toInt < imm.toInt then 1 else 0)
        ∧ gives (.sshli sd sa n) (BitVec.ofNat 32 (a.toNat * 2 ^ n.toNat))
        ∧ gives (.sshri sd sa n) (BitVec.ofNat 32 (a.toNat / 2 ^ n.toNat))
        ∧ gives (.ssrai sd sa n) (BitVec.ofInt 32 (a.toInt / 2 ^ n.toNat))
        ∧ gives (.slui sd imm18) (BitVec.ofNat 32 ((s.sreg sd).toNat * 2 ^ 18 + imm18.toNat))
        ∧ gives (.spopc sd sa) (BitVec.ofNat 32 ((List.range 32).countP fun i => a.getLsbD i))
        ∧ (∃ v, gives (.sclz sd sa) (BitVec.ofNat 32 v) ∧ v ≤ 32 ∧ (∀ i, 32 - v ≤ i → a.getLsbD i = false)
            ∧ (v < 32 → a.getLsbD (31 - v) = true))
        ∧ (pos.toNat + len.toNat + 1 ≤ 32 →
            (∃ v, gives (.sbfx sd sa len pos) v
              ∧ ∀ i, v.getLsbD i = (decide (i ≤ len.toNat) && a.getLsbD (pos.toNat + i)))
            ∧ (∃ v, gives (.sbfi sd sa len pos) v
              ∧ ∀ i < 32, v.getLsbD i = if pos.toNat ≤ i ∧ i ≤ pos.toNat + len.toNat then a.getLsbD (i - pos.toNat)
                  else (s.sreg sd).getLsbD i))
        ∧ (32 < pos.toNat + len.toNat + 1 →
            exec (.sbfx sd sa len pos) s = .next (s.trapScalar cILLOP 0x1C)
              ∧ exec (.sbfi sd sa len pos) s = .next (s.trapScalar cILLOP 0x1D))
        ∧ gives (.ssel sd sa sb sc) (if s.sreg sc ≠ 0 then a else s.sreg sb))
  ∧ (∀ (s : State) (sd sa sb : SReg) (imm : BitVec 12),
      if evenReg sd && evenReg sa then
        exec (.saddp sd sa sb) s = .next (s.resultPair sd (BitVec.ofInt 64 ((s.spair sa).toInt + (s.sreg sb).toInt)))
          ∧ exec (.saddpi sd sa imm) s = .next (s.resultPair sd (BitVec.ofInt 64 ((s.spair sa).toInt + imm.toInt)))
      else
        exec (.saddp sd sa sb) s = .next (s.trapScalar cILLOP 0x0F)
          ∧ exec (.saddpi sd sa imm) s = .next (s.trapScalar cILLOP 0x18))

/-! ### Control transfer (R82) -/

/-- Every branch, jump and loop goes where R82 says. SLOOP naming s0, SBG with g0 and negate 1, and an odd link or target
pair are ILLOP (R28); SBG waits while its slot is pending. -/
def Obligations.ControlTransfer : Prop :=
  ∀ (s : State) (sa sb sd : SReg) (off imm : BitVec 12) (off24 : BitVec 24) (off18 : BitVec 18) (g : Slot) (neg : Bool),
    let a := s.sreg sa
    let b := s.sreg sb
    let pc := s.grp.pc
    let goes := fun (c : Bool) => s.upd fun x => if c then x.goto (pc + sext off * 4) else x.advance
    exec (.sbeq sa sb off) s = .next (goes (decide (a = b)))
      ∧ exec (.sbne sa sb off) s = .next (goes (decide (a ≠ b)))
      ∧ exec (.sblt sa sb off) s = .next (goes (decide (a.toInt < b.toInt)))
      ∧ exec (.sbge sa sb off) s = .next (goes (decide (b.toInt ≤ a.toInt)))
      ∧ exec (.sblo sa sb off) s = .next (goes (decide (a.toNat < b.toNat)))
      ∧ exec (.sbhs sa sb off) s = .next (goes (decide (b.toNat ≤ a.toNat)))
      ∧ exec (.sj off24) s = .next (s.upd fun x => x.goto (pc + sext off24 * 4))
      ∧ (evenReg sd = true → exec (.sjal sd off18) s =
          .next (s.upd fun x => (if sd = 0 then x else x.wrPair sd.toNat (pc + 4)).goto (pc + sext off18 * 4)))
      ∧ (evenReg sd = true → evenReg sa = true → exec (.sjr sd sa imm) s =
          .next (s.upd fun x => (if sd = 0 then x else x.wrPair sd.toNat (pc + 4)).goto (s.spair sa + sext imm * 4)))
      ∧ (evenReg sd = false → exec (.sjal sd off18) s = .next (s.trapScalar cILLOP 0x37))
      ∧ (evenReg sd = false ∨ evenReg sa = false → exec (.sjr sd sa imm) s = .next (s.trapScalar cILLOP 0x38))
      ∧ (sa ≠ 0 → exec (.sloop sa off) s =
          .next ((s.upd fun x => x.wrS sa.toNat (a - 1)).upd fun x =>
            if a - 1 ≠ 0 then x.goto (pc + sext off * 4) else x.advance))
      ∧ exec (.sloop 0 off) s = .next (s.trapScalar cILLOP 0x39)
      ∧ (∀ v, s.grp.guard g = .resolved v → ¬(g = 0 ∧ neg = true) → exec (.sbg g neg off) s = .next (goes (v != neg)))
      ∧ (s.grp.guard g = .pending → exec (.sbg g neg off) s = .next (s.waitScalar .guard))
      ∧ exec (.sbg 0 true off) s = .next (s.trapScalar cILLOP 0x3A)

/-! ### Guard slots, lane blocks and waits of the scalar stream (R63, R69, R71 to R73, R83, R86, R192) -/

/-- GNEW makes a resolved slot pending, GSETS resolves a slot to (sa ≠ 0) XOR negate, GWAIT continues once its slot is
resolved and waits before; naming g0 in GNEW or GSETS is ILLOP (R72). The resolution of a slot reaches every entry bound to
it once, whichever queue holds it: each of the three queues holds the same entries in the same order with every guard decided, and an
entry that has taken its value keeps it (R73). -/
def Obligations.GuardSlots : Prop :=
  (∀ (s : State) (g : Slot) (neg : Bool) (sa : SReg),
      (g ≠ 0 →
        (∃ t, exec (.gnew g) s = .next t ∧ OnlyGroup s t ∧ t.grp.guard g = .pending ∧ t.grp.pc = s.grp.nextPc
          ∧ ∀ k, k ≠ g → t.grp.guard k = s.grp.guard k)
        ∧ (∃ t, exec (.gsets g neg sa) s = .next t ∧ OnlyGroup s t ∧ t.grp.guard g = .resolved ((s.sreg sa != 0) != neg)
          ∧ t.grp.pc = s.grp.nextPc ∧ ∀ k, k ≠ g → t.grp.guard k = s.grp.guard k))
        ∧ exec (.gnew 0) s = .next (s.trapScalar cILLOP 0x43)
        ∧ exec (.gsets 0 neg sa) s = .next (s.trapScalar cILLOP 0x44)
        ∧ (∀ v, s.grp.guard g = .resolved v → exec (.gwait g) s = .next (s.upd Group.advance))
        ∧ (s.grp.guard g = .pending → exec (.gwait g) s = .next (s.waitScalar .guard)))
  ∧ (∀ (x : Group) (g : Slot) (v : Bool),
      let y := x.resolve g v
      let taken := fun (d e : EntryGuard) =>
        (∀ neg, d = .bound g.toNat neg → e = .decided (v != neg)) ∧ (∀ k neg, d = .bound k neg → k ≠ g.toNat → e = d)
          ∧ ∀ run, d = .decided run → e = d
      y.laneQ.length = x.laneQ.length ∧ y.copyQ.length = x.copyQ.length ∧ y.fabQ.length = x.fabQ.length
        ∧ (∀ (i : Nat) (d : LaneEntry), x.laneQ[i]? = some d →
            ∃ e, y.laneQ[i]? = some e ∧ taken d.guard e.guard ∧ e = { d with guard := e.guard })
        ∧ (∀ (i : Nat) (d : CopyEntry), x.copyQ[i]? = some d →
            ∃ e, y.copyQ[i]? = some e ∧ taken d.guard e.guard ∧ e = { d with guard := e.guard })
        ∧ (∀ (i : Nat) (d : FabEntry), x.fabQ[i]? = some d →
            ∃ e, y.fabQ[i]? = some e ∧ taken d.guard e.guard ∧ e = { d with guard := e.guard }))

/-- LRUN and LRUNR put an entry under their guard at the tail of the lane queue, with the values the block will read, and
wait while the queue holds 16 entries (R63, R69, R73, R83); in handler mode the block starts at once, unguarded, and while one runs the
stream waits (R192). LSYNC
completes when the lane queue is empty and the lane stream idle, and waits before; in handler mode it waits both for the handler's
block and for the queue and stream that the trap holds (R71, log 19). The lane stream is not idle while a load of it is on its way (log 3). -/
def Obligations.LaneBlocks : Prop :=
  ∀ (s : State) (g : Slot) (neg : Bool) (sa : SReg) (entry : BitVec 19), ¬(g = 0 ∧ neg = true) →
    let x := s.grp
    let queued := fun (n : Nat) => State.upd (s.setGrp { x with laneQ := x.laneQ ++ [⟨x.bind g neg, n, x.capture⟩] }) Group.advance
    (x.handler = none → x.laneQ.length < 16 →
      exec (.lrun g neg entry) s = .next (queued entry.toNat)
        ∧ exec (.lrunr g neg sa) s = .next (queued (s.sreg sa).toNat))
      ∧ (x.handler = none → 16 ≤ x.laneQ.length →
          exec (.lrun g neg entry) s = .next (s.waitScalar .queueFull)
            ∧ exec (.lrunr g neg sa) s = .next (s.waitScalar .queueFull))
      ∧ (∀ h, x.handler = some h →
          let started := fun (n : Nat) => State.upd (s.setGrp { x with
            handler := some { h with lane := .start x.w (s.blockPc x n) x.capture } }) Group.advance
          (h.lane.running = false →
            exec (.lrun 0 false entry) s = .next (started entry.toNat)
              ∧ exec (.lrunr 0 false sa) s = .next (started (s.sreg sa).toNat))
          ∧ (h.lane.running = true →
            exec (.lrun 0 false entry) s = .next (s.waitScalar .handlerBlock)
              ∧ exec (.lrunr 0 false sa) s = .next (s.waitScalar .handlerBlock))
          ∧ (g ≠ 0 →
            exec (.lrun g neg entry) s = .next (s.trapScalar cILLOP 0x40)
              ∧ exec (.lrunr g neg sa) s = .next (s.trapScalar cILLOP 0x41)))
      ∧ ((∀ h, x.handler = some h → h.lane.running = false) → x.lane.running = false → x.laneQ = [] →
          (∀ a ∈ x.accesses, a.scalar = true) → exec .lsync s = .next (s.upd Group.advance))
      ∧ (((∃ h, x.handler = some h ∧ h.lane.running = true) ∨ x.lane.running = true ∨ x.laneQ ≠ []
            ∨ ∃ a ∈ x.accesses, a.scalar = false ∧ ∃ c ∈ a.accs, c.released = true) →
          exec .lsync s = .next (s.waitScalar .lsync))

/-! ### Width, regions and the end of a group (R85, R86, R136 to R141, R199) -/

/-- WSPLIT's codes (R138) and the split; WFUSE's time-out word 0 (R139); WGROW within the window that the group has (R141).
The children of a split (R36, R138): child k has a c-th of the threads, of the window and of the unify area, its own number
in sd, and stands past the instruction with empty queues and the effect bit clear. Where a grown
window lies and what a child's wings offset is are the model's readings (log 17); so is it that WGROW checks the effect bit and N before
its wait (log 66). -/
def Obligations.WidthInstructions : Prop :=
  (∀ (s : State) (sd sa : SReg) (ways n : BitVec 18) (tag : BitVec 12),
      let x := s.grp
      (x.widthReady = true → (ways = 2 ∨ ways = 4) →
        (∀ code, s.splitCheck ways.toNat = some code →
          exec (.wsplit sd ways) s = .next (s.resultS sd (BitVec.ofNat 32 (0x80000000 + code))))
        ∧ (s.splitCheck ways.toNat = none → exec (.wsplit sd ways) s = .next (s.split ways.toNat sd)))
        ∧ (x.widthReady = false → (ways = 2 ∨ ways = 4) → exec (.wsplit sd ways) s = .next (s.waitScalar .width))
        ∧ (x.fuse = none → x.widthReady = true →
            (∀ k f, s.fusePartner tag = some (k, f) → exec (.wfuse sd sa tag) s = .next (s.fuseWith k sd f.sd))
            ∧ (s.fusePartner tag = none → sa ≠ 0 → s.sreg sa = 0 → exec (.wfuse sd sa tag) s = .next (s.resultS sd 4))
            ∧ (s.fusePartner tag = none → (sa = 0 ∨ s.sreg sa ≠ 0) →
                ∃ t, exec (.wfuse sd sa tag) s = .next t ∧ t.grp.fuse = some ⟨tag, s.fresh, sd⟩ ∧ t.grp.pc = x.pc))
        ∧ (0 < n.toNat → n.toNat ≤ 2048 → x.effect = false → x.w * roundN n.toNat * 4 ≤ s.registerArea x.core →
            (roundN n.toNat ≤ x.n → exec (.wgrow n) s = .next (s.upd Group.advance))
            ∧ (x.n < roundN n.toNat → x.widthReady = true → x.matIdle = true → (s.core x.core).growers = [] →
                ∃ t, exec (.wgrow n) s = .next t ∧ (t.core x.core).growers = [(s.cur, roundN n.toNat)] ∧ t.grp.pc = x.pc))
        ∧ (0 < n.toNat → n.toNat ≤ 2048 → x.effect = true → exec (.wgrow n) s = .next (s.trapScalar cILLOP 0x48)))
  ∧ (∀ (g : Group) (c k place : Nat) (sd : SReg), 0 < c → k < c → c ∣ g.w →
      let x := g.child c k place sd
      x.w = g.w / c ∧ x.n = g.n ∧ x.rwb = g.rwb + k * (g.w / c) * g.n * 4 ∧ x.pc = g.nextPc ∧ x.laneQ = [] ∧ x.copyQ = []
        ∧ x.fabQ = [] ∧ x.effect = false ∧ x.rdS sd.toNat = (if sd = 0 then 0 else BitVec.ofNat 32 k)
        ∧ (∀ r, r ≠ sd.toNat → x.rdS r = g.rdS r)
        ∧ c * x.windowBytes = g.windowBytes)

/-- REGION waits for the lane stream, refuses an index beyond the table, and otherwise names the current region and clears
the effect bit (R85, R199). SEXIT ends an idle group (R86); SYIELD gives up its issue slots (R86). -/
def Obligations.RegionsAndExit : Prop :=
  ∀ (s : State) (index : BitVec 18),
    let x := s.grp
    (x.syncIdle = true → (s.recordOf x).rtlen ≤ index.toNat →
      exec (.region index) s = .next (s.trapScalar cILLOP (index.setWidth 64)))
      ∧ (∀ n, x.syncIdle = true → index.toNat < (s.recordOf x).rtlen →
          s.regionWord x (32 * index.toNat + 10) 2 = .ok n → n ≤ 4 →
          ∃ t, exec (.region index) s = .next t ∧ OnlyGroup s t ∧ t.grp.effect = false
            ∧ t.grp.region = .at index.toNat x.pc ∧ t.grp.pc = x.nextPc)
      ∧ (x.syncIdle = false → exec (.region index) s = .next (s.waitScalar .region))
      ∧ (x.handler = none → x.laneIdle = true → x.copyQ = [] → x.fabQ = [] → x.engOut = 0 → x.unack = 0 → x.accesses = [] →
          x.matIdle = true →
          ∃ t, exec .sexit s = .next t ∧ t.grp.life = .ended ∧ ∀ r ∈ t.resvs, r.group ≠ s.cur)
      ∧ (∃ t, exec .syield s = .next t ∧ OnlyGroup s t ∧ t.grp = { x.advance with yielding := true })

/-! ### Scalar memory (R76 to R81, R247, R248) -/

/-- Loads of the scalar stream: an aligned, canonical, unlocked, mapped address whose bytes the L1 holds gives the bytes of the
L1's line, little-endian (R5, R76, R247, R279). One whose bytes it does not hold is on its way while the stream goes on (R65, R70): no
register changes until its turn finds the bytes in the L1, and then the destination takes them. A misaligned one is MISALIGN with the
address, a poisoned word POISON, a translation fault parks the group. SLD takes any destination, SLDP an even one (R28, R76). -/
def Obligations.ScalarLoads : Prop :=
  (∀ (s : State) (sd base : SReg) (z : Slot) (off : BitVec 9), evenReg base = true →
    let e := fun (n : Nat) => s.spair base + sext off * BitVec.ofNat 64 n
    let good := fun (n v : Nat) => ∃ t ts, s.checkAccess 0 (e n) n false = .ok t ∧ s.loadAt s.grp t n = .ok v ts
    (∀ pa tagged x, s.Reaches (e 4) 4 aRead pa tagged → s.Holds pa 4 x →
      ∃ v : Word, exec (.sld sd base off) s = .next (s.resultS sd v) ∧ ∀ i < 32, v.getLsbD i = x.data.getLsbD (8 * (pa % 128) + i))
      ∧ (evenReg sd = true → ∀ pa tagged x, s.Reaches (e 8) 8 aRead pa tagged → s.Holds pa 8 x →
          ∃ v : Dword, exec (.sldp sd base off) s = .next (s.resultPair sd v)
            ∧ ∀ i < 64, v.getLsbD i = x.data.getLsbD (8 * (pa % 128) + i))
      ∧ (∀ pa tagged x, s.Reaches (e 64) 64 aRead pa tagged → s.Holds pa 64 x →
          ∃ v : BitVec 512, exec (.zld z base off) s = .next (s.upd fun g => { g with zs := g.zs.set 0 z.toNat v }.advance)
            ∧ ∀ i < 512, v.getLsbD i = x.data.getLsbD (8 * (pa % 128) + i))
      ∧ (∀ pa tagged, s.Reaches (e 4) 4 aRead pa tagged →
          (s.l1 (s.l1Of s.grp.core)).lines.get none (pa / 128) = none →
          ∃ (t : State) (a : Access) (c : Acc), exec (.sld sd base off) s = .next t ∧ SameMemory s t
            ∧ t.grp = { s.grp with accesses := s.grp.accesses ++ [a] }.advance
            ∧ a.scalar = true ∧ a.instr = .sld sd base off ∧ a.pc = s.grp.pc ∧ a.accs = [c]
            ∧ c.space = 0 ∧ c.at_ = pa ∧ c.e = e 4 ∧ c.atom = none)
      ∧ (∀ (t : Target) (n v pa : Nat) (tagged : Bool) (ts : List Tag) (x : Line), t.space = 0 → s.xlate s.grp t.e aRead = .ok pa tagged →
          isView pa = false → pa % 128 + n ≤ 128 → s.loadAt s.grp t n = .ok v ts →
          (s.l1 (s.l1Of s.grp.core)).lines.get none (pa / 128) = some x →
          v < 2 ^ (8 * n) ∧ ∀ i < 8 * n, v.testBit i = x.data.getLsbD (8 * (pa % 128) + i))
      ∧ (∀ v, good 4 v → exec (.sld sd base off) s = .next (s.resultS sd (BitVec.ofNat 32 v)))
      ∧ (evenReg sd = true → ∀ v, good 8 v → exec (.sldp sd base off) s = .next (s.resultPair sd (BitVec.ofNat 64 v)))
      ∧ (∀ v, good 64 v → exec (.zld z base off) s =
          .next (s.upd fun g => { g with zs := g.zs.set 0 z.toNat (BitVec.ofNat 512 v) }.advance))
      ∧ ((e 4).toNat % 4 ≠ 0 → exec (.sld sd base off) s = .next (s.trapScalar cMISALIGN (e 4)))
      ∧ (evenReg sd = true → (e 8).toNat % 8 ≠ 0 → exec (.sldp sd base off) s = .next (s.trapScalar cMISALIGN (e 8)))
      ∧ (∀ t i, s.checkAccess 0 (e 4) 4 false = .ok t → s.loadAt s.grp t 4 = .poison i →
          exec (.sld sd base off) s = .next (s.trapScalar cPOISON i))
      ∧ (∀ t k, s.checkAccess 0 (e 4) 4 false = .ok t → s.loadAt s.grp t 4 = .fault k →
          exec (.sld sd base off) s = .next (s.parkGroup (e 4) k aRead false)))
  ∧ (∀ (s : State) (sd base : SReg) (z : Slot) (off : BitVec 9) (a : Access) (c : Acc) (x : Line),
      s.grp.life = .resident → s.grp.accesses.find? (fun y => y.id == a.id) = some a → a.accs = [c] → c.atom = none →
      s.accWaits a c = false → (s.l1 (s.l1Of s.grp.core)).sweeping = false →
      let landed := fun (f : Group → Group) => s.runAccess s.cur a.id = (s.upd f).upd fun g => g.setAccess { a with accs := [] }
      (a.instr = .sld sd base off → s.Holds c.at_ 4 x → c.at_ % 128 + 4 ≤ 128 →
        ∃ v : Word, landed (fun g => g.wrS sd.toNat v) ∧ ∀ i < 32, v.getLsbD i = x.data.getLsbD (8 * (c.at_ % 128) + i))
      ∧ (a.instr = .sldp sd base off → s.Holds c.at_ 8 x → c.at_ % 128 + 8 ≤ 128 →
        ∃ v : Dword, landed (fun g => g.wrPair sd.toNat v) ∧ ∀ i < 64, v.getLsbD i = x.data.getLsbD (8 * (c.at_ % 128) + i))
      ∧ (a.instr = .zld z base off → s.Holds c.at_ 64 x → c.at_ % 128 + 64 ≤ 128 →
        ∃ v : BitVec 512, landed (fun g => { g with zs := g.zs.set 0 z.toNat v })
          ∧ ∀ i < 512, v.getLsbD i = x.data.getLsbD (8 * (c.at_ % 128) + i)))

/-- Stores of the scalar stream: the bytes go to the group's L1, the words' tags become RAW, the effect bit is set and the PC
passes (R46, R76, R279), on a page that keeps no tags too (log 57). A store of the scalar stream in memory's terms: a GLOBAL store
leaves every byte at the homes as it was and changes, in the group's L1, no byte and no tag of any line outside the addresses stored to,
nor which of them the L1 holds or holds dirty; the bytes stored read as the value's, lowest first, and the words stored to take the tag
stored, RAW for these stores, or keep theirs where none is. SST takes any source, SSTP an even one (R28, R76). -/
def Obligations.ScalarStores : Prop :=
  (∀ (s : State) (ss base : SReg) (z : Slot) (off : BitVec 9), evenReg base = true →
      let e := fun (n : Nat) => s.spair base + sext off * BitVec.ofNat 64 n
      let done := fun (t : State) => Host.Outcome.next (φ := Fault) (ρ := Refusal) (t.setEffect.upd Group.advance)
      let good := fun (n v : Nat) (t : State) => ∃ g, s.checkAccess 0 (e n) n true = .ok g ∧ s.storeAt g n v (.set 0) = .ok t
      (∀ t, good 4 (s.sreg ss).toNat t → exec (.sst ss base off) s = done t)
        ∧ (evenReg ss = true → ∀ t, good 8 (s.spair ss).toNat t → exec (.sstp ss base off) s = done t)
        ∧ (∀ t, good 64 (s.zreg z).toNat t → exec (.zst z base off) s = done t)
        ∧ ((e 4).toNat % 4 ≠ 0 → exec (.sst ss base off) s = .next (s.trapScalar cMISALIGN (e 4)))
        ∧ (s.grp.unack < unackMax → ∀ pa tagged,
            (s.Reaches (e 4) 4 aWrite pa tagged →
              exec (.sst ss base off) s = done (s.storeL1 s.cur pa 4 (s.sreg ss).toNat (.set 0)).noteStore)
            ∧ (evenReg ss = true → s.Reaches (e 8) 8 aWrite pa tagged →
              exec (.sstp ss base off) s = done (s.storeL1 s.cur pa 8 (s.spair ss).toNat (.set 0)).noteStore)
            ∧ (s.Reaches (e 64) 64 aWrite pa tagged →
              exec (.zst z base off) s = done (s.storeL1 s.cur pa 64 (s.zreg z).toNat (.set 0)).noteStore)))
  ∧ (∀ (s t : State) (g : Target) (n v : Nat) (mode : TagMode) (pa : Nat) (tagged : Bool),
      g.space = 0 → s.xlate s.grp g.e aWrite = .ok pa tagged → 0 < n → pa % 128 + n ≤ 128 → s.storeAt g n v mode = .ok t →
      let old := ((s.l1 (s.l1Of s.grp.core)).lines.get none (pa / 128)).getD (s.l1 (s.l1Of s.grp.core)).newLine
      let tagOf := fun (x : Line) (w : Nat) => (BitVec.ofNat 4 (x.tags.toNat / 2 ^ (4 * w)) : Tag)
      SameMemory s t
        ∧ (∀ k, k ≠ s.l1Of s.grp.core → t.l1 k = s.l1 k)
        ∧ (∀ line, line ≠ pa / 128 →
            let seen := fun (x : Option Line) => x.map fun x => (x.data, x.valid, x.dirty, x.tags, x.tagKnown, x.tagDirty)
            seen ((t.l1 (s.l1Of s.grp.core)).lines.get none line) = seen ((s.l1 (s.l1Of s.grp.core)).lines.get none line))
        ∧ (∃ x, (t.l1 (s.l1Of s.grp.core)).lines.get none (pa / 128) = some x
            ∧ (∀ i < 1024, x.data.getLsbD i =
                if 8 * (pa % 128) ≤ i ∧ i < 8 * (pa % 128 + n) then v.testBit (i - 8 * (pa % 128))
                else old.data.getLsbD i)
            ∧ (∀ i < 128,
                let stored := decide (pa % 128 ≤ i ∧ i < pa % 128 + n)
                x.valid.getLsbD i = (stored || old.valid.getLsbD i) ∧ x.dirty.getLsbD i = (stored || old.dirty.getLsbD i))
            ∧ (∀ w < 16,
                let stored := decide (pa % 128 / 8 ≤ w ∧ w ≤ (pa % 128 + n - 1) / 8)
                match (mode.onPage tagged).tag with
                | none => tagOf x w = tagOf old w ∧ x.tagKnown.getLsbD w = old.tagKnown.getLsbD w
                    ∧ x.tagDirty.getLsbD w = old.tagDirty.getLsbD w
                | some k => tagOf x w = (if stored then k else tagOf old w)
                    ∧ x.tagKnown.getLsbD w = (stored || old.tagKnown.getLsbD w)
                    ∧ x.tagDirty.getLsbD w = (stored || old.tagDirty.getLsbD w))))

/-- Ordered accesses and fences of the scalar stream (R77 to R80): an idle group's release is at once complete, and moves no version
counter; where lines are pinned that its scope reaches beyond, it waits for their bytes (R286). An acquire advances the counters of its
L1 from the company's up to its scope's and none at wave and cast scope (R283), where no acknowledgement of a write is on its way
(log 75). SCAS and SAMO go on their way with the operands they read, and the register that they name takes what their home answers
(R65, R79). RACQ of an absent core, or of one that another partition alone owns, is PROT with the core's number (R81); one of the
group's own core, or of a core that holds no cast, is an acquire. -/
def Obligations.ScalarOrdering : Prop :=
  (∀ (s : State) (sd ss base : SReg) (scope : BitVec 3) (order : BitVec 2) (off : BitVec 9),
      let x := s.grp
      let k := s.l1Of x.core
      let e := s.spair base + sext off * 4
      let counted := fun (t : State) =>
        (t.l1 k).c = (s.l1 k).c + (if 2 ≤ scope.toNat then 1 else 0) ∧ (t.l1 k).h = (s.l1 k).h + (if 3 ≤ scope.toNat then 1 else 0)
          ∧ (t.l1 k).p = (s.l1 k).p + (if 4 ≤ scope.toNat then 1 else 0)
          ∧ (t.l1 k).s = (s.l1 k).s + (if 5 ≤ scope.toNat then 1 else 0)
      let quiet := (s.l1 k).sweeping = false ∧ s.acksOut k = false ∧ (s.l1 k).c < 63 ∧ (s.l1 k).h < 63 ∧ (s.l1 k).p < 63
        ∧ (s.l1 k).s < 63
      let sent := x.unack = 0 ∧ x.syncIdle = true ∧ s.readsOut x = false ∧ (unpinScope k ≤ scope.toNat →
        (s.l1 k).pins = [] ∧ s.unpinsOut k = false ∧ s.unsentIn k = false ∧ s.writesBefore k s.fresh = false)
        ∧ (scope.toNat = 5 → s.hostView = [])
      x.fellS = false → x.acqS = none → x.relS = none → scope.toNat < 6 → s.clamped scope.toNat = false →
      (sent → exec (.fence scope 2) s = .next (s.upd Group.advance))
        ∧ (scope.toNat < 2 → x.accesses = [] → exec (.fence scope 1) s = .next (s.upd Group.advance))
        ∧ (scope.toNat < 2 → sent → exec (.fence scope 3) s = .next (s.upd Group.advance))
        ∧ (quiet → (order = 1 ∧ x.accesses = [] ∧ (s.l1 k).pins = [] ∨ order = 3 ∧ sent) →
            ∃ t, exec (.fence scope order) s = .next t ∧ t.grp = x.advance ∧ SameMemory s t ∧ counted t)
        ∧ (order = 2 ∨ order = 3 → x.unack = 0 → x.syncIdle = true → s.readsOut x = false → unpinScope k ≤ scope.toNat →
            (s.l1 k).pins ≠ [] → exec (.fence scope order) s = .next ((s.unpinAll k s.cur).waitScalar .release))
        ∧ (∀ v, evenReg base = true → x.answer = none →
            (∃ t ts, s.checkAccess 0 e 4 false = .ok t ∧ s.loadAt s.grp t 4 = .ok v ts) →
            (scope.toNat < 2 → exec (.sldaq sd base scope off) s = .next (s.resultS sd (BitVec.ofNat 32 v)))
            ∧ (quiet → ∃ t, exec (.sldaq sd base scope off) s = .next t ∧ t.grp = (s.resultS sd (BitVec.ofNat 32 v)).grp
                ∧ SameMemory s t ∧ counted t))
        ∧ (∀ t g, evenReg base = true → s.checkAccess 0 e 4 true = .ok g → sent →
            releasingStore s g scope.toNat 4 (s.sreg ss).toNat (.set 0) = .ok t →
            exec (.sstrl ss base scope off) s = .next (t.setEffect.upd Group.advance)
              ∧ ∀ j, (t.l1 j).c = (s.l1 j).c ∧ (t.l1 j).h = (s.l1 j).h ∧ (t.l1 j).p = (s.l1 j).p ∧ (t.l1 j).s = (s.l1 j).s)
        ∧ (2 ≤ scope.toNat → s.feature 17 = true → (s.sreg ss).toNat = x.core → x.core < 48 → x.racq = 0 → quiet →
            ∃ t, exec (.racq ss scope) s = .next t ∧ t.grp.pc = x.nextPc ∧ SameMemory s t ∧ counted t))
  ∧ (∀ (s : State) (sd sa sb : SReg) (op scope : BitVec 3) (g : Target) (pa : Nat) (tagged : Bool),
      let x := s.grp
      let e := s.spair sa
      evenReg sa = true → op ≠ 7 → scope.toNat < 6 →
      (s.checkAccess 0 e 4 true = .ok g → s.xlate x e aAtomic = .ok pa tagged → isView pa = false →
        let leaves := fun (i : Instr) (form : Nat) (expect : Word) => ∃ (t : State) (a : Access) (c : Acc) (q : AtomReq),
          exec i s = .next t ∧ SameMemory s t ∧ t.grp = { x with accesses := x.accesses ++ [a] }.advance ∧ a.scalar = true
            ∧ a.instr = i ∧ a.pc = x.pc ∧ a.sent = none ∧ a.accs = [c] ∧ c.space = 0 ∧ c.at_ = pa ∧ c.e = e ∧ c.atom = some q
            ∧ q.pa = pa ∧ q.size = 4 ∧ q.form = form ∧ (form = 0 → q.op = op.toNat)
            ∧ q.operand.value = (s.sreg sb).setWidth 64 ∧ q.expect.value = expect.setWidth 64
        leaves (.samo sd sa sb op scope) 0 0 ∧ leaves (.scas sd sa sb scope) 1 (s.sreg sd))
      ∧ (e.toNat % 4 ≠ 0 → exec (.samo sd sa sb op scope) s = .next (s.trapScalar cMISALIGN e)
          ∧ exec (.scas sd sa sb scope) s = .next (s.trapScalar cMISALIGN e))
      ∧ (∀ (id : Nat) (a : Access) (o : AtomOut), x.accesses.find? (fun y => y.sent == some id) = some a → o.poison = false →
          (a.instr = .samo sd sa sb op scope ∨ a.instr = .scas sd sa sb scope) →
          s.scalarResult id o = (s.upd fun y => y.setAccess { a with accs := [] }).upd fun y => y.wrS sd.toNat (BitVec.ofNat 32 o.old)))
  ∧ (∀ (s : State) (ss : SReg) (scope : BitVec 3), s.feature 17 = true → 2 ≤ scope.toNat → scope.toNat < 6 →
      s.clamped scope.toNat = false →
      (48 ≤ (s.sreg ss).toNat →
        exec (.racq ss scope) s = .next (s.trapScalar cPROT ((s.sreg ss).setWidth 64)))
        ∧ ((s.sreg ss).toNat < 48 → s.foreignCore (s.sreg ss).toNat = true →
            exec (.racq ss scope) s = .next (s.trapScalar cPROT ((s.sreg ss).setWidth 64)))
        ∧ s.foreignCore s.grp.core = false
        ∧ (∀ t, (s.sreg ss).toNat < 48 → s.foreignCore (s.sreg ss).toNat = false → s.grp.racq = 0 →
            ((s.sreg ss).toNat = s.grp.core
              ∨ ∀ x ∈ s.launches, ∀ l, x.2 = some l → ∀ c ∈ l.casts, c.core ≠ (s.sreg ss).toNat) →
            s.acquire scope.toNat false = .done t →
            exec (.racq ss scope) s = .next (t.upd fun g => { g with racq := 0, racqCore := 0 }.advance)))

/-- Shape and mask registers (R247, R248): ZSET and MKSET replace one word, MKSET.PRE sets a prefix, ZGET reads one word; the
other words, the other registers and memory stay. -/
def Obligations.ShapeAndMaskRegisters : Prop :=
  ∀ (s : State) (z mk : Slot) (sd sa : SReg) (w : BitVec 4) (w2 : BitVec 2),
    let v := s.sreg sa
    (∃ t, exec (.zset z sa w) s = .next t ∧ OnlyGroup s t ∧ t.grp.pc = s.grp.nextPc
        ∧ (∀ i < 512, (t.zreg z).getLsbD i = if i / 32 = w.toNat then v.getLsbD (i % 32) else (s.zreg z).getLsbD i)
        ∧ (∀ k, k ≠ z → t.zreg k = s.zreg k) ∧ (∀ k, t.mreg k = s.mreg k) ∧ ∀ r, t.grp.rdS r = s.grp.rdS r)
      ∧ (∃ x : Word, exec (.zget sd z w) s = .next (s.resultS sd x) ∧ ∀ i < 32, x.getLsbD i = (s.zreg z).getLsbD (32 * w.toNat + i))
      ∧ (∃ t, exec (.mkset mk sa w2) s = .next t ∧ OnlyGroup s t ∧ t.grp.pc = s.grp.nextPc
        ∧ (∀ i < 128, (t.mreg mk).getLsbD i = if i / 32 = w2.toNat then v.getLsbD (i % 32) else (s.mreg mk).getLsbD i)
        ∧ (∀ k, k ≠ mk → t.mreg k = s.mreg k) ∧ (∀ k, t.zreg k = s.zreg k) ∧ ∀ r, t.grp.rdS r = s.grp.rdS r)
      ∧ (∃ t, exec (.mksetPre mk sa) s = .next t ∧ OnlyGroup s t ∧ t.grp.pc = s.grp.nextPc
        ∧ (∀ i < 128, (t.mreg mk).getLsbD i = decide (i < v.toNat)) ∧ (∀ k, k ≠ mk → t.mreg k = s.mreg k)
        ∧ (∀ k, t.zreg k = s.zreg k) ∧ ∀ r, t.grp.rdS r = s.grp.rdS r)

/-! ### Queues, copy and fabric commands (R44, R69, R250, R251, R254 to R257, R271, R362 to R368) -/

/-- A copy-engine command whose descriptors are in order goes to the tail of the copy queue under its guard, with the values
it captured, a limit of CPY unless the instruction names s0; the engine-outstanding counter rises by one and the effect bit is set (R44, R46, R69, R250, R251, R271). A
descriptor that is not in order is ILLOP; a full counter makes the stream wait. -/
def Obligations.CopyCommands : Prop :=
  ∀ (s : State) (g : Slot) (neg : Bool) (zd zs zi : Slot) (sa : SReg), ¬(g = 0 ∧ neg = true) →
    let x := s.grp
    let reg := fun (k : Nat) => x.rdS (sa.toNat + k)
    let queued := fun (op : CopyOp) (a b : BitVec 512) =>
      Host.Outcome.next (φ := Fault) (ρ := Refusal) (State.upd (s.setGrp { x with
        copyQ := x.copyQ ++ [⟨x.bind g neg, op, a, b⟩], engOut := x.engOut + 1, effect := true }) Group.advance)
    let two := tensorOk (s.zreg zd) = true ∧ tensorOk (s.zreg zs) = true
    (x.engOut < 512 → x.copyQ.length < 16 →
      (two → exec (.cpy g neg zd zs sa) s = queued (.cpy (if sa = 0 then none else some (reg 0))) (s.zreg zd) (s.zreg zs))
      ∧ (two → evenReg sa = true →
          exec (.cpyq g neg zd zs sa) s = queued (.cpyq (reg 0) ((reg 1).toNat % 64)) (s.zreg zd) (s.zreg zs))
      ∧ (tensorOk (s.zreg zd) = true → zfield (s.zreg zd) 6 2 ≠ 3 →
          exec (.cpys g neg zd sa) s = queued (.cpys ((reg 0).setWidth 64)) (s.zreg zd) 0)
      ∧ (tensorOk (s.zreg zd) = true → zfield (s.zreg zd) 6 2 = 3 → evenReg sa = true →
          exec (.cpys g neg zd sa) s = queued (.cpys (s.spair sa)) (s.zreg zd) 0)
      ∧ (tensorOk (s.zreg zd) = true → indexedOk (s.zreg zs) (s.zreg zi) = true →
          exec (.gath g neg zd zs zi) s = queued (.gath (s.zreg zi)) (s.zreg zd) (s.zreg zs))
      ∧ (tensorOk (s.zreg zs) = true → indexedOk (s.zreg zd) (s.zreg zi) = true →
          exec (.scat g neg zd zs zi) s = queued (.scat (s.zreg zi)) (s.zreg zd) (s.zreg zs))
      ∧ (two → s.feature 9 = true → sa.toNat % 4 = 0 → zfield (s.zreg zd) 4 2 = 1 → (reg 1).toNat / 256 % 4096 ≠ 0 →
          (reg 1).toNat / 2 ^ 22 = 0 → (reg 1).toNat / 64 % 4 = 0 → (reg 2).toNat % 4 = 0 →
          exec (.mcast g neg zd zs sa) s = queued (.mcast (reg 0) ((reg 1).toNat / 2 ^ 20 % 4)
            (BitVec.ofNat 12 ((reg 1).toNat / 256)) ((reg 1).toNat % 64) (reg 2)) (s.zreg zd) (s.zreg zs)))
      ∧ (tensorOk (s.zreg zd) = false → exec (.cpy g neg zd zs sa) s = .next (s.trapScalar cILLOP 0x50))
      ∧ (two → 512 ≤ x.engOut → exec (.cpy g neg zd zs sa) s = .next (s.waitScalar .counter))

/-- A fabric-queue command goes to the tail of the fabric queue under its guard; the engine-outstanding counter and the
fabric or collective counter rise by one and the effect bit is set (R44, R46, R362, R363, R368). -/
def Obligations.FabricCommands : Prop :=
  ∀ (s : State) (g : Slot) (neg : Bool) (zl zd zs : Slot) (sa : SReg) (op : BitVec 2), ¬(g = 0 ∧ neg = true) →
    let x := s.grp
    let reg := fun (k : Nat) => x.rdS (sa.toNat + k)
    let transfer := fun (get : Bool) => Host.Outcome.next (φ := Fault) (ρ := Refusal) (State.upd (s.setGrp { x with
        fabQ := x.fabQ ++ [⟨x.bind g neg, .transfer get (reg 0) (reg 1) (reg 2), s.zreg zl⟩]
        engOut := x.engOut + 1, effect := true, fabOut := x.fabOut + 1 }) Group.advance)
    let coll := fun (kind op : Nat) => Host.Outcome.next (φ := Fault) (ρ := Refusal) (State.upd (s.setGrp { x with
        fabQ := x.fabQ ++ [⟨x.bind g neg, .coll kind op (s.zreg zd) (reg 0) (reg 1), s.zreg zs⟩]
        engOut := x.engOut + 1, effect := true, collOut := x.collOut + 1 }) Group.advance)
    x.engOut < 512 → x.fabQ.length < 16 →
    (s.feature 10 = true → sa.toNat % 4 = 0 → x.fabOut < 64 → transferOk (s.zreg zl) (reg 0) = true →
      exec (.xput g neg zl sa) s = transfer false ∧ exec (.xget g neg zl sa) s = transfer true)
      ∧ (s.feature 11 = true → evenReg sa = true → x.collOut < 8 → collOk (s.zreg zd) (s.zreg zs) (reg 0) = true →
          exec (.collAgath g neg zd zs sa) s = coll 1 0
            ∧ (op ≠ 3 → exec (.collAred g neg zd zs sa op) s = coll 0 op.toNat
                ∧ exec (.collRscat g neg zd zs sa op) s = coll 2 op.toNat))

/-- EWAIT, XWAIT and CWAIT complete once their counter is at most n, and wait before; XWAIT and CWAIT read their status and
clear it (R254, R365). -/
def Obligations.CommandWaits : Prop :=
  ∀ (s : State) (sd : SReg) (n : BitVec 18) (n7 : BitVec 7) (n4 : BitVec 4),
    let x := s.grp
    (x.engOut ≤ n.toNat → exec (.ewait n) s = .next (s.upd Group.advance))
      ∧ (n.toNat < x.engOut → exec (.ewait n) s = .next (s.waitScalar .ewait))
      ∧ (s.feature 10 = true → x.fabOut ≤ n7.toNat → exec (.xwait sd n7) s =
          .next (s.upd fun g => { g.wrS sd.toNat (x.fabStat.setWidth 32) with fabStat := 0 }.advance))
      ∧ (s.feature 10 = true → n7.toNat < x.fabOut → exec (.xwait sd n7) s = .next (s.waitScalar .xwait))
      ∧ (s.feature 11 = true → x.collOut ≤ n4.toNat → exec (.cwait sd n4) s =
          .next (s.upd fun g => { g.wrS sd.toNat (x.collStat.setWidth 32) with collStat := 0 }.advance))
      ∧ (s.feature 11 = true → n4.toNat < x.collOut → exec (.cwait sd n4) s = .next (s.waitScalar .cwait))
      ∧ (s.feature 10 = false → exec (.xwait sd n7) s = .next (s.trapScalar cILLOP 0x62))

/-- QBIND binds a ring that lies in the cast's scratch, empty, and ends a binding for 0 slots; too many slots, a ring outside
the scratch and another launch's queue are QUEUE traps with codes 3, 2 and 5 (R255). -/
def Obligations.QueueBinding : Prop :=
  ∀ (s : State) (sa sb : SReg) (queue : BitVec 6) (c : Cast),
    let x := s.grp
    let q := queue.toNat
    let n := (s.sreg sb).toNat
    let off := (s.sreg sa).toNat
    s.castOn x.launch x.core = some c →
    (n ≤ 256 → n ≠ 0 → off % 4 = 0 → off + 4 * n ≤ c.scratchSize → (∀ y, s.queue? x.core q = some y → y.launch = x.launch) →
      ∃ t, exec (.qbind sa sb queue) s = .next t ∧ t.grp.pc = x.nextPc ∧ t.grp.effect = true ∧ SameMemory s t
        ∧ t.queue? x.core q = some { id := s.fresh, launch := x.launch, offset := off, slots := n, head := 0, tail := 0, filled := 0
                                     free := n, lost := false, ended := false }
        ∧ ∀ r, r ≠ q → t.queue? x.core r = s.queue? x.core r)
      ∧ (n = 0 → (∀ y, s.queue? x.core q = some y → y.launch = x.launch) →
          ∃ t, exec (.qbind sa sb queue) s = .next t ∧ t.grp.pc = x.nextPc ∧ t.grp.effect = true ∧ SameMemory s t
            ∧ t.queue? x.core q = none ∧ ∀ r, r ≠ q → t.queue? x.core r = s.queue? x.core r)
      ∧ (256 < n → exec (.qbind sa sb queue) s = .next (s.trapScalar cQUEUE (BitVec.ofNat 64 (3 + 256 * q))))
      ∧ (n ≤ 256 → ∀ y, s.queue? x.core q = some y → y.launch ≠ x.launch →
          exec (.qbind sa sb queue) s = .next (s.trapScalar cQUEUE (BitVec.ofNat 64 (5 + 256 * q))))
      ∧ (n ≤ 256 → n ≠ 0 → s.queue? x.core q = none → (off % 4 ≠ 0 ∨ c.scratchSize < off + 4 * n) →
          exec (.qbind sa sb queue) s = .next (s.trapScalar cQUEUE (BitVec.ofNat 64 (2 + 256 * q))))

/-- The queue instructions at wave and cast scope on a ring of the group's own launch (R256 to R258): a push takes a free
slot, whose four bytes are the handle from then on and whose word becomes RAW, a pop gives the handle at the head, the TRY forms
report what they found, COUNT reads the two counts. The slot is read and
written as scratch: a lock on it or a word tagged POI traps (R187, R204), and the ring stays. A lost delivery traps once (R273). -/
def Obligations.QueueInstructions : Prop :=
  ∀ (s : State) (sd sa : SReg) (scope : BitVec 3) (queue : BitVec 6) (y : Queue),
    let x := s.grp
    let q := queue.toNat
    let slot := s.scratchBase y.launch x.core + y.offset + 4 * y.tail
    let holds := fun (t : State) =>
      gather (fun i => (t.core x.core).scratch.get 0 (slot + i)) 4 = (s.sreg sa).toNat
        ∧ (t.core x.core).scratchTags.get 0 (slot / 8) = 0
        ∧ (∀ a, a < slot ∨ slot + 4 ≤ a → (t.core x.core).scratch.get 0 a = (s.core x.core).scratch.get 0 a)
        ∧ ∀ w, w ≠ slot / 8 → (t.core x.core).scratchTags.get 0 w = (s.core x.core).scratchTags.get 0 w
    x.waitQueue = none → x.answer = none → x.fellS = false → x.acqS = none → x.unack = 0 → x.syncIdle = true →
    s.readsOut x = false → scope.toNat < 2 → s.queue? x.core q = some y → y.launch = x.launch →
    (y.free ≠ 0 → s.slotCheck x.core y y.tail true = none →
      (∃ t, exec (.qpush sa scope queue) s = .next t ∧ t.grp.pc = x.nextPc ∧ t.grp.effect = true ∧ SameMemory s t ∧ holds t
        ∧ t.queue? x.core q = some { y with tail := (y.tail + 1) % y.slots, free := y.free - 1, filled := y.filled + 1 })
      ∧ (∃ t, exec (.qtryPush sd sa scope queue) s = .next t ∧ t.grp.pc = x.nextPc ∧ t.grp.rdS sd.toNat = (if sd = 0 then 0 else 1) ∧ holds t
        ∧ t.queue? x.core q = some { y with tail := (y.tail + 1) % y.slots, free := y.free - 1, filled := y.filled + 1 }))
      ∧ (y.free = 0 →
          (∃ t, exec (.qpush sa scope queue) s = .next t ∧ t.grp.pc = x.pc ∧ t.grp.waitQueue = some y.id
            ∧ t.queue? x.core q = some y)
          ∧ (∃ t, exec (.qtryPush sd sa scope queue) s = .next t ∧ t.grp.pc = x.nextPc
            ∧ t.grp.rdS sd.toNat = 0 ∧ t.queue? x.core q = some y))
      ∧ (y.free ≠ 0 → ∀ c i, s.slotCheck x.core y y.tail true = some (c, i) →
          exec (.qpush sa scope queue) s = .next ((s.upd fun g => { g with waitQueue := none }).trapScalar c i))
      ∧ (y.lost = false → y.filled ≠ 0 → ∀ c i, s.slotCheck x.core y y.head false = some (c, i) →
          exec (.qpop sd scope queue) s = .next ((s.upd fun g => { g with waitQueue := none }).trapScalar c i))
      ∧ (y.lost = false → y.filled ≠ 0 → s.slotCheck x.core y y.head false = none →
          let h := BitVec.ofNat 32 (gather (fun i => (s.core x.core).scratch.get 0
            (s.scratchBase y.launch x.core + y.offset + 4 * y.head + i)) 4)
          let after := some { y with head := (y.head + 1) % y.slots, filled := y.filled - 1, free := y.free + 1 }
          (∃ t, exec (.qpop sd scope queue) s = .next t ∧ t.grp.pc = x.nextPc ∧ t.grp.rdS sd.toNat = (if sd = 0 then 0 else h)
            ∧ t.queue? x.core q = after)
          ∧ (evenReg sd = true → sd ≠ 0 → ∃ t, exec (.qtryPop sd scope queue) s = .next t ∧ t.grp.pc = x.nextPc
            ∧ t.grp.rdS sd.toNat = 1 ∧ t.grp.rdS (sd.toNat + 1) = h ∧ t.queue? x.core q = after))
      ∧ (y.lost = false → y.filled = 0 →
          (∃ t, exec (.qpop sd scope queue) s = .next t ∧ t.grp.pc = x.pc ∧ t.grp.waitQueue = some y.id)
          ∧ (evenReg sd = true → sd ≠ 0 → exec (.qtryPop sd scope queue) s = .next (s.resultS sd 0)))
      ∧ (y.lost = false → evenReg sd = true → sd ≠ 0 →
          ∃ t, exec (.qtryCount sd queue) s = .next t ∧ OnlyGroup s t ∧ t.grp.pc = x.nextPc
            ∧ t.grp.rdS sd.toNat = BitVec.ofNat 32 y.filled ∧ t.grp.rdS (sd.toNat + 1) = BitVec.ofNat 32 y.free)
      ∧ (y.lost = true → evenReg sd = true → sd ≠ 0 → ∀ i : Instr,
          i = .qpop sd scope queue ∨ i = .qtryPop sd scope queue ∨ i = .qtryCount sd queue →
          ∃ t, exec i s = .next t ∧ t = (s.setQueue x.core q (some { y with lost := false })).trapScalar cQUEUE
            (BitVec.ofNat 64 (6 + 256 * q)))

/-! ### Special registers, traps and the return (R87 to R91, R188 to R195) -/

/-- Every 32-bit special register and every half of a 64-bit one is read by SCSRR: a LO half gives bits [31:0] and latches
bits [63:32] of one value, a HI half gives the latch (R88, R89); CYCLE is the clock of the group's island, TIME the partition's guest
time, ENERGY the launch's energy (R90); an unassigned number is ILLOP with the number. -/
def Obligations.SpecialRegisterReads : Prop :=
  ∀ (s : State) (sd : SReg) (csr : BitVec 12),
    let n := csr.toNat
    let x := s.grp
    (0x15 < n → exec (.scsrr sd csr) s = .next (s.trapScalar cILLOP (csr.setWidth 64)))
      ∧ (n = 1 ∨ n = 3 ∨ n = 5 ∨ n = 0xB ∨ n = 0xD ∨ n = 0x13 ∨ n = 0x15 →
          exec (.scsrr sd csr) s = .next (s.resultS sd x.latches.1))
      ∧ (∀ v : Dword, (n = 0xA ∧ v = x.termBase) ∨ (n = 0xC ∧ v = x.termLim) ∨ (n = 0x12 ∧ v = x.trapPc)
            ∨ (n = 0x14 ∧ v = x.trapInfo) →
          exec (.scsrr sd csr) s =
            .next (s.upd fun g => ((g.setLatches (hiHalf v) g.latches.2).wrS sd.toNat (loHalf v)).advance))
      ∧ (∀ v : Word, (n = 8 ∧ v = x.sticky) ∨ (n = 0xE ∧ v = x.wingBase) ∨ (n = 0xF ∧ v = x.wingSize)
            ∨ (n = 0x10 ∧ v = x.rndMode) ∨ (n = 0x11 ∧ v = x.trapCause)
            ∨ (n = 6 ∧ v = s.dimmer (clusterOfCore x.core))
            ∨ (∃ l, s.launch? x.launch = some l ∧ ((n = 7 ∧ v = l.fadeWord) ∨ (n = 9 ∧ v = l.launchId))) →
          exec (.scsrr sd csr) s = .next (s.resultS sd v))
      ∧ (n = 0 ∨ n = 2 ∨ n = 4 → ∃ (v : Dword) (t : State), exec (.scsrr sd csr) s = .next t ∧ t.grp.pc = x.nextPc ∧ SameMemory s t
          ∧ t.grp.rdS sd.toNat = (if sd = 0 then 0 else loHalf v) ∧ t.grp.latches.1 = hiHalf v
          ∧ (n = 0 → v = BitVec.ofNat 64 (t.island (clusterOfCore x.core)).cycles)
          ∧ (n = 2 → v = t.guestTime (s.partitionOf x))
          ∧ (n = 4 → ∀ l, s.launch? x.launch = some l → v = l.energy)
          ∧ ∀ r, r ≠ sd.toNat → t.grp.rdS r = x.rdS r)

/-- SCSRW (R87, R89 to R91): STICKY bits are cleared by ones, 64-bit registers take their latched low half with the HI write,
term bounds are 8-byte aligned, WINGBASE and WINGSIZE are PROT while a thread has wings entries, a value that a field
reserves changes nothing, a read-only register ignores the write. -/
def Obligations.SpecialRegisterWrites : Prop :=
  ∀ (s : State) (ss : SReg) (csr : BitVec 12),
    let n := csr.toNat
    let x := s.grp
    let v := s.sreg ss
    let whole : Dword := pairOf x.latches.2 v
    let gives := fun (g : Group) => exec (.scsrw ss csr) s = .next (s.setGrp g.advance)
    (0x15 < n → exec (.scsrw ss csr) s = .next (s.trapScalar cILLOP (csr.setWidth 64)))
      ∧ (n = 8 → gives { x with sticky := x.sticky &&& ~~~v })
      ∧ (n = 0xA ∨ n = 0xC ∨ n = 0x12 → gives (x.setLatches x.latches.1 v))
      ∧ (n = 0xB → gives { x with termBase := whole &&& ~~~7 })
      ∧ (n = 0xD → gives { x with termLim := whole &&& ~~~7 })
      ∧ (n = 0x13 → gives { x with trapPc := whole })
      ∧ (n = 0xE → x.wingsLive = false → gives { x with wingBase := v &&& 0x001FFFF0 })
      ∧ (n = 0xF → x.wingsLive = false → s.wingSizeOk (v.toNat % 16) = true → gives { x with wingSize := v &&& 15 })
      ∧ (n = 0xF → x.wingsLive = false → s.wingSizeOk (v.toNat % 16) = false → gives x)
      ∧ (n = 0xE ∨ n = 0xF → x.wingsLive = true → exec (.scsrw ss csr) s = .next (s.trapScalar cPROT (csr.setWidth 64)))
      ∧ (n = 0x10 → gives (if v.toNat % 8 ≤ 4 then { x with rndMode := v &&& 7 } else x))
      ∧ (n < 8 ∨ n = 9 ∨ n = 0x11 ∨ n = 0x14 ∨ n = 0x15 → gives x)

/-- Taking a trap with a handler and the window free (R89, R190, R191): TRAPCAUSE, TRAPPC and TRAPINFO are written, the
scalar PC goes to the handler's entry, the understudy registers and latches start at zero, the trap and the interrupted
scalar PC are kept for the return, reservations are cleared, and the trapping instruction, unless a late step of it met the trap (log 61),
is to begin afresh; memory, the group's own registers and every other group stay. -/
def Obligations.TrapEntry : Prop :=
  ∀ (s : State) (k : Nat) (c : TrapInfo),
    let g := s.group k
    let r := s.recordOf g
    g.handler = none → r.trapent ≠ 0 → s.windowBusy k = false → g.otherBusy c = false → g.deferred = none → g.parked = none →
    let t := s.takeTrap k c
    let h := t.group k
    (∃ u, h.handler = some u ∧ u.regs = [] ∧ u.scalars = [] ∧ u.preds = [] ∧ u.tags = [] ∧ u.readLatch = 0 ∧ u.writeLatch = 0
        ∧ u.lane.running = false ∧ u.trap = c ∧ u.scalarPc = g.pc)
      ∧ h.trapCause = causeWord c ∧ h.trapPc = c.pc ∧ h.trapInfo = c.info
      ∧ h.pc = r.scode + BitVec.ofNat 64 (4 * r.trapent)
      ∧ h.lane = (if c.lane && !c.late then g.lane.setIssued c.frag false else g.lane)
      ∧ h.scalars = g.scalars ∧ h.laneQ = g.laneQ ∧ h.guards = g.guards ∧ h.zs = g.zs ∧ h.mks = g.mks
      ∧ (∀ r, r < 48 → h.rdS r = g.rdS r) ∧ (∀ r, 48 ≤ r → h.rdS r = 0)
      ∧ (∀ x ∈ t.resvs, x.group ≠ k) ∧ (∀ j, j ≠ k → t.group j = s.group j) ∧ SameMemory s t
      ∧ t.launches = s.launches ∧ t.cores = s.cores

/-- A trap that must wait is held: another group of the datapath is in handler mode (R195), the other stream's instruction
or an access on its way is not finished (R190), or the other stream is parked on a fault (R196); that the hold is the model's reading of
these waits is log 27, and what a late step's trap waits for log 61. Nothing else changes but that the trapping instruction's
own reads on the way count no longer, and that a crossbar error that the trap reports is reported (R275). A second trap in handler mode ends the launch with status 2 and the trap
registers as they stand (R193); without a handler every trap ends it with status 1 (R190). -/
def Obligations.HeldAndFatalTraps : Prop :=
  (∀ (s : State) (k : Nat) (c : TrapInfo),
      let g := s.group k
      g.handler = none → (s.recordOf g).trapent ≠ 0 → (s.windowBusy k = true ∨ g.otherBusy c = true ∨ g.parked.isSome = true) →
      g.deferred = none →
      let errors := if c.cause = cPOISON ∧ c.info.toNat / 2 ^ 61 = 3 then s.apertureErrors.filter (· != k) else s.apertureErrors
      s.takeTrap k c = ({ s with apertureErrors := errors }).setGroup k
        { (if c.late then g else g.dropReads c.lane c.frag) with deferred := some c })
  ∧ (∀ (s : State) (k : Nat) (c : TrapInfo) (l : Launch),
      let g := s.group k
      s.launch? g.launch = some l → l.ending = none →
      (∀ h, g.handler = some h → ∃ m, (s.takeTrap k c).launch? g.launch = some m ∧ m.ending = some (2, g.reported))
        ∧ (g.handler = none → l.record.trapent = 0 →
            ∃ m, (s.takeTrap k c).launch? g.launch = some m ∧ m.ending = some (1, c)))

/-- STRET (R194): outside a handler it is ILLOP; in a handler whose lane block has retired it discards the understudy and the
scalar stream resumes at TRAPPC, or, for a lane trap, where it stood, with the trapping fragment at TRAPPC, to be reissued in
its unmarked threads, and every other fragment as it was; a TRAPPC moved past the trapping instruction passes the atomics after it that
have issued already (R307, R313); after a watchdog trap that fragment is ready, its count 0 (R126); after the trap of a late access, at an
unchanged TRAPPC or past its instruction, the stream stands where it stood, and at an unchanged one the accesses that met poison are taken
again (log 61). While a handler's access is on its way, STRET waits.
STRAP and SBRK take their traps with the code as information; SNOP
only passes (R87). -/
def Obligations.TrapReturn : Prop :=
  (∀ (s : State),
      let g := s.grp
      (g.handler = none → exec .stret s = .next (s.trapScalar cILLOP 0x73))
        ∧ (∀ h, g.handler = some h → (h.lane.running = true ∨ g.accesses ≠ []) →
            exec .stret s = .next (s.waitScalar .handlerBlock))
        ∧ (∀ h, g.handler = some h → h.lane.running = false → g.accesses = [] →
            exec .stret s = .next ((s.returnFromTrap s.cur h).resumeLate h.trap))
        ∧ (∀ h, g.handler = some h → h.lane.running = false → (h.trap.cause ≠ cWATCHDOG ∨ g.watchdogPc ≠ some g.trapPc) →
            h.trap.late = true →
            (h.trap.lane = true → (g.trapPc = h.trap.pc ∨ g.trapPc = h.trap.pc + 12) →
              (s.returnFromTrap s.cur h).grp.lane = g.lane.setFrag h.trap.frag (g.lane.frags.get Fragment.none h.trap.frag))
            ∧ (h.trap.lane = false → (g.trapPc = h.trap.pc ∨ g.trapPc = h.trap.pc + 4) →
              (s.returnFromTrap s.cur h).grp.pc = h.scalarPc))
        ∧ (∀ h, g.handler = some h → h.lane.running = false → (h.trap.cause ≠ cWATCHDOG ∨ g.watchdogPc ≠ some g.trapPc) →
            g.lates = [] → g.accesses = [] → h.trap.late = false → (h.trap.lane = true → (g.lane.frags.get Fragment.none h.trap.frag).mask ≠ 0) →
            ∃ t, exec .stret s = .next t ∧ OnlyGroup s t ∧ t.grp.handler = none ∧ t.grp.scalars = g.scalars
              ∧ (h.trap.lane = false → t.grp.pc = g.trapPc ∧ t.grp.lane = g.lane)
              ∧ (h.trap.lane = true → t.grp.pc = h.scalarPc
                  ∧ (t.grp.lane.frags.get Fragment.none h.trap.frag).pc = g.trapPc +
                      (if g.trapPc = h.trap.pc + 12 then BitVec.ofNat 64 (12 * (g.lane.frags.get Fragment.none h.trap.frag).ahead) else 0)
                  ∧ (h.trap.cause = cWATCHDOG → (t.grp.lane.frags.get Fragment.none h.trap.frag).count = 0
                      ∧ (t.grp.lane.frags.get Fragment.none h.trap.frag).state = .ready)
                  ∧ (g.trapPc = h.trap.pc → t.grp.threads = (g.putMarks h.marks).threads)
                  ∧ (∀ k, k ≠ h.trap.frag → t.grp.lane.frags.get Fragment.none k = g.lane.frags.get Fragment.none k)
                  ∧ t.grp.lane.stack = g.lane.stack ∧ t.grp.lane.cur = g.lane.cur)))
  ∧ (∀ (s : State) (code : BitVec 18),
      exec (.strap code) s = .next (s.takeTrap s.cur ⟨14, s.grp.pc, code.setWidth 64, false, 0, false⟩)
        ∧ exec (.sbrk code) s = .next (s.takeTrap s.cur ⟨13, s.grp.pc, code.setWidth 64, false, 0, false⟩)
        ∧ exec .snop s = .next (s.upd Group.advance))

/-! ### Lane arithmetic (R26, R29 to R31, R35, R93 to R116) -/

/-- The integer instructions of R98 and SREGR (R41, R102), over the integers: one that passes its checks and reads no poisoned register
writes its result in every active thread and its fragment passes. The long forms of MOVI write their immediate in every
thread whose predicate holds (R60). -/
def Obligations.LaneIntegerArithmetic : Prop :=
  (∀ (s : State) (w : LaneOps),
      let sg := signedType w.type
      let sat := w.fn.getLsbD 0
      let gives := fun (i : Instr) (f : Nat → Out) => s.Issues i → s.Clean w i → exec i s = .next (s.wrote w f)
      gives (.iadd w) (s.int2 w fun n a b => narrow n sg sat (readInt sg a + readInt sg b))
        ∧ gives (.isub w) (s.int2 w fun n a b => narrow n sg sat (readInt sg a - readInt sg b))
        ∧ gives (.imul w) (s.int2 w fun n a b => BitVec.ofInt n (readInt sg a * readInt sg b))
        ∧ gives (.imulh w) (fun t =>
            if wideType w.type then .w64 (BitVec.ofInt 64 (readInt sg (s.a64 w t) * readInt sg (s.b64 w t) / 2 ^ 64))
            else .w32 (BitVec.ofInt 32 (readInt sg (s.a32 w t) * readInt sg (s.b32 w t) / 2 ^ 32)))
        ∧ gives (.imad w) (s.int3 w fun n a b c => BitVec.ofInt n (readInt sg a * readInt sg b + readInt sg c))
        ∧ gives (.imin w) (s.int2 w fun _ a b => if readInt sg b < readInt sg a then b else a)
        ∧ gives (.imax w) (s.int2 w fun _ a b => if readInt sg a < readInt sg b then b else a)
        ∧ gives (.iabs w) (s.int1 w fun n a => narrow n true sat (a.toInt.natAbs : Int))
        ∧ gives (.mov w) (s.int1 w fun _ a => a)
        ∧ gives (.sregr w) (fun t => .w32 (BitVec.ofNat 32 (s.grp.selected t w.imm.toNat)))
        ∧ gives (.movi w) (fun _ =>
            .w32 ((BitVec.ofNat 20 (w.use.toNat * 2 ^ 17 + w.rnd.toNat * 2 ^ 14 + w.imm.toNat)).signExtend 32)))
  ∧ (∀ (s : State) (vd : VReg) (q : PReg) (neg : Bool) (imm : BitVec 64),
      let ts := s.activeBy q neg
      let after := fun (o : Out) => Host.Outcome.next (φ := Fault) (ρ := Refusal)
        ((s.putAll vd (ts.map fun t => (t, o))).passLane (passes (maskOf ts)))
      (s.Issues (.moviLong32 vd q neg imm) → exec (.moviLong32 vd q neg imm) s = after (.w32 (imm.setWidth 32)))
        ∧ (s.Issues (.moviLong64 vd q neg imm) → exec (.moviLong64 vd q neg imm) s = after (.w64 imm)))

/-- The bit instructions of R98 to R101 and QLOP (R127): logic, truth tables, shifts, counts, reversal, fields, comparison, selection; that
SRA of an unsigned type fills with zeros is the model's reading of R97 (log 77). The
bits of what the bit instructions give (R98 to R100): a truth table bit by bit, the reversal, the leading zeros, a field
taken out and put in. -/
def Obligations.LaneBitInstructions : Prop :=
  (∀ (s : State) (w : LaneOps),
      let sg := signedType w.type
      let gives := fun (i : Instr) (f : Nat → Out) => s.Issues i → s.Clean w i → exec i s = .next (s.wrote w f)
      let count := fun (f : (n : Nat) → BitVec n → Nat) (t : Nat) =>
        Out.w32 (BitVec.ofNat 32 (if wideType w.type then f 64 (s.a64 w t) else f 32 (s.a32 w t)))
      gives (.vand w) (s.int2 w fun _ a b => a &&& b) ∧ gives (.vor w) (s.int2 w fun _ a b => a ||| b)
        ∧ gives (.vxor w) (s.int2 w fun _ a b => a ^^^ b)
        ∧ gives (.blut w) (s.int3 w fun _ a b c => lut3 w.imm.toNat a b c)
        ∧ gives (.shl w) (s.int2 w fun n a b => BitVec.ofNat n (a.toNat * 2 ^ (b.toNat % n)))
        ∧ gives (.shr w) (s.int2 w fun n a b => BitVec.ofNat n (a.toNat / 2 ^ (b.toNat % n)))
        ∧ gives (.sra w) (s.int2 w fun n a b => BitVec.ofInt n (readInt sg a / 2 ^ (b.toNat % n)))
        ∧ gives (.rotr w) (s.int2 w fun n a b => a.rotateRight (b.toNat % n))
        ∧ gives (.popc w) (count fun n a => (List.range n).countP fun i => a.getLsbD i)
        ∧ gives (.clz w) (count fun _ a => leading a)
        ∧ gives (.brev w) (s.int1 w fun _ a => reverseBits a)
        ∧ gives (.bfx w) (fun t =>
            if wideType w.type then let f := fieldOf w (s.c32 w t) 64; .w64 (fieldExtract sg (s.a64 w t) f.1 f.2)
            else let f := fieldOf w (s.c32 w t) 32; .w32 (fieldExtract sg (s.a32 w t) f.1 f.2))
        ∧ gives (.bfi w) (fun t =>
            if wideType w.type then let f := fieldOf w (s.c32 w t) 64; .w64 (fieldInsert (s.a64 w t) (s.b64 w t) f.1 f.2)
            else let f := fieldOf w (s.c32 w t) 32; .w32 (fieldInsert (s.a32 w t) (s.b32 w t) f.1 f.2))
        ∧ gives (.icmp w) (fun t => .bit (
            if wideType w.type then compareInt sg (w.fn.toNat % 8) (s.a64 w t) (s.bi64 w t)
            else compareInt sg (w.fn.toNat % 8) (s.a32 w t) (s.bi32 w t)))
        ∧ gives (.sel w) (fun t =>
            let pick := s.grp.pred t (w.imm.toNat % 16) != w.imm.getLsbD 4
            if wideType w.type then .w64 (if pick then s.a64 w t else s.b64 w t) else .w32 (if pick then s.a32 w t else s.b32 w t))
        ∧ gives (.qlop w) (fun t => .bit
            (w.imm.getLsbD (2 * bitOf (s.grp.pred t w.va.toNat) + bitOf (s.grp.pred t w.vb.toNat)))))
  ∧ (∀ (n : Nat) (a b c : BitVec n) (table i pos len : Nat), i < n →
      ((lut3 table a b c).getLsbD i
          = table.testBit (bitOf (a.getLsbD i) + 2 * bitOf (b.getLsbD i) + 4 * bitOf (c.getLsbD i)))
        ∧ (reverseBits a).getLsbD i = a.getLsbD (n - 1 - i)
        ∧ (leading a ≤ n ∧ (n - leading a ≤ i → a.getLsbD i = false) ∧ (leading a < n → a.getLsbD (n - 1 - leading a) = true))
        ∧ (pos + len ≤ n → (fieldExtract false a pos len).getLsbD i = (decide (i < len) && a.getLsbD (pos + i)))
        ∧ (pos + len ≤ n → 0 < len → (fieldExtract true a pos len).getLsbD i = a.getLsbD (pos + min i (len - 1)))
        ∧ (pos + len ≤ n → (fieldInsert a b pos len).getLsbD i
            = if pos ≤ i ∧ i < pos + len then a.getLsbD (i - pos) else b.getLsbD i))

/-- The floating-point instructions of R107, R108, R110 and R112: an instruction that passes its checks and reads no poisoned register
writes, for each element, the value that the operation gives on the modified sources in the format of its type. Which values the special
functions give within R110's bounds is the model's choice (log 10). -/
def Obligations.LaneFloatArithmetic : Prop :=
  ∀ (s : State) (w : LaneOps),
    let f := fmtOf w.type
    let r := s.rndOf w.rnd
    let gives := fun (i : Instr) (op : Nat → Nat → Nat → Nat) => s.Issues i → s.Clean w i →
      exec i s = .next (s.wrote w fun t =>
        floatOut w.type (fun a b c => op (modified w 0 a) (modified w 2 b) (modified w 4 c))
          (s.aN w w.type t) (s.bN w w.type t) (s.cN w w.type t))
    gives (.fadd w) (fun a b _ => f.round r false ((f.read a).add r (f.read b)))
      ∧ gives (.fsub w) (fun a b _ => f.round r false ((f.read a).add r (f.read b).flip))
      ∧ gives (.fmul w) (fun a b _ => f.round r false ((f.read a).mul (f.read b)))
      ∧ gives (.ffma w) (fun a b c => f.round r false (((f.read a).mul (f.read b)).add r (f.read c)))
      ∧ gives (.fdiv w) (fun a b _ => f.round r false ((f.read a).div (f.mbits + 3) (f.read b)))
      ∧ gives (.fsqrt w) (fun a _ _ => f.round r false ((f.read a).sqrt (f.mbits + 4)))
      ∧ gives (.frnd w) (fun a _ _ => f.round r false ((f.read a).integral r))
      ∧ gives (.fmin w) (fun a b _ => f.minMax false a b) ∧ gives (.fmax w) (fun a b _ => f.minMax true a b)
      ∧ gives (.frcp w) (fun a _ _ => Special.rcp.eval f a) ∧ gives (.frsq w) (fun a _ _ => Special.rsq.eval f a)
      ∧ gives (.fex2 w) (fun a _ _ => Special.ex2.eval f a) ∧ gives (.flg2 w) (fun a _ _ => Special.lg2.eval f a)
      ∧ gives (.fsin w) (fun a _ _ => Special.sin.eval f a) ∧ gives (.fcos w) (fun a _ _ => Special.cos.eval f a)
      ∧ gives (.fsinpi w) (fun a _ _ => Special.sinpi.eval f a) ∧ gives (.fcospi w) (fun a _ _ => Special.cospi.eval f a)
      ∧ gives (.ftanh w) (fun a _ _ => Special.tanh.eval f a)

/-- Comparison, classification and conversion (R109, R111, R113 to R116): the low element decides a packed comparison; both
elements are classified; every element of a conversion is converted by itself. Rounding to a format (R104, R105): a value
that the format holds is kept as it is, whatever the rounding; NaN, infinities and zeros keep their kind. -/
def Obligations.LaneFloatConversions : Prop :=
  (∀ (s : State) (w : LaneOps),
      let f := fmtOf w.type
      let packed := packedType w.type
      let cv := convert w.type w.src (s.rndOf w.rnd) (w.fn.getLsbD 0)
      let gives := fun (i : Instr) (o : Nat → Out) => s.Issues i → s.Clean w i → exec i s = .next (s.wrote w o)
      gives (.fcmp w) (fun t => .bit (f.cmp w.imm.toNat
          (modified w 0 (if packed then s.aN w w.type t % 2 ^ 16 else s.aN w w.type t))
          (modified w 2 (if packed then s.bN w w.type t % 2 ^ 16 else s.bN w w.type t))))
        ∧ gives (.fclass w) (fun t => .w32 (BitVec.ofNat 32 (
            if packed then f.classify (s.aN w w.type t % 2 ^ 16) + 2 ^ 16 * f.classify (s.aN w w.type t / 2 ^ 16 % 2 ^ 16)
            else f.classify (s.aN w w.type t))))
        ∧ gives (.cvt w) (fun t =>
            if wideType w.type then .w64 (BitVec.ofNat 64 (cv (s.aN w w.src t))) else .w32 (placed w.type (cv (s.aN w w.src t))))
        ∧ gives (.pack w) (fun t => .w32 (BitVec.ofNat 32 (sideBySide (typeBits w.type)
            ((elements (s.a32 w t) w.src).map cv ++ (elements (s.b32 w t) w.src).map cv))))
        ∧ gives (.unpack w) (fun t => .w64 (BitVec.ofNat 64 (sideBySide (typeBits w.type)
            ((elements (s.a32 w t) w.src).map (convert w.type w.src .rne false))))))
  ∧ (∀ (f : Fmt) (r : Rnd) (bits : Nat), f = fmtF16 ∨ f = fmtB16 ∨ f = fmtF32 ∨ f = fmtF64 → bits < 2 * f.signBit →
      f.round r false (f.read bits) = if f.isNan bits then f.nan else bits)

/-- What a lane result changes: in the threads that receive it, the destination registers with their pair tags, or the destination
predicate. Every other register and pair tag, every other predicate and the term registers, unify stack and marks of every thread, the
scalar registers, the special registers, the accumulators, every other group and every byte of memory stay (R26, R35); in handler mode
the registers, tags and q8 to q15 are the understudy's (R191), of which the others stay as well, and so do the registers of the core and
the group's own q8 to q15. A lane result is what its threads read afterwards, a pair with its tag, and every other pair written is RAW
(R30, R35): for distinct threads of the group and registers of the window, and where no two threads share a pair. -/
def Obligations.LaneResultFrame : Prop :=
  (∀ (s : State) (vd : VReg) (rs : List (Nat × Out)),
      let g := s.grp
      let t := s.putAll vd rs
      let spared := fun (index : Nat → Nat → Nat) (x : Nat) => ∀ p ∈ rs, ∀ j < p.2.size, x ≠ index p.1 (vd.toNat + j)
      let sparedPred := fun (u q : Nat) => ∀ p ∈ rs, p.1 = u → (∃ v, p.2 = .bit v) → q ≠ vd.toNat
      SameMemory s t ∧ (∀ k, k ≠ s.cur → t.group k = s.group k) ∧ (∀ n, n ≠ g.core → t.core n = s.core n)
        ∧ { t.grp with threads := g.threads, handler := g.handler } = g
        ∧ { t.core g.core with regs := (s.core g.core).regs, regTags := (s.core g.core).regTags } = s.core g.core
        ∧ (∀ x, spared g.wordIndex x → (t.core g.core).regs.get 0 x = (s.core g.core).regs.get 0 x)
        ∧ (∀ x, spared (fun u r => g.wordIndex u r / 2) x → (t.core g.core).regTags.get 0 x = (s.core g.core).regTags.get 0 x)
        ∧ (g.handler.isSome = true → t.core g.core = s.core g.core)
        ∧ (∀ u, t.grp.thread u = { g.thread u with preds := (t.grp.thread u).preds })
        ∧ (∀ u q, (sparedPred u q ∨ g.handler.isSome = true ∧ 8 ≤ q) →
            (t.grp.thread u).preds.getLsbD q = (g.thread u).preds.getLsbD q)
        ∧ (g.handler = none → t.grp.handler = none)
        ∧ (∀ x, g.handler = some x → ∃ y, t.grp.handler = some y ∧ { y with regs := x.regs, tags := x.tags, preds := x.preds } = x
            ∧ (∀ k, spared (fun u r => u * 64 + r) k → y.regs.get 0 k = x.regs.get 0 k)
            ∧ (∀ k, spared (fun u r => u * 32 + r / 2) k → y.tags.get 0 k = x.tags.get 0 k)
            ∧ (∀ u q, (sparedPred u q ∨ q < 8) → (y.preds.get 0 u).getLsbD q = (x.preds.get 0 u).getLsbD q))
        ∧ { t with groups := s.groups, cores := s.cores } = s)
  ∧ (∀ (s : State) (vd : VReg) (rs : List (Nat × Out)),
      let g := s.grp
      let apart := g.handler.isSome = true ∨ (g.n % 2 = 0 ∧ g.rwb % 8 = 0) ∨ ∀ p ∈ rs, ∀ v, p.2 ≠ .tw v
      (rs.map (·.1)).Nodup → (∀ p ∈ rs, p.2.size = 0 ∨ vd.toNat + p.2.size ≤ g.registerBound) →
      let t := s.putAll vd rs
      ∀ p ∈ rs,
        (∀ v, p.2 = .w32 v → t.rdV p.1 vd.toNat = v ∧ (apart → t.rdTag p.1 vd.toNat = 0))
          ∧ (∀ v, p.2 = .w64 v → t.rdV64 p.1 vd.toNat = v ∧ (apart → t.rdTag p.1 vd.toNat = 0))
          ∧ (∀ v, p.2 = .tw v → t.rdV64 p.1 vd.toNat = v.value ∧ (apart → t.rdTW p.1 vd.toNat = v))
          ∧ (∀ vs, p.2 = .words vs → ∀ j v, vs[j]? = some v →
              t.rdV p.1 (vd.toNat + j) = v ∧ (apart → t.rdTag p.1 (vd.toNat + j) = 0))
          ∧ (∀ v, p.2 = .bit v → vd.toNat < 16 → t.grp.pred p.1 vd.toNat = (v || vd.toNat == 0)))

/-! ### Control of the lane stream (R117 to R127) -/

/-- BRM divides the fragment among the targets of its threads if the split table has room, and is ILLCONV with the number of
fragments it would need otherwise (R120); RCV pushes an entry for its label (R121), LEND parks the fragment (R124), GSET
resolves its slot by ANY, ALL or NONE of the active threads' predicate in one issue slot whatever its active set, its fourth mode
being ILLOP (R26, R127), LNOP only passes (R127), in the issue slots of R29 (log 67). -/
def Obligations.LaneControl : Prop :=
  ∀ (s : State) (s0 s1 s2 s3 : BrmSlot) (w : LaneOps),
    let l := s.grp.stream
    let slots := [s0, s1, s2, s3]
    let target := brmTarget l.frag.pc slots
    let ts := s.fragThreads
    let sets := groupBy (((List.range 5).filter fun k => ts.any fun t => s.brmSlot slots t == k).map target) ts fun t =>
      target (s.brmSlot slots t)
    let vs := (s.active w).map fun t => s.grp.pred t (w.imm.toNat / 16 % 16) != w.imm.getLsbD 8
    (s.Issues (.brm s0 s1 s2 s3) →
      exec (.brm s0 s1 s2 s3) s =
        if 16 < l.frags.length - 1 + sets.length then
          .next (s.trapLane cILLCONV (BitVec.ofNat 64 (l.frags.length - 1 + sets.length)))
        else .next (s.moveLane (passes l.frag.mask) fun l => l.divide sets))
      ∧ (s.Issues (.rcv w) → exec (.rcv w) s =
          .next ((s.upd fun g => g.setStream (l.push (l.frag.pc + BitVec.ofNat 64 (12 * w.imm.toNat)))).passLane (passes l.frag.mask)))
      ∧ (s.Issues (.lend w) → exec (.lend w) s =
          .next (s.moveLane (passes l.frag.mask) fun l => l.setFrag l.cur { l.frag with state := .ended }))
      ∧ (s.Issues (.gset w) → ∃ v, exec (.gset w) s =
          .next ((s.upd fun g => g.resolve (BitVec.ofNat 4 w.imm.toNat) v).passLane 1)
          ∧ (w.fn = 0 → v = vs.any id) ∧ (w.fn = 1 → v = vs.all id) ∧ (w.fn = 2 → v = !vs.any id))
      ∧ (w.fn.toNat % 4 = 3 → exec (.gset w) s = .next (s.trapLane cILLOP 0x53))
      ∧ (s.Issues (.lnop w) → exec (.lnop w) s = .next (s.passLane (laneSlots w s)))

/-- The sets of a division (R120, R167): every thread of the fragment lies in the set of its own target and in no other.
Reconvergence (R121 to R123): when the fragments parked under an entry cover its mask they become one fragment of that mask
at the entry's address, and the entry leaves the stack. -/
def Obligations.Divergence : Prop :=
  (∀ (order : List Dword) (ts : List Nat) (dest : Nat → Dword), (∀ t ∈ ts, dest t ∈ order) → (∀ t ∈ ts, t < 128) →
      (∀ t ∈ ts, ∃ m, (dest t, m) ∈ groupBy order ts dest ∧ m.getLsbD t = true)
        ∧ (∀ a m t, (a, m) ∈ groupBy order ts dest → m.getLsbD t = true → t ∈ ts ∧ dest t = a)
        ∧ ((groupBy order ts dest).map (·.1)).Nodup)
  ∧ (∀ (l : LaneStream) (e : RecEntry), l.complete = some e →
      let m := l.join e
      e ∈ l.stack ∧ (∃ k, m.frags.get Fragment.none k = { mask := e.mask, pc := e.addr, state := .ready, count := 0 })
        ∧ (∀ x ∈ m.stack, x.id ≠ e.id) ∧ (∀ x ∈ m.frags, x.2.state ≠ .parked e.id))

/-! ### Cross-lane instructions (R128 to R135) -/

/-- SHFL, BALLOT, VOTE, MATCH, REDUX, PSUM and VTOS complete with the results that the active threads' sources give (R130 to
R135), in a group none of whose registers is poisoned. A reduction goes in ascending lane order (R134): the partial result
with a thread joins that before it, and that before it is the one with the thread before. -/
def Obligations.CrossLane : Prop :=
  (∀ (s : State) (w : LaneOps), (∀ t r, s.rdTag t r ≠ tagPOI) →
      let ts := s.active w
      let wide := wideType w.type
      let n := s.grp.w
      let after := fun (t : State) => Host.Outcome.next (φ := Fault) (ρ := Refusal) (t.passLane (laneSlots w s))
      let put := fun (f : Nat → Out) => after (s.putAll w.vd (ts.map fun t => (t, f t)))
      let off := fun (t : Nat) => if w.immForm then (w.imm.toNat % 128 : Int) else (s.b32 w t).toInt
      let src := fun (t : Nat) =>
        match w.fn.toNat % 4 with
        | 0 => (off t % n).toNat
        | 1 => ((t + off t) % n).toNat
        | 2 => t ^^^ (off t % n).toNat
        | _ => ((off t - t) % n).toNat
      let p := fun (t : Nat) => s.grp.pred t (w.imm.toNat % 16) != w.imm.getLsbD 4
      let mask := fun (q : Nat → Bool) => Out.words ((List.range (max 1 (n / 32))).map fun k =>
        BitVec.ofNat 32 ((maskOf (ts.filter q)).toNat / 2 ^ (32 * k)))
      let partials := scan (w.fn.toNat % 8) w.type none (ts.map fun t => (t, s.aN w w.type t))
      (s.Issues (.shfl w) → exec (.shfl w) s =
          put fun t => if wide then .w64 (s.rdV64 (src t) w.va.toNat) else .w32 (s.rdV (src t) w.va.toNat))
        ∧ (s.Issues (.ballot w) → exec (.ballot w) s = put fun _ => mask p)
        ∧ (s.Issues (.vote w) → ∃ v, exec (.vote w) s = put (fun _ => .bit v)
            ∧ (w.fn = 0 → v = ts.any p) ∧ (w.fn = 1 → v = ts.all p) ∧ (w.fn = 2 → v = !ts.any p)
            ∧ (w.fn = 3 → v = (ts.all p || !ts.any p)))
        ∧ (s.Issues (.vmatch w) → exec (.vmatch w) s = put fun t => mask fun u => s.aN w w.type u == s.aN w w.type t)
        ∧ (s.Issues (.redux w) → ∀ x ∈ partials.getLast?, exec (.redux w) s = put fun _ => typedOut w.type x.2.2)
        ∧ (s.Issues (.redux w) → ts = [] → exec (.redux w) s = after s)
        ∧ (s.Issues (.psum w) → exec (.psum w) s = after (s.putAll w.vd (partials.map fun x =>
            (x.1, typedOut w.type (if w.fn.getLsbD 3 then x.2.1.getD (reduceIdentity (w.fn.toNat % 8) w.type) else x.2.2)))))
        ∧ (s.Issues (.vtos w) → ∀ t rest, ts = t :: rest → exec (.vtos w) s = after (s.upd fun g =>
            if wide then g.wrPair w.vd.toNat (s.a64 w t) else g.wrS w.vd.toNat (s.a32 w t)))
        ∧ (s.Issues (.vtos w) → ts = [] → exec (.vtos w) s = after s))
  ∧ (∀ (op : Nat) (type : BitVec 4) (xs : List (Nat × Nat)) (x : Nat × Nat) (init : Option Nat),
      let ys := scan op type init (xs ++ [x])
      ys.length = xs.length + 1 ∧ ys.take xs.length = scan op type init xs
        ∧ ∃ y, ys.getLast? = some y ∧ y.1 = x.1
          ∧ y.2.1 = ((scan op type init xs).getLast?.map (fun z => some z.2.2)).getD init
          ∧ y.2.2 = (match y.2.1 with
              | none => contribution op x.2
              | some a => combine op type a (contribution op x.2)))

/-! ### Memory instructions of the lane stream (R176 to R184, R279) -/

/-- Loads of the lane stream: once the access of every active thread that has not finished before passes its checks, LD and LDV write
what the bytes say in each thread whose bytes are there, the other threads' loads are on their way, and the fragment passes (R118, R178,
R181); in GLOBAL space the bytes are those of the L1's lines, little-endian (R5, R279). A load on its way writes its registers when a turn
of it finds its bytes. Without an active thread nothing happens (R26). A failed check is the first trap by
R189 and touches no thread; where a thread meets poison, the threads that loaded have their values and are marked, which of
the others these are being free (R184; log 5). LD.ACQ waits until every thread has loaded and then acquires at its scope (R179): it passes
once the acquire has completed, which advances the L1's counters of its scope and narrower (R283), and before that the stream waits, so
that no later lane access is performed. -/
def Obligations.LaneLoads : Prop :=
  (∀ (s : State) (w : LaneOps) (acc : List (Nat × Target)),
    let addr := s.address w (sext w.imm)
    let size := elemBytes w.type
    let slots := laneSlots w s
    let words := fun (v : Nat) => Out.words ((List.range w.vcount).map fun k => BitVec.ofNat 32 (v / 2 ^ (32 * k)))
    let into := fun (out : Nat → Out) (vs : List (Nat × Nat)) =>
      s.putAll w.vd (vs.flatMap fun x => (s.receivers w x.1).map fun r => (r, out x.2))
    let plain := fun (n : Nat) => w.order = 0 ∧ s.grp.acqL = none ∧ s.active w ≠ [] ∧ s.windowStall w n = none
    let checked := fun (n : Nat) => s.checkThreads w.space n false none addr (s.unmarked w)
    let found := fun (n : Nat) (pa : Nat → Nat) (line : Nat → Line) => w.space = 0 ∧ ∀ u ∈ s.unmarked w, ∃ tagged,
      s.Reaches (addr u) n aRead (pa u) tagged ∧ s.Holds (pa u) n (line u)
    let bytes := fun (n : Nat) (pa : Nat → Nat) (line : Nat → Line) => (s.unmarked w).map fun u =>
      (u, (line u).data.toNat / 2 ^ (8 * (pa u % 128)) % 2 ^ (8 * n))
    let gives := fun (i : Instr) (n : Nat) (out : Nat → Out) =>
      let r := s.loads i n acc
      let got := r.got.map fun x => (x.1, x.2.1)
      s.Issues i → plain n → checked n = .ok acc → r.fault = none →
        (r.poison = none → r.rest = [] → exec i s = .next ((into out got).passLane slots))
        ∧ (r.poison = none → r.rest ≠ [] → ∃ (t : State) (a : Access), exec i s = .next (t.passLane slots) ∧ SameMemory s t
            ∧ t.grp = { (into out got).grp with accesses := s.grp.accesses ++ [a] } ∧ t.cores = (into out got).cores
            ∧ a.instr = i ∧ a.scalar = false ∧ a.pc = s.grp.stream.frag.pc ∧ a.frag = s.grp.stream.cur
            ∧ a.accs.map (fun c => (c.thread, c.e)) = r.rest.map fun x => (x.1, x.2.e))
        ∧ (∀ x, r.poison = some x →
            exec i s = .next (((into out got).finished (got.map (·.1))).spend.trapLane cPOISON x))
    gives (.ld w) size (loadedOut w.type) ∧ gives (.ldv w) (4 * w.vcount) words
      ∧ (∀ pa line, s.Issues (.ld w) → s.Clean w (.ld w) → plain size → found size pa line →
          exec (.ld w) s = .next ((into (loadedOut w.type) (bytes size pa line)).passLane slots))
      ∧ (∀ pa line, s.Issues (.ldv w) → s.Clean w (.ldv w) → plain (4 * w.vcount) → found (4 * w.vcount) pa line →
          exec (.ldv w) s = .next ((into words (bytes (4 * w.vcount) pa line)).passLane slots))
      ∧ (∀ i, i = Instr.ld w ∨ i = Instr.ldv w → s.Issues i → s.active w = [] → exec i s = .next (s.passLane slots))
      ∧ (s.Issues (.ld w) → w.order = 1 → s.active w ≠ [] → s.windowStall w size = none → s.clamped w.scope.toNat = false →
          let k := s.l1Of s.grp.core
          let l := s.l1 k
          let r := s.loads (.ld w) size acc
          let loaded := into (loadedOut w.type) (r.got.map fun x => (x.1, x.2.1))
          (s.grp.acqL = none → checked size = .ok acc →
            (r.rest ≠ [] → exec (.ld w) s = .next ((s.fetchAll r.lines true w.scope.toNat).waitLane .acquire).noteIssued)
            ∧ (r.rest = [] → r.fault = none → r.poison = none →
              (∀ t, loaded.acquire w.scope.toNat true = .done t → exec (.ld w) s = .next (t.passLane slots))
              ∧ (∀ t, loaded.acquire w.scope.toNat true = .wait t → exec (.ld w) s = .next (t.waitLane .acquire).noteIssued)
              ∧ (s.grp.fellL = false → l.sweeping = false → s.acksOut k = false → l.c < 63 → l.h < 63 → l.p < 63 → l.s < 63 →
                2 ≤ w.scope.toNat → ∃ t u, exec (.ld w) s = .next (State.passLane t slots)
                  ∧ OnlyGroup loaded u ∧ t = { u with l1s := t.l1s, sectors := t.sectors, slices := t.slices }
                  ∧ (t.l1 k).c = l.c + 1 ∧ (t.l1 k).h = l.h + (if 3 ≤ w.scope.toNat then 1 else 0)
                  ∧ (t.l1 k).p = l.p + (if 4 ≤ w.scope.toNat then 1 else 0) ∧ (t.l1 k).s = l.s + (if 5 ≤ w.scope.toNat then 1 else 0))))
          ∧ (s.grp.acqL.isSome = true →
            (∀ t, s.acquire w.scope.toNat true = .done t → exec (.ld w) s = .next (t.passLane slots))
            ∧ (∀ t, s.acquire w.scope.toNat true = .wait t → exec (.ld w) s = .next (t.waitLane .acquire).noteIssued)))
      ∧ (∀ c x, s.Issues (.ld w) → plain size → checked size = .error (c, x) → exec (.ld w) s = .next (s.trapLane c x)))
  ∧ (∀ (s : State) (w : LaneOps) (a : Access) (c : Acc) (x : Line),
      s.grp.life = .resident → s.grp.accesses.find? (fun y => y.id == a.id) = some a → a.accs = [c] → c.atom = none → c.space = 0 →
      s.accWaits a c = false → (s.l1 (s.l1Of s.grp.core)).sweeping = false →
      let landed := fun (n : Nat) (out : Nat → Out) => s.Holds c.at_ n x → c.at_ % 128 + n ≤ 128 →
        s.runAccess s.cur a.id = (s.putIn c.takers w.vd (out (x.data.toNat / 2 ^ (8 * (c.at_ % 128)) % 2 ^ (8 * n)))).upd fun g =>
          g.setAccess { a with accs := [] }
      (a.instr = .ld w → landed (elemBytes w.type) (loadedOut w.type))
        ∧ (a.instr = .ldv w → landed (4 * w.vcount) fun v => .words ((List.range w.vcount).map fun k => BitVec.ofNat 32 (v / 2 ^ (32 * k)))))

/-- Stores of the lane stream: once the access of every active thread that has not finished before passes its checks and none
of them faults or reads a poisoned register, ST and STV store every such thread's bytes, in ascending thread order, and the fragment
passes; a GLOBAL store goes to the L1 and sets the effect bit (R46, R178, R180, R181, R279). Without an active thread nothing happens
(R26). ST.REL stores only after the release of its scope, and while the group has unacknowledged writes it waits and stores nothing
(R179), and so it does while a read of the group is on its way (R377); at a narrow scope its GLOBAL stores are pinned (R285). -/
def Obligations.LaneStores : Prop :=
  ∀ (s t : State) (w : LaneOps) (acc : List (Nat × Target)),
    let addr := s.address w (sext w.imm)
    let size := elemBytes w.type
    let mode := if size = 8 then TagMode.keep else .set 0
    let plain := fun (s : State) (t : Target) (n v : Nat) (m : TagMode) => s.storeAt t n v m
    let after := fun (some_ : Bool) (t : State) => Host.Outcome.next (φ := Fault) (ρ := Refusal)
      ((if some_ then t.setEffect else t).passLane (laneSlots w s))
    let ready := fun (n : Nat) => s.active w ≠ [] ∧ s.windowStall w n = none
    let stored := fun (n : Nat) (pa : Nat → Nat) (m : TagMode) (v : Nat → Nat) =>
      (s.unmarked w).foldl (fun (t : State) u => (t.storeL1 s.cur (pa u) n (v u) m).noteStore) s
    let mapped := fun (n : Nat) (pa : Nat → Nat) (tagged : Nat → Bool) => w.space = 0 ∧
      s.grp.unack + (s.unmarked w).length + (s.l1 (s.l1Of s.grp.core)).pins.length ≤ 1024 ∧ ∀ u ∈ s.unmarked w, s.Reaches (addr u) n aWrite (pa u) (tagged u)
    (s.Issues (.st w) → s.Clean w (.st w) → w.order = 0 → ready size →
        s.checkThreads w.space size true (some aWrite) addr (s.unmarked w) = .ok acc →
        (∀ a ∈ acc, ∀ k, s.storeAt a.2 size 0 mode ≠ .fault k) → (∀ a ∈ acc, ∀ c x, s.storeAt a.2 size 0 mode ≠ .trap c x) →
        s.stores size mode plain (acc.map fun a => (a.2, s.cN w w.type a.1 % 2 ^ (8 * size))) = .ok t →
        exec (.st w) s = after (w.space == 0 && !acc.isEmpty) t)
      ∧ (s.Issues (.st w) → s.Clean w (.st w) → w.order = 2 → ready size →
          s.checkThreads w.space size true (some aWrite) addr (s.unmarked w) = .ok acc →
          let scope := w.scope.toNat
          let releasing := fun (s : State) (t : Target) (n v : Nat) (m : TagMode) => releasingStore s t scope n v m
          let vs := acc.map fun a => (a.2, s.cN w w.type a.1 % 2 ^ (8 * size))
          (scope < 2 → s.grp.unack = 0 → s.readsOut s.grp = false → (∀ a ∈ acc, ∀ k, releasing s a.2 size 0 mode ≠ .fault k) →
            (∀ a ∈ acc, ∀ c x, releasing s a.2 size 0 mode ≠ .trap c x) →
            s.stores size mode releasing vs = .ok t → exec (.st w) s = after (w.space == 0 && !acc.isEmpty) t)
          ∧ (s.clamped scope = false → (s.grp.unack ≠ 0 ∨ s.readsOut s.grp = true) → exec (.st w) s = .next (s.waitLane .release).noteIssued))
      ∧ (s.Issues (.stv w) → s.Clean w (.stv w) → ready (4 * w.vcount) →
          s.checkThreads w.space (4 * w.vcount) true (some aWrite) addr (s.unmarked w) = .ok acc →
          (∀ a ∈ acc, ∀ k, s.storeAt a.2 (4 * w.vcount) 0 .keep ≠ .fault k) →
          (∀ a ∈ acc, ∀ c x, s.storeAt a.2 (4 * w.vcount) 0 .keep ≠ .trap c x) →
          s.stores (4 * w.vcount) .keep plain (acc.map fun a => (a.2, s.regsValue a.1 w.vc.toNat w.vcount)) = .ok t →
          exec (.stv w) s = after (w.space == 0 && !acc.isEmpty) t)
      ∧ (∀ pa tagged, s.Issues (.st w) → s.Clean w (.st w) → w.order = 0 → ready size → mapped size pa tagged →
          exec (.st w) s = after (!(s.unmarked w).isEmpty)
            (stored size pa mode fun u => s.cN w w.type u % 2 ^ (8 * size)))
      ∧ (∀ pa tagged, s.Issues (.stv w) → s.Clean w (.stv w) → ready (4 * w.vcount) → mapped (4 * w.vcount) pa tagged →
          exec (.stv w) s = after (!(s.unmarked w).isEmpty)
            (stored (4 * w.vcount) pa .keep fun u => s.regsValue u w.vc.toNat w.vcount))
      ∧ (∀ i, i = Instr.st w ∨ i = Instr.stv w → s.Issues i → s.active w = [] → exec i s = .next (s.passLane (laneSlots w s)))

/-- The checks of one access, in R189's order: a misaligned address is MISALIGN with it, an address outside its space PROT with it, in
CLUSTER space that of a core without a cast of the launch too, and a locked one RANGELOCK with the entry, the direction and the address
or the offset in scratch; in SCRATCH and WINDOW space nothing beyond the cast's scratch or the group's window passes (R176,
R187). An entry locks an access of its space, and of its context for GLOBAL, that touches its units and that it blocks (R185, R187). -/
def Obligations.AccessChecks : Prop :=
  ∀ (s : State) (e : Dword) (size : Nat) (write : Bool) (c : Cast), size ≠ 0 →
    let g := s.grp
    s.castOn g.launch g.core = some c →
    (∀ space, e.toNat % size ≠ 0 → s.checkAccess space e size write = .error (cMISALIGN, e))
      ∧ (e.toNat % size = 0 → canonical e = false → s.checkAccess 0 e size write = .error (cPROT, e))
      ∧ (e.toNat % size = 0 → c.scratchSize < e.toNat + size → s.checkAccess 1 e size write = .error (cPROT, e))
      ∧ (e.toNat % size = 0 → g.w * g.n * 4 < e.toNat + size → s.checkAccess 2 e size write = .error (cPROT, e))
      ∧ (∀ t, s.checkAccess 1 e size write = .ok t → c.scratch ≤ t.at_ ∧ t.at_ + size ≤ c.scratch + c.scratchSize)
      ∧ (∀ t, s.checkAccess 2 e size write = .ok t → g.rwb ≤ t.at_ ∧ t.at_ + size ≤ g.rwb + g.windowBytes)
      ∧ (∀ space t, s.checkAccess space e size write = .ok t → (s.checkLock g t size write).isNone = true)
      ∧ (e.toNat % size = 0 → canonical e = true → ∀ k, (s.core g.core).lockHit 0 (s.contextOf g) (e.toNat % 2 ^ 57) size write = some k →
          s.checkAccess 0 e size write =
            .error (cRANGELOCK, BitVec.ofNat 64 (k * 2 ^ 58 + bitOf write * 2 ^ 57 + e.toNat % 2 ^ 57)))
      ∧ (e.toNat % size = 0 → e.toNat + size ≤ c.scratchSize → ∀ k,
          (s.core g.core).lockHit 1 0 (c.scratch + e.toNat) size write = some k →
          s.checkAccess 1 e size write =
            .error (cRANGELOCK, BitVec.ofNat 64 (k * 2 ^ 58 + bitOf write * 2 ^ 57 + e.toNat % 2 ^ 57)))
      ∧ (e.toNat % size = 0 →
          let core := g.core / 4 * 4 + e.toNat / 2 ^ 21 % 4
          let off := e.toNat % 2 ^ 21
          (2 ^ 23 ≤ e.toNat → s.checkAccess 3 e size write = .error (cPROT, e))
          ∧ (s.castOn g.launch core = none → s.checkAccess 3 e size write = .error (cPROT, e))
          ∧ (∀ d, s.castOn g.launch core = some d →
              (d.saved.isSome = true ∨ d.scratchSize < off + size → s.checkAccess 3 e size write = .error (cPROT, e))
              ∧ (e.toNat < 2 ^ 23 → d.saved = none → off + size ≤ d.scratchSize →
                  (∀ k, (s.core core).lockHit 1 0 (d.scratch + off) size write = some k →
                    s.checkAccess 3 e size write =
                      .error (cRANGELOCK, BitVec.ofNat 64 (k * 2 ^ 58 + bitOf write * 2 ^ 57 + off)))
                  ∧ ((s.core core).lockHit 1 0 (d.scratch + off) size write = none →
                    s.checkAccess 3 e size write = .ok ⟨3, core, d.scratch + off, e⟩))))
      ∧ (∀ (x : Core) (space ctx lo : Nat),
          x.lockHit space ctx lo size write = none ↔ ∀ p ∈ x.locks, ∀ l, p.2 = some l →
            ¬(l.space = space ∧ (space = 0 → l.context = ctx) ∧ (l.write = true ∨ write = true)
              ∧ l.lo * 256 < lo + size ∧ lo < l.hi * 256))

/-- PREF asks for the lines that its active threads name, each by a read of the L1 or, in its slice form, by a request that ends at
the slice, and CWB writes back the copies of the lines named, which its dropping form drops; both pass, with no register written (R182,
R183). A line asked for has a request on its way; the bytes of an unpinned line that the group has not sent leave as its own write
request, and a line that is not dirty stays as it is. Both wait while the L1 sweeps (R284), CWB, by the model's reading of R27's range
(log 23), while the unacknowledged writes might overflow. -/
def Obligations.CacheInstructions : Prop :=
  (∀ (s : State) (w : LaneOps),
      let ask := fun (s : State) (line : Nat) =>
        if w.fn.getLsbD 6 then (s.post s.cur line .prefetch false 0 true).2 else s.prefetchLine line
      let back := fun (s : State) (line : Nat) =>
        let t := s.writeBack (s.l1Of s.grp.core) line
        if w.fn.getLsbD 6 then t.dropLine (s.l1Of s.grp.core) line else t
      let named := s.namedLines (.cwb w) w false
      let pins := (s.l1 (s.l1Of s.grp.core)).pins.length
      (s.Issues (.pref w) → s.sweepingHere = false →
        ∃ t, exec (.pref w) s = .next (State.passLane t (laneSlots w s)) ∧ t = (s.namedLines (.pref w) w true).foldl ask s
          ∧ SameMemory s t ∧ t.groups = s.groups ∧ t.cores = s.cores)
        ∧ (s.Issues (.cwb w) → s.Clean w (.cwb w) → s.sweepingHere = false → s.grp.unack + named.length + pins ≤ 1024 →
            ∃ t, exec (.cwb w) s = .next (State.passLane t (laneSlots w s)) ∧ t = named.foldl back s
              ∧ SameMemory s t ∧ t.cores = s.cores)
        ∧ (s.Issues (.pref w) → s.sweepingHere = true → exec (.pref w) s = .next (s.waitLane .load).noteIssued)
        ∧ (s.Issues (.cwb w) → s.Clean w (.cwb w) → s.sweepingHere = true → exec (.cwb w) s = .next (s.waitLane .load).noteIssued)
        ∧ (s.Issues (.cwb w) → s.Clean w (.cwb w) → s.sweepingHere = false → 1024 < s.grp.unack + named.length + pins →
            exec (.cwb w) s = .next (s.waitLane .store).noteIssued))
  ∧ (∀ (s : State) (line : Nat),
      let k := s.l1Of s.grp.core
      (s.prefetchLine line).readPending s.cur k line false true = true
        ∧ (∃ id r, (s.post s.cur line .prefetch false 0 true).2.req? id = some r ∧ r.kind = .prefetch ∧ r.line = line ∧ r.group = s.cur)
        ∧ (s.dropLine k line).l1 k = { s.l1 k with lines := (s.l1 k).lines.set none line none }
        ∧ (∀ x, (s.l1 k).lines.get none line = some x → x.pinned = false → x.dirty = 0 → s.writeBack k line = s)
        ∧ (∀ x m, (s.l1 k).lines.get none line = some x → x.pinned = false → x.dirty ≠ 0 → x.unsent = [(s.cur, m)] → m ≠ 0 →
            ∃ id r, (s.writeBack k line).req? id = some r ∧ r.line = line ∧ r.group = s.cur
              ∧ r.kind = .write x.data m x.tags (x.unsentTags.get 0 s.cur) false))

/-! ### Atomics (R298 to R313) -/

/-- The atomics of the lane stream: on scratchpad every thread's step is made and the fragment passes; in GLOBAL space the
steps are sent to the homes of their lines, and the fragment passes while their answers, for which the destination registers are held,
are on their way (R118); before an acquire it waits until every active thread has had its answer (R302, R306, R307). An ordered one makes
its release before its first steps, and passes once its acquire, which follows them, has completed (R179, R302). A use of .QNT returns a value that the word has held since the
request came to its site, every other use the one it finds (R307). Two threads that name one address are SAMEADDR (R304). Without
an active thread nothing happens (R26). -/
def Obligations.LaneAtomics : Prop :=
  (∀ (s : State) (w : LaneOps) (i : Instr) (k : AtomKind) (acc : List (Nat × Target)),
    (i, k) ∈ [(Instr.atom w, ⟨0, w.atomOp, true, true⟩), (Instr.cas w, ⟨1, 6, true, true⟩), (Instr.red w, ⟨0, w.atomOp, false, true⟩),
      (Instr.fatom w, ⟨0, w.atomOp, true, true⟩), (Instr.lres w, ⟨2, 0, true, false⟩), (Instr.scond w, ⟨3, 0, true, true⟩)] →
    s.Issues i → s.grp.acqL = none → s.stepsOut = false → s.grp.poisoned = [] →
    let size := elemBytes w.type
    let addr := s.address w ((w.imm.setWidth 10).signExtend 64)
    let access := if k.form = 2 then aRead else aAtomic
    let released := w.order = 0 ∨ (w.order = 1 ∧ s.clamped w.scope.toNat = false) ∨ ((w.order = 2 ∨ w.order = 3) ∧ w.scope.toNat < 2 ∧ s.grp.unack = 0
      ∧ s.readsOut s.grp = false)
    let relaxed := w.order = 0 ∨ w.order = 2
    let passed := fun (t : State) => Host.Outcome.next (φ := Fault) (ρ := Refusal)
      ((t.upd fun g => { g with fellL := false, lostL := false }).passLane (laneSlots w s))
    let checked := s.checkThreads w.space size k.writes (some access) addr (s.active w) = .ok acc
    let fresh := s.active w ≠ [] ∧ ∀ t ∈ s.active w, (s.grp.thread t).mark = false
    let apart := k.form = 2 ∨ sameAddress (acc.map fun a => a.2.e) = none
    (s.active w = [] → exec i s = .next (s.passLane (laneSlots w s)))
      ∧ (relaxed → s.active w ≠ [] → (∀ t ∈ s.active w, (s.grp.thread t).mark = true) → exec i s = passed s)
      ∧ (¬relaxed → s.clamped w.scope.toNat = false → s.active w ≠ [] → (∀ t ∈ s.active w, (s.grp.thread t).mark = true) →
          s.grp.lostL = false → ∀ t, (s.upd fun g => { g with lostL := false }).acquire w.scope.toNat true = .done t →
            exec i s = .next (t.passLane (laneSlots w s)))
      ∧ ((w.order = 2 ∨ w.order = 3) → s.clamped w.scope.toNat = false → (s.grp.unack ≠ 0 ∨ s.readsOut s.grp = true) → fresh → checked → apart →
          exec i s = .next (s.waitLane .release).noteIssued)
      ∧ (∀ t, relaxed → released → fresh → checked → apart → w.space ≠ 0 → s.scratchHeld w acc = false →
          s.scratchAtomics i w k acc = .ok t → exec i s = passed t)
      ∧ (∀ t u, ¬relaxed → released → s.clamped w.scope.toNat = false → fresh → checked → apart → w.space ≠ 0 →
          s.scratchHeld w acc = false → s.scratchAtomics i w k acc = .ok t → s.grp.lostL = false →
          (t.upd fun g => { g with lostL := false }).acquire w.scope.toNat true = .done u → exec i s = .next (u.passLane (laneSlots w s)))
      ∧ (∀ sites, released → fresh → checked → apart → w.space = 0 → s.sweepingHere = false →
          acc.map (s.siteOf i access) = sites.map Sent.site → s.grp.unack + sites.length ≤ 1024 → s.sitesHeld w sites = false →
          (relaxed → exec i s = passed (s.sendAtomics w k true sites))
          ∧ (¬relaxed → s.clamped w.scope.toNat = false →
              exec i s = .next ((s.sendAtomics w k false sites).waitLane .acquire).noteIssued))
      ∧ (∀ e, (relaxed ∨ s.clamped w.scope.toNat = false) → fresh → checked → k.form ≠ 2 → sameAddress (acc.map fun a => a.2.e) = some e →
          exec i s = .next (s.trapLane cSAMEADDR e)))
  ∧ (∀ (s : State) (a : AtomReq) (old : Nat),
      (a.use ≠ 4 → s.quantum a old = old) ∧ (a.use = 4 → s.quantum a old = old ∨ s.quantum a old ∈ a.seen))

/-- XCHG meets a waiting partner of its launch and tag in another cluster and both sides complete; with none, its .NOWAIT
form writes status 1 and passes, and otherwise it waits (R269, R270). Without an active thread it neither meets nor waits (R26). -/
def Obligations.Exchange : Prop :=
  ∀ (s : State) (w : LaneOps), s.Issues (.xchg w) → s.Clean w (.xchg w) →
    let me := s.xchgSide s.cur w
    let tag := w.imm.setWidth 12
    (s.active w = [] → exec (.xchg w) s = .next (s.passLane (laneSlots w s)))
    ∧ (s.active w ≠ [] → s.grp.xchg = none → (∀ k f, s.xchgPartner tag = some (k, f) → exec (.xchg w) s =
      .next (((s.exchange me (s.xchgSide k f.ops)).leaveXchg k f.ops).passLane (laneSlots w s)))
      ∧ (s.xchgPartner tag = none → w.imm.toNat / 4096 = 3 →
          exec (.xchg w) s = .next ((s.putStatus me 1).passLane (laneSlots w s)))
      ∧ (s.xchgPartner tag = none → w.imm.toNat / 4096 ≠ 3 →
          ∃ t, exec (.xchg w) s = .next t ∧ t.grp.xchg = some ⟨tag, s.fresh, s.grp.stream.cur, w⟩ ∧ t.grp.pc = s.grp.pc))

/-! ### Terms (R144 to R168) -/

/-- The instructions on term words and tags: TLD and TST move a word with its tag (R155), a TLD whose bytes are not there being on its way
as other loads are (R118), and a page that keeps no tags discarding what TST writes to them (R24); TMK makes one (R156), TGET reads a
tag or a register of the term unit (R157), TSET.TAG sets a tag (R158), TTEST compares one (R159), FUNC.MAKE makes a functor
(R146, R159); a tag of 9 or more is ILLTAG (R145). That TTEST, TGET.TAG and TSET.TAG read only a tag is the model's reading
(log 22). -/
def Obligations.TermWords : Prop :=
  (∀ (s t : State) (w : LaneOps) (acc : List (Nat × Target)),
    let ts := s.active w
    let after := fun (u : State) => Host.Outcome.next (φ := Fault) (ρ := Refusal) (u.passLane (laneSlots w s))
    let put := fun (f : Nat → Out) => after (s.putAll w.vd (ts.map fun t => (t, f t)))
    let tag : Tag := w.imm.setWidth 4
    let addr := s.address w (sext w.imm)
    let ready := ts ≠ [] ∧ s.windowStall w 8 = none
    (s.Issues (.tld w) → ready → s.checkThreads w.space 8 false none addr (s.unmarked w) = .ok acc →
        let r := s.loads (.tld w) 8 acc
        let loaded := s.putAll w.vd (r.got.map fun x => (x.1, .tw ⟨BitVec.ofNat 64 x.2.1, x.2.2.headD 0⟩))
        r.fault = none → r.poison = none →
        (r.rest = [] → exec (.tld w) s = after loaded)
        ∧ (r.rest ≠ [] → ∃ (u : State) (a : Access), exec (.tld w) s = after u ∧ SameMemory s u ∧ u.cores = loaded.cores
            ∧ u.grp = { loaded.grp with accesses := s.grp.accesses ++ [a] } ∧ a.instr = .tld w ∧ a.scalar = false
            ∧ a.pc = s.grp.stream.frag.pc ∧ a.accs.map (fun c => (c.thread, c.e)) = r.rest.map fun x => (x.1, x.2.e)))
      ∧ (s.Issues (.tst w) → s.Clean w (.tst w) → ready → s.checkThreads w.space 8 true (some aWrite) addr (s.unmarked w) = .ok acc →
          (∀ a ∈ acc, ∀ k, s.storeAt a.2 8 0 .keep ≠ .fault k) → (∀ a ∈ acc, ∀ c x, s.storeAt a.2 8 0 .keep ≠ .trap c x) →
          acc.foldl (fun (r : StoreRes) a =>
            match r with
            | .ok u => u.storeAt a.2 8 (s.rdV64 a.1 w.vc.toNat).toNat (.word (s.rdTag a.1 w.vc.toNat))
            | _ => r) (.ok s) = .ok t →
          exec (.tst w) s = after (if w.space = 0 ∧ acc ≠ [] then t.setEffect else t))
      ∧ (∀ i, i = Instr.tld w ∨ i = Instr.tst w → s.Issues i → ts = [] → exec i s = after s)
      ∧ (s.Issues (.tmk w) → s.Clean w (.tmk w) → tag.toNat < 9 → exec (.tmk w) s = put fun t =>
          .tw ⟨if w.immForm then BitVec.signExtend 64 (BitVec.ofNat 10 (w.imm.toNat / 16)) else s.a64 w t, tag⟩)
      ∧ (s.Issues (.tmk w) → 9 ≤ tag.toNat → ∀ x xs, ts = x :: xs →
          exec (.tmk w) s = .next (s.trapLane cILLTAG (threadInfo tag.toNat x)))
      ∧ (s.Issues (.tget w) → exec (.tget w) s = put fun t =>
          match w.fn.toNat with
          | 0 => .w32 ((s.rdTag t w.va.toNat).setWidth 32)
          | 1 => .w64 (s.thr t).htop
          | 2 => .w64 (s.thr t).ttop
          | 3 => .w64 (s.thr t).ctop
          | 4 => .w32 (BitVec.ofNat 32 (s.thr t).wtop)
          | 5 => .w64 (s.thr t).hlim
          | 6 => .w64 (s.thr t).tlim
          | 7 => .w64 (s.thr t).cbase
          | _ => .w64 (s.thr t).clim)
      ∧ (s.Issues (.tset w) → s.Clean w (.tset w) → w.fn = 0 → (∀ t ∈ ts, (s.a32 w t).toNat % 16 < 9) → exec (.tset w) s =
          after (ts.foldl (fun u t => u.setTag t w.vd.toNat ((s.a32 w t).setWidth 4)) s))
      ∧ (s.Issues (.ttest w) → exec (.ttest w) s = put fun t => .bit (s.rdTag t w.va.toNat == tag))
      ∧ (s.Issues (.func w) → s.Clean w (.func w) → w.fn = 0 → exec (.func w) s = .next (s.wrote w fun t =>
          .tw ⟨BitVec.ofNat 64 ((s.a32 w t).toNat * 65536 + (s.b32 w t).toNat % 65536), tagFUN⟩)))
  ∧ (∀ (s : State) (w : LaneOps) (a : Access) (c : Acc) (x : Line),
      s.grp.life = .resident → s.grp.accesses.find? (fun y => y.id == a.id) = some a → a.instr = .tld w → a.accs = [c] →
      c.atom = none → c.space = 0 → s.accWaits a c = false → (s.l1 (s.l1Of s.grp.core)).sweeping = false → s.Holds c.at_ 8 x →
      c.at_ % 8 = 0 →
      let tag : Tag := if c.tagged then BitVec.ofNat 4 (x.tags.toNat / 2 ^ (4 * (c.at_ % 128 / 8))) else 0
      s.runAccess s.cur a.id = (s.putIn c.takers w.vd (.tw ⟨BitVec.ofNat 64 (x.data.toNat / 2 ^ (8 * (c.at_ % 128))), tag⟩)).upd fun g =>
        g.setAccess { a with accs := [] })
  ∧ (∀ t : Tag, (TagMode.word t).onPage true = .word t ∧ (TagMode.word t).onPage false = .keep)

/-- The instructions that run separately in each active thread (R153): once every thread that has not finished before
completes its steps, the fragment passes. COMMIT passes once every active thread has cleared its wings (R168), BACKTRACK
divides the fragment among the alternatives of its threads (R167). -/
def Obligations.TermThreads : Prop :=
  ∀ (s t : State) (w : LaneOps),
    let ts := s.unmarked w
    let runs := fun (effect : Bool) (run : Act Unit) => runThreads effect run ts s = (t, [])
    let passed := Host.Outcome.next (φ := Fault) (ρ := Refusal) (t.passLane (laneSlots w s))
    (s.Issues (.tset w) → w.fn ≠ 0 → runs true (tsetThread w) → exec (.tset w) s = passed)
      ∧ (s.Issues (.func w) → w.fn ≠ 0 → s.wrongTag w (if w.fn = 3 then tagSTR else tagFUN) ts = none → runs false (funcThread w) →
          exec (.func w) s = passed)
      ∧ (s.Issues (.deref w) → runs false (derefThread w) → exec (.deref w) s = passed)
      ∧ (s.Issues (.bind w) → runs true (bindThread w) → exec (.bind w) s = passed)
      ∧ (s.Issues (.unify w) → runs true (unifyThread w) → exec (.unify w) s = passed)
      ∧ (s.Issues (.halloc w) → runs true (hallocThread w) → exec (.halloc w) s = passed)
      ∧ (s.Issues (.choice w) → runs true (choiceThread w) → exec (.choice w) s = passed)
      ∧ (s.Issues (.nextalt w) → runs true (nextaltThread w) → exec (.nextalt w) s = passed)
      ∧ (s.Issues (.cut w) → runs true (cutThread w) → exec (.cut w) s = passed)
      ∧ (s.Issues (.backtrack w) → (∀ x ∈ s.active w, (s.thr x).progress = 0) → ∀ p, backtrackPlan s ts = .ok p →
          runThreads true (backtrackThread w.vd.toNat) ts p = (t, []) →
          exec (.backtrack w) s =
            .next ((t.upd fun g => g.clearMarksIn t.fragThreads).moveLane (laneSlots w p) fun l => l.divide t.backtrackSets))
      ∧ (s.Issues (.commit w) → s.stepsOut = false → s.grp.poisoned = [] → (∃ x ∈ s.active w, (s.thr x).begun = true) →
          commitThreads w.vd.toNat ts s = .done t → exec (.commit w) s = passed)
      ∧ (s.Issues (.commit w) → s.active w = [] → exec (.commit w) s = .next (s.passLane (laneSlots w s)))

/-- One thread's instruction from its first step. HALLOC takes n words off the heap, and in its .VAR form makes each of them an unbound
variable by a store of its own, the lowest first (R163); CHOICE puts one record on the choice stack
(R164), CUT.ONE takes one off it and CUT.TO goes down to a record (R166), TSET moves a region with its limit (R158), BindVar leaves one
trail entry or no store (R161), and a Deref that ends at a variable ends at an unbound one (R160); the traps stand in
R163, R164, R166 and R158, with the addresses compared as integers (R9). NEXTALT replaces the low half of the word at CTOP + 24 (R165);
FUNC takes a functor's name or arity, or an argument's address, and a header that is no functor is ILLTAG (R159); UNIFY examines a pair
as R162 says, its two words followed to their ends (by 1024 loads at most), and ends with its unify stack empty on success and failure,
and with work left where its budget is used up. A step that was completed is not made again, and the first that is performed sets the
effect bit (R153, R154). -/
def Obligations.TermThreadSteps : Prop :=
  ∀ (s : State) (t : Nat) (w : LaneOps) (a b : Dword) (v : TWord) (n : Nat),
    let x := s.thr t
    let words := w.imm.toNat
    let record := if x.ctop = 0 then x.cbase.toNat else x.ctop.toNat + 96
    let run := fun (act : Act Unit) => runThread true act t s
    let prot := fun (act : Act Unit) (code : Nat) => run act = (s, some (.trap cPROT (threadInfo code t)))
    examine = examineWith 1024
      ∧ (∀ (f : State → Nat → State × Except Stop TWord) (performs : Bool) (c : Runner) (v : TWord), (s.thr c.t).done[n]? = some v →
        Act.step f performs c s n = (s, .ok (v, n + 1)))
      ∧ (∀ (f : State → Nat → State × Except Stop TWord) (u : State) (v : TWord), x.done = [] → f s t = (u, .ok v) →
          let r := Act.step f true ⟨t, true⟩ s 0
          r.2 = .ok (v, 1) ∧ r.1.grp.effect = true ∧ (r.1.thr t).done = (u.thr t).done ++ [v])
      ∧ (x.htop = 0 → prot (hallocThread w) 1)
      ∧ (x.htop ≠ 0 → x.hlim.toNat < x.htop.toNat + 8 * words → prot (hallocThread w) 4)
      ∧ (x.cbase = 0 → prot (choiceThread w) 3)
      ∧ (x.cbase ≠ 0 → x.clim.toNat < record + 96 → prot (choiceThread w) 5)
      ∧ (x.ctop = 0 → prot (nextaltThread w) 7)
      ∧ (x.done = [] →
          (w.fn.getLsbD 0 = false → x.htop ≠ 0 → x.htop.toNat + 8 * words ≤ x.hlim.toNat → ∃ u, run (hallocThread w) = (u, none)
            ∧ (u.thr t).htop = x.htop + BitVec.ofNat 64 (8 * words) ∧ (u.thr t).hlim = x.hlim ∧ u.grp.effect = true ∧ u.mem = s.mem)
          ∧ (∀ u, w.fn.getLsbD 0 = true → x.progress = 0 → run (hallocThread w) = (u, none) →
              (u.thr t).htop = x.htop + BitVec.ofNat 64 (8 * words) ∧ (u.thr t).hlim = x.hlim ∧ u.grp.effect = true
                ∧ ∃ before after : Nat → State, before 0 = s
                    ∧ (∀ j < words,
                        let at_ := x.htop + BitVec.ofNat 64 (8 * j)
                        (before j).wordStore 0 at_ ⟨at_, tagVAR⟩ = .ok (after j) ∧ OnlyGroup (after j) (before (j + 1)))
                    ∧ u.l1s = (before words).l1s ∧ SameMemory (before words) u)
          ∧ (∀ u, run (choiceThread w) = (u, none) → (u.thr t).ctop = BitVec.ofNat 64 record ∧ u.grp.effect = true)
          ∧ (∀ m, w.fn = 1 → x.ctop ≠ 0 → s.wordLoad 0 x.ctop = .ok m →
              ∃ u, run (cutThread w) = (u, none) ∧ (u.thr t).ctop = m.value)
          ∧ (∀ u, w.fn ≠ 1 → run (cutThread w) = (u, none) → (u.thr t).ctop = s.a64 w t
              ∧ (s.a64 w t = 0 ∨ (x.cbase ≤ s.a64 w t ∧ s.a64 w t ≤ x.ctop ∧ (s.a64 w t - x.cbase).toNat % 96 = 0)))
          ∧ (s.a64 w t = a → s.b64 w t = b → a.toNat % 8 = 0 → b.toNat % 8 = 0 →
              (a ≤ b → x.ctop = 0 → s.regPoison t (Instr.tset w).sources = none →
                ∃ u, run (tsetThread w) = (u, none)
                  ∧ (w.fn = 1 → u.thr t = { x with htop := a, hlim := b, mark := true })
                  ∧ (w.fn = 2 → u.thr t = { x with ttop := a, tlim := b, mark := true })
                  ∧ (w.fn = 3 → u.thr t = { x with cbase := a, clim := b, ctop := 0, mark := true }))
              ∧ (b < a ∨ x.ctop ≠ 0 → prot (tsetThread w) 8))
          ∧ (∀ u k, bindVar a v ⟨t, true⟩ s 0 = (u, .ok (0, k)) →
              (u.thr t).ttop = x.ttop + 16 ∧ (u.thr t).htop = x.htop ∧ (u.thr t).ctop = x.ctop)
          ∧ (∀ u k, bindVar a v ⟨t, true⟩ s 0 = (u, .ok (3, k)) →
              OnlyGroup s u ∧ SameMemory s u ∧ u.thr t = { x with done := (u.thr t).done })
          ∧ (∀ u r k, deref n v ⟨t, true⟩ s 0 = (u, .ok (r, k)) → r.tag = tagVAR → s.wordLoad 0 r.value = .ok r
              ∧ (s.inShared r.value = true → ∃ u' k', wingFind r.value ⟨t, true⟩ s 0 = (u', .ok (none, k'))))
          ∧ (∀ u, run (nextaltThread w) = (u, none) → ∃ m s₁ s₂, s.wordLoad 0 (x.ctop + 24) = .ok m ∧ OnlyGroup s s₁
              ∧ s₁.wordStore 0 (x.ctop + 24) ⟨pairOf (BitVec.ofNat 32 (s.altIndex (sext w.imm))) (hiHalf m.value), 0⟩ = .ok s₂
              ∧ OnlyGroup s₂ u ∧ (u.thr t).ctop = x.ctop)
          ∧ (∀ i < 2 ^ 32, s.grp.stream.frag.pc = (s.recordOf s.grp).lcode + BitVec.ofNat 64 (12 * i) →
              (s.altIndex (sext w.imm) : Int) = (i + w.imm.toInt) % 2 ^ 32)
          ∧ (let func := runThread false (funcThread w) t s
             let p := s.a64 w t
             (w.fn = 1 → ∃ u, func = (u, none) ∧ u.rdTW t w.vd.toNat = ⟨p >>> 16, 0⟩)
              ∧ (w.fn = 2 → ∃ u, func = (u, none) ∧ u.rdV t w.vd.toNat = (p &&& 0xFFFF).setWidth 32)
              ∧ (w.fn = 3 → ∀ h, s.wordLoad 0 p = .ok h → h.tag ≠ tagFUN → func.2 = some (.trap cILLTAG p))
              ∧ (w.fn = 3 → ∀ u, func = (u, none) → ∃ h, s.wordLoad 0 p = .ok h ∧ h.tag = tagFUN
                  ∧ let k := (s.b32 w t).toNat
                    u.rdTW t w.vd.toNat = ⟨if 1 ≤ k ∧ k ≤ h.value.toNat % 65536 then p + BitVec.ofNat 64 (8 * k) else 0, 0⟩))
          ∧ (∀ u, run (unifyThread w) = (u, none) → ∃ st : Nat, u.rdV t w.vd.toNat = BitVec.ofNat 32 st ∧ st ≤ 3
              ∧ (st = 0 ∨ st = 1 → (u.thr t).ustack = [])
              ∧ (st = 2 → (u.thr t).ustack ≠ [] ∧ w.imm.toNat ≤ (u.thr t).carry))
          ∧ (∀ (a b y z : TWord) (us : List UEntry) (u : State) (k limit : Nat), x.ustack = .root a b :: us →
              ((deref limit a).bind fun y => (deref limit b).bind fun z => Act.pure (y, z)) ⟨t, true⟩ s 0 = (u, .ok ((y, z), k)) →
              let pair := examineWith limit ⟨t, true⟩ s 0
              let ends := fun (r : Examined) => pair = (u, .ok (r, k))
              let binds := fun (v : Dword) (o : TWord) => pair = ((bindVar v o).bind fun st =>
                Act.pure (if st = 3 then Examined.ends 3 else .next us)) ⟨t, true⟩ u k
              let pushes := fun (v o : Dword) (count : Nat) =>
                ends (if (s.recordOf s.grp).udepth ≤ us.length then .ends 3 else .next (.range v o count :: us))
              (y.tag = tagREF ∨ z.tag = tagREF → ends (.ends 3))
                ∧ (y.tag = tagVAR → z.tag = tagVAR → y.value = z.value → ends (.next us))
                ∧ (y.tag = tagVAR → z.tag = tagVAR → y.value < z.value → binds z.value ⟨y.value, tagREF⟩)
                ∧ (y.tag = tagVAR → z.tag = tagVAR → z.value < y.value → binds y.value ⟨z.value, tagREF⟩)
                ∧ (y.tag = tagVAR → z.tag ≠ tagVAR → z.tag ≠ tagREF → binds y.value z)
                ∧ (y.tag ≠ tagVAR → y.tag ≠ tagREF → z.tag = tagVAR → binds z.value y)
                ∧ (y.tag ≠ tagVAR → y.tag ≠ tagREF → z.tag ≠ tagVAR → z.tag ≠ tagREF →
                    (y.tag ≠ z.tag → ends (.ends 1))
                    ∧ (y.tag = tagLST → z.tag = tagLST → pushes y.value z.value 2)
                    ∧ (y.tag = tagSTR → z.tag = tagSTR → ∀ (h g : TWord) (u' : State) (k' : Nat),
                        ((Act.header y.value).bind fun h => (Act.header z.value).bind fun g => Act.pure (h, g)) ⟨t, true⟩ u k
                          = (u', .ok ((h, g), k')) →
                        let arity := h.value.toNat % 65536
                        pair = (u', .ok (if h.value ≠ g.value then .ends 1 else if arity = 0 then .next us
                          else if (s.recordOf s.grp).udepth ≤ us.length then .ends 3
                          else .next (.range (y.value + 8) (z.value + 8) arity :: us), k')))
                    ∧ (y.tag = z.tag → y.tag ≠ tagLST → y.tag ≠ tagSTR →
                        ends (if y.value = z.value then .next us else .ends 1)))))

/-! ### Matrix operations (R222, R223, R229 to R245) -/

/-- A matrix operation that passes R232's and its own checks joins the open batch with the register rows as they stand at its
issue, and its fragment passes (R229, R233, R241), once none of those rows is still to be written by an atomic issued ahead (R307). Its
threads are those that the group's earlier matrix operations leave active (R243, log 68). MFENCE closes the open batch under the next number, MWAIT passes once no
batch of its number is outstanding, MWAITN once at most n are (R241, R245); each waits before. That results appear at the
publication of the batch is the model's choice of moment (log 6). -/
def Obligations.MatrixIssue : Prop :=
  ∀ (s : State) (w : LaneOps),
    let g := s.grp
    let passed := fun (t : State) => Host.Outcome.next (φ := Fault) (ρ := Refusal) (t.passLane (passes g.stream.frag.mask))
    let together := fun (i : Instr) => 32 ≤ g.w ∧ g.stream.frags.length ≤ 1 ∧ s.matActive i w = s.fragThreads
    let joins := fun (i : Instr) (checks : List (Nat × Dword)) =>
      s.Issues i → together i → firstCause checks = none → (s.unitQueue g.core (g.datapath / 4)).length < 8 →
      ∃ m, (s.rowsAwait m = false →
            exec i s = passed ({ s with fresh := s.fresh + 1 }.setGrp { g with openOps := g.openOps ++ [m] }))
        ∧ (s.rowsAwait m = true → exec i s = .next (s.waitLane .scoreboard).noteIssued)
        ∧ m.id = s.fresh ∧ m.instr = i ∧ m.cap = s.cap ∧ m.started = false ∧ m.done = false
        ∧ ∀ x ∈ m.rows, ∀ t < x.2.2, ∀ r < x.2.1, m.regs.get 0 (regKey t (x.1 + r)) = s.rdV t (x.1 + r)
    let tile := fun (r : VReg) (write : Bool) =>
      if w.fn.getLsbD 7 then s.tileChecks (s.tileAt r) (32 * LaneOps.count w) (32 * elemBytes w.type) write else []
    (s.mmaIllop (.mma w) false w = none → joins (.mma w) (s.mmaChecks w))
      ∧ (s.mmaIllop (.mmai w) true w = none → joins (.mmai w) (s.mmaChecks w))
      ∧ (s.framesTrap (.mzero w) = none → joins (.mzero w) []) ∧ (s.framesTrap (.mflagc w) = none → joins (.mflagc w) [])
      ∧ (s.framesTrap (.mflag w) = none → joins (.mflag w) [])
      ∧ (s.moveIllop (.mlda w) w w.va = none → joins (.mlda w) (tile w.va false))
      ∧ (s.moveIllop (.msta w) w w.vd = none → joins (.msta w) (tile w.vd true))
      ∧ (s.Issues (.mfence w) → together (.mfence w) → (g.openOps ≠ [] ∨ g.batches ≠ []) → (∀ b ∈ g.batches, b.id ≠ g.batchCtr.toNat) →
          exec (.mfence w) s = passed (s.setGrp { g with
            batches := g.batches ++ [⟨g.batchCtr.toNat, g.openOps⟩], openOps := [], batchCtr := g.batchCtr + 1 }))
      ∧ (s.Issues (.mfence w) → together (.mfence w) → g.openOps = [] → g.batches = [] →
          exec (.mfence w) s = passed (s.setGrp { g with batchCtr := g.batchCtr + 1 }))
      ∧ (s.Issues (.mwait w) → together (.mwait w) → exec (.mwait w) s =
          if g.batches.any (fun b => b.id == w.imm.toNat % 16) then .next (s.waitLane .mwait).noteIssued else passed s)
      ∧ (s.Issues (.mwaitn w) → together (.mwaitn w) → exec (.mwaitn w) s =
          if w.imm.toNat % 16 < g.batches.length then .next (s.waitLane .mwait).noteIssued else passed s)

/-- What matrix operations leave (R217 to R223, R235, R237 to R240): MMA and MMAI give every element of their block whose row and
column are unmasked the sum of its products, by steps, add its flag where a step lost bits and its poison where a word of its row or
column was poisoned, and leave every other element; MZERO clears the values of its frames
and their poison, MFLAGC their LOST bits; no byte of memory and no other core changes. MLDA gives every element of its frames that is not
poisoned its source converted to FP32, and the source's poison; MSTA stores every element that is not poisoned in its row of the
registers, or of its tile where no two bytes of it coincide, and makes the words RAW; both leave the flags, and both defer a POISON for
the lowest poisoned element. MFLAG gives thread r the flags of row r, or every thread the predicate whether any flag of its frames is set;
a handler's operation writes the understudy's registers and q8 to q15 (R191). When they are computed, and that an operand byte
written meanwhile is read as it was or as it is, is log 6 (R246). -/
def Obligations.MatrixResults : Prop :=
  ∀ (s : State) (k : Nat) (m : MatOp) (w : LaneOps) (integer : Bool),
    let g := s.group k
    let c := s.core g.core
    let base := s.accBase g
    let masks := fun (i : Nat) => m.cap.mks.get mkDefault (w.vc.toNat % 16 + i)
    let at_ := fun (i j : Nat) => base + blockIndex w.vd.toNat (LaneOps.extN w) i j
    let t := s.runMma k m integer w
    let d := t.core g.core
    let unmasked := fun (i j : Nat) => (masks 0).getLsbD i && (masks 1).getLsbD j
    let sum := fun (i j : Nat) => stepsOf integer (s.sideOf g m w false i) (s.sideOf g m w true j) (masks 2) (LaneOps.extK w)
      (stepTerms (formatOf (m.cap.zs.get 0 (w.fn.toNat % 16)))) (LaneOps.aw w)
      (if w.fn.getLsbD 5 then 0 else (c.acc.get 0 (at_ i j)).toNat)
    let u := s.runMatrix k m
    let e := u.core g.core
    let size := elemBytes w.type
    let tile := w.fn.getLsbD 7
    let tileOn := fun (r : VReg) => tileOf g.core (m.cap.rdS r.toNat) (m.cap.rdS (r.toNat + 1))
    let due := fun (f : VReg) (poison : Table Bool) => (u.group k).poisonDue = g.poisonDue
      ++ (((List.range (1024 * LaneOps.count w)).map (1024 * f.toNat + ·)).find? fun i => poison.get false (base + i)).toList
    let writes := fun (count : Nat) => (m.inHandler = false ∨ g.handler.isSome = true)
      ∧ w.vd.toNat + count ≤ (if m.inHandler then 64 else g.n)
    let tagNow := fun (t r : Nat) => if m.inHandler then u.tagOf (u.group k) t r else e.regTags.get 0 (g.wordIndex t r / 2)
    let inside := fun (a : Nat) => base + 1024 * w.vd.toNat ≤ a ∧ a < base + 1024 * (w.vd.toNat + LaneOps.count w)
    (∀ i j, i < LaneOps.extM w → j < LaneOps.extN w →
      d.acc.get 0 (at_ i j) =
        (if unmasked i j then BitVec.ofNat 32 (sum i j).1 else c.acc.get 0 (at_ i j))
        ∧ d.lost.get false (at_ i j) = (c.lost.get false (at_ i j) || (unmasked i j && (sum i j).2))
        ∧ d.accPoison.get false (at_ i j) = (c.accPoison.get false (at_ i j)
            || (unmasked i j && ((s.sideOf g m w false i).poisoned || (s.sideOf g m w true j).poisoned))))
      ∧ (∀ a, (∀ i j, i < LaneOps.extM w → j < LaneOps.extN w → a ≠ at_ i j) →
          d.acc.get 0 a = c.acc.get 0 a ∧ d.lost.get false a = c.lost.get false a
            ∧ d.accPoison.get false a = c.accPoison.get false a)
      ∧ d.scratch = c.scratch ∧ d.regs = c.regs ∧ SameMemory s t ∧ t.groups = s.groups ∧ (∀ n, n ≠ g.core → t.core n = s.core n)
      ∧ (m.instr = .mzero w → ∀ a,
          ((s.runMatrix k m).core g.core).acc.get 0 a = (if inside a then 0 else c.acc.get 0 a)
            ∧ ((s.runMatrix k m).core g.core).accPoison.get false a = (if inside a then false else c.accPoison.get false a)
            ∧ ((s.runMatrix k m).core g.core).lost = c.lost)
      ∧ (m.instr = .mflagc w → ∀ a,
          ((s.runMatrix k m).core g.core).lost.get false a = (if inside a then false else c.lost.get false a)
            ∧ ((s.runMatrix k m).core g.core).acc = c.acc)
      ∧ (m.instr = .mlda w →
          e.lost = c.lost ∧ due w.vd c.accPoison
            ∧ (∀ a, ¬inside a → e.acc.get 0 a = c.acc.get 0 a ∧ e.accPoison.get false a = c.accPoison.get false a)
            ∧ ∀ r j, r < 32 * LaneOps.count w → j < 32 →
              let a := base + (w.vd.toNat + r / 32) * 1024 + r % 32 * 32 + j
              let bits :=
                if tile then gather (fun b => m.scratch s (tileOn w.va).core (s.tileByte g.launch (tileOn w.va) r (j * size + b))) size
                else (m.regRow w.va.toNat (8 * size) r).bits / 2 ^ (8 * size * j) % 2 ^ (8 * size)
              let bad :=
                if tile then m.tainted s (tileOn w.va).core (s.tileByte g.launch (tileOn w.va) r (j * size))
                else m.poison.contains (regKey r (w.va.toNat + j * size / 4))
              if c.accPoison.get false a then e.acc.get 0 a = c.acc.get 0 a ∧ e.accPoison.get false a = true
              else e.acc.get 0 a = BitVec.ofNat 32 (if w.type = 10 then bits else fmtF32.round .rne false ((fmtOf w.type).read bits))
                ∧ e.accPoison.get false a = bad)
      ∧ (m.instr = .msta w → w.type = 8 ∨ w.type = 9 ∨ w.type = 10 ∨ w.type = 12 ∨ w.type = 13 →
          let src := m.finds c
          let poisoned := fun (r j : Nat) => src.accPoison.get false (base + (w.va.toNat + r / 32) * 1024 + r % 32 * 32 + j)
          let value := fun (r j : Nat) => storedElement w.type (w.fn.getLsbD 6)
            (src.acc.get 0 (base + (w.va.toNat + r / 32) * 1024 + r % 32 * 32 + j)).toNat
          due w.va src.accPoison ∧ e.acc = c.acc ∧ e.lost = c.lost ∧ e.accPoison = c.accPoison
            ∧ (tile = false → LaneOps.count w = 1 → writes (8 * size) → ∀ r q, r < 32 → q < 8 * size →
              (∀ b < 4, let j := (4 * q + b) / size
                (u.getIssuer k m.inHandler r (w.vd.toNat + q)).toNat / 2 ^ (8 * b) % 256 =
                  if poisoned r j then (s.getIssuer k m.inHandler r (w.vd.toNat + q)).toNat / 2 ^ (8 * b) % 256
                  else value r j / 2 ^ (8 * ((4 * q + b) % size)) % 256)
                ∧ ((∃ b < 4, poisoned r ((4 * q + b) / size) = false) → tagNow r (w.vd.toNat + q) = 0))
            ∧ (tile = true →
              let place := s.tileByte g.launch (tileOn w.vd)
              let x := s.core (tileOn w.vd).core
              let y := u.core (tileOn w.vd).core
              (∀ r r' b b', r < 32 * LaneOps.count w → r' < 32 * LaneOps.count w → b < 32 * size → b' < 32 * size →
                place r b = place r' b' → r = r' ∧ b = b') →
              y.regs = x.regs
                ∧ (∀ a, (∀ r b, r < 32 * LaneOps.count w → b < 32 * size → a ≠ place r b) → y.scratch.get 0 a = x.scratch.get 0 a)
                ∧ ∀ r j, r < 32 * LaneOps.count w → j < 32 →
                  (∀ b < size, y.scratch.get 0 (place r (j * size + b)) =
                    if poisoned r j then x.scratch.get 0 (place r (j * size + b)) else BitVec.ofNat 8 (value r j / 2 ^ (8 * b)))
                  ∧ (poisoned r j = false → y.scratchTags.get 0 (place r (j * size) / 8) = 0)))
      ∧ (m.instr = .mflag w →
          let flags := (m.finds c).lost
          let first := base + 1024 * w.va.toNat
          e.acc = c.acc ∧ e.lost = c.lost ∧ e.accPoison = c.accPoison
            ∧ (w.fn ≠ 1 → writes 1 → ∀ r < 32, tagNow r w.vd.toNat = 0
              ∧ ∀ j < 32, (u.getIssuer k m.inHandler r w.vd.toNat).getLsbD j = flags.get false (first + 32 * r + j))
            ∧ (w.fn = 1 → 0 < w.vd.toNat → w.vd.toNat < 16 → (m.inHandler = false ∨ g.handler.isSome = true) →
              flags.wf false = true → ∀ t < g.w, ∃ v,
                (v = true ↔ ∃ a, first ≤ a ∧ a < first + 1024 * LaneOps.count w ∧ flags.get false a = true)
                ∧ (m.inHandler = true → 8 ≤ w.vd.toNat → ∀ h, (u.group k).handler = some h →
                    (h.preds.get 0 t).getLsbD w.vd.toNat = v)
                ∧ (m.inHandler = false ∨ w.vd.toNat < 8 → ((u.group k).thread t).preds.getLsbD w.vd.toNat = v)
                ∧ ∀ q, q ≠ w.vd.toNat → ((u.group k).thread t).preds.getLsbD q = (g.thread t).preds.getLsbD q))

/-! ### Events of groups and casts -/

/-- Events of a group, each where its condition holds: the head of the lane queue starts (R63) or is discarded (R73), a
matrix unit starts its oldest operation, reading the frames of one that reads some (R246), and completes it (R233), a batch is published (R242), a held trap is taken (R195), an
overdue fragment raises WATCHDOG (R126), the fragment switches (R118), WGROW is granted where its window fits (R141), WFUSE and
XCHG time out (R139, R269), SYIELD ends (R86). -/
def Obligations.GroupEvents : Prop :=
  ∀ (s : State) (k : Nat),
    let g := s.group k
    let gives := fun (i : Instr) (t : State) => exec i s = .next t
    (∀ e, g.blockMayStart = true → g.readyBlock = some e → gives (.laneBlockStart k)
        (s.setGroup k { g.clearMarks with lane := .start g.w (s.blockPc g e.entry) e.cap, laneQ := g.laneQ.drop 1 }))
      ∧ (∀ q, g.life = .resident → g.headDiscarded q = true → gives (.guardedEntryDiscard k q) (s.setGroup k (g.discardHead q)))
      ∧ (∀ unit x, s.nextOp k unit = some x → gives (.matrixOpStart k unit)
          (s.setGroup x.1 ((s.group x.1).mapOp x.2.id fun m => { m with
            started := true, view := if readsFrames x.2.instr then some (s.core k).accs else none })))
      ∧ (∀ op x, s.findOp op = some x → s.opMayComplete x.1 x.2.1 x.2.2 = true → gives (.matrixOpComplete op)
          ((s.setGroup x.1 { x.2.1.mapOp op (fun m => { m with done := true }) with work := x.2.1.work + x.2.2.frames.2 }).setCore
            x.2.1.core { s.core x.2.1.core with array := (s.core x.2.1.core).array + x.2.2.array }))
      ∧ (g.life = .resident → g.batchReady = true → gives (.batchComplete k) (s.publishBatch k))
      ∧ (∀ b, g.life = .resident → g.batches = [b] → b.ops = [] → ∃ t, gives (.batchComplete k) t ∧ (t.group k).batches = []
          ∧ (t.group k).pc = g.pc ∧ SameMemory s t)
      ∧ (∀ t, g.deferred = some t → g.life = .resident → g.handler = none → g.parked = none → s.windowBusy k = false → g.otherBusy t = false →
          gives (.handlerEntryDeferred k) (s.enterHandler k t))
      ∧ (∀ x, s.overdue g = some x → g.life = .resident → g.laneHeld = false → g.stream.unfinished = false → gives (.fragmentWatchdog k)
          (s.takeTrap k ⟨cWATCHDOG, x.2.pc, watchdogInfo x.1 x.2, true, x.1, false⟩))
      ∧ (g.life = .resident → g.switchDue = true →
          gives (.fairnessSwitch k) (s.setGroup k g.switchFragment))
      ∧ (∀ j n base, s.oldestGrower k = some (j, n) →
          s.placeWindow k ((s.group j).w * n * 4) (s.group j).area (some j) = some base →
          gives (.wgrowGrant k) (s.grantGrow k j n base) ∧ ((s.grantGrow k j n base).group j).pc = (s.group j).nextPc)
      ∧ (∀ f, g.fuse = some f → g.life = .resident → gives (.wfuseTimeout k) (s.setGroup k (g.leaveFuse f.sd 4)))
      ∧ (∀ f, g.xchg = some f → g.life = .resident → gives (.xchgTimeout k)
          ((s.putStatus (s.xchgSide k f.ops) 1).leaveXchg k f.ops))
      ∧ gives (.syieldResume k) (s.setGroup k { g with yielding := false })

/-- Pre-emption (R142, R200 to R203) and casts (R349): a request is noted and served where the group stands, a time-out makes
the save full, a saved group comes back at a place and window that its core has, a cast whose groups have left by a save is saved where
its space is needed and comes back where it fits, the range locks of its waiting pushes registered again, the group admitted last leaves
when WGROW is stuck. A save (R200, R201, R203): the group leaves its
core and its launch will dispatch it again, its reservations and its requests to grow go; a full save keeps every register of
the window with its tag. -/
def Obligations.PreemptionEvents : Prop :=
  (∀ (s : State) (k launch : Nat),
      let g := s.group k
      let gives := fun (i : Instr) (t : State) => exec i s = .next t
      let asked := { g with preempt := some ⟨false, false⟩ }
      (g.life = .resident → g.preempt = none →
        gives (.preemptionRequest k) ((s.setGroup k asked).servePreempt k)
          ∧ (asked.stopped = false → ((s.setGroup k asked).servePreempt k).group k = asked)
          ∧ (∀ l entry, asked.stopped = true → g.quiet = true → s.liveIns g = some (l, entry) →
              let h := ((s.setGroup k asked).servePreempt k).group k
              h.life = .saved ∧ h.pc = entry ∧ h.saved.isSome = true ∧ h.scalars = g.scalars.filter fun x => l.scalars.getLsbD x.1))
        ∧ (∀ p, g.preempt = some p →
            let full := { g with preempt := some { p with full := true } }
            gives (.tenantTimeout k) ((s.setGroup k full).servePreempt k)
              ∧ (g.quiet = false → g.life = .resident → ((s.setGroup k full).servePreempt k).group k = full.closeOpen)
              ∧ (g.quiet = true → g.life = .resident →
                  let h := ((s.setGroup k full).servePreempt k).group k
                  h.life = .saved ∧ h.pc = g.pc ∧ h.scalars = g.scalars ∧ ∃ v, h.saved = some v ∧ v.full = true))
        ∧ (∀ v place base, s.mayRestore k g = true → g.saved = some v → s.placeFor g.core g.handler.isSome = some place →
            s.placeWindow g.core g.windowBytes g.area none = some base →
            gives (.groupRestore k) (s.bringBack k g v place base)
              ∧ ((s.bringBack k g v place base).group k).life = .resident
              ∧ ((s.bringBack k g v place base).group k).rwb = base
              ∧ ((s.bringBack k g v place base).group k).scalars = g.scalars
              ∧ ((s.bringBack k g v place base).group k).pc = g.pc)
        ∧ (∀ l c, s.launch? launch = some l → s.castOn launch k = some c → c.saved = none → l.ending = none →
            s.castLeft launch k = true → s.spaceNeeded launch k l = true → s.castQuiet launch c = true → gives (.castSave launch k) (s.saveCast launch l c)
              ∧ (s.saveCast launch l c).castOn launch k = some { c with saved := some (s.castImage launch l.record.frames c) })
        ∧ (∀ l c v scratch frame, s.launch? launch = some l → s.castOn launch k = some c → c.saved = some v → l.ending = none →
            s.roomForCast k l.record = some (scratch, frame) → s.castFits l c v = true →
            let t := s.placeCast launch l c v scratch frame
            t.relockFits launch = true → gives (.castRestore launch k) (t.relock launch)
              ∧ (t.relock launch).castOn launch k = some { c with saved := none, scratch := scratch, frame := frame }
              ∧ ∀ x ∈ t.missingLocks launch, ∃ j y, ((t.relock launch).core (x.2.2.2.1.table x.2.2.1)).locks.get none j = some y
                  ∧ y.cmd = x.1 ∧ y.space = x.2.2.2.1.space ∧ y.write = x.2.2.2.2)
        ∧ (∀ x, s.youngest k = some x → s.growBlocked k = true → s.growStuck k = true → (s.group x.1).life = .resident →
            let t := (s.askPreempt x.1 false).servePreempt x.1
            gives (.wgrowDeadlockPreempt k) t ∧ ((t.group x.1).life = .saved ∨ (t.group x.1).preempt.isSome = true)))
  ∧ (∀ (s : State) (k : Nat) (g : Group) (v : Saved) (l : Launch), s.launch? g.launch = some l →
      let t := s.putAway k g v
      let full := s.saveOf g true fun _ => true
      (t.group k).life = .saved ∧ (t.group k).saved = some v ∧ (t.group k).preempt = none
        ∧ (t.group k).scalars = g.scalars ∧ (t.group k).pc = g.pc
        ∧ (∀ r ∈ t.resvs, r.group ≠ k) ∧ (∀ x ∈ (t.core g.core).growers, x.1 ≠ k)
        ∧ (∃ m, t.launch? g.launch = some m ∧ (k ∈ m.requeued ∨ k ∈ m.behind)) ∧ SameMemory s t
        ∧ (∀ i r, i < g.w → r < g.n → g.n ≤ 2048 →
            full.regs.get 0 (i * 2048 + r) = (s.core g.core).regs.get 0 (g.wordIndex i r))
        ∧ (∀ i p, i < g.w → p < g.n / 2 → g.n ≤ 2048 →
            full.tags.get 0 (i * 1024 + p) = (s.core g.core).regTags.get 0 (g.wordIndex i (2 * p) / 2)))

/-! ### Events of engines -/

/-- The copy engine and multicast (R185, R186, R250 to R253, R257, R271 to R273): a command leaves its queue where the range-lock tables
have room, with its ranges registered; it moves its elements and completes, with STICKY's ENGERR where a check fails; a fill of scratch
leaves its value in every element; the push of CPYQ is made, waits for a place in the ring, or fails with its binding (a command's elements are those it has not moved
before, log 7); a delivery comes
to its cluster, writes there the elements it has not written yet and is done, refused without a binding or in error where the cluster is out; the completion word is written once every
destination is resolved. -/
def Obligations.CopyEngineEvents : Prop :=
  ∀ (s : State) (k : Nat),
    let g := s.group k
    let gives := fun (i : Instr) (t : State) => exec i s = .next t
    let ended := fun (c : CopyCmd) (t : State) =>
      t.copyCmd? k = none ∧ (t.group c.group).engOut = (s.group c.group).engOut - 1
    (∀ e, g.readyCopy = some e → g.life = .resident → s.locksFree g.core ((s.copyPlan (s.newCopy k e)).getD []) = true →
      ∃ t c, gives (.copyCommandStart k) t ∧ t = s.startCopy k (s.newCopy k e) ∧ t.copyCmd? s.fresh = some c
        ∧ c.group = k ∧ c.core = g.core ∧ c.op = e.op ∧ c.zd = e.zd ∧ c.zs = e.zs ∧ c.pushing = none
        ∧ (t.group k).copyQ = g.copyQ.drop 1 ∧ (t.group k).engOut = g.engOut ∧ SameMemory s t
        ∧ ∀ r ∈ (s.copyPlan (s.newCopy k e)).getD [], ∃ j l, (t.core (r.1.table g.core)).locks.get none j = some l
            ∧ l.cmd = s.fresh ∧ l.space = r.1.space ∧ l.write = r.2)
      ∧ (∀ c, s.copyCmd? k = some c → c.isMcast = false → c.pushing = none →
          gives (.engineCommandComplete k) (s.completeCopy k c)
            ∧ (s.copyPlan c = none → s.completeCopy k c = s.finishCopy k c stickyEngErr)
            ∧ (∀ t, s.runCopy c c.total = (t, .ok) → (∀ h q, c.op ≠ .cpyq h q) → s.completeCopy k c = t.finishCopy k c 0)
            ∧ (∀ t h q, s.runCopy c c.total = (t, .ok) → c.op = .cpyq h q →
                (t.boundTo c.launch c.core q = none → s.completeCopy k c = t.finishCopy k c stickyEngErr)
                ∧ ∀ b, t.boundTo c.launch c.core q = some b → s.completeCopy k c = t.setCopyCmd k (some { c with pushing := some b.id })))
      ∧ (∀ c fill z, s.copyCmd? k = some c → c.pushing = none → c.op = .cpys fill → s.castOn c.launch c.core = some z → z.saved = none →
          let d := tensorOf c.zd
          d.space = 1 → d.rot = 0 → d.dims = 0 → d.e0 ≠ 0 → d.addr % d.esize = 0 → d.addr + d.e0 * d.esize ≤ z.scratchSize →
          d.addr + d.e0 * d.esize ≤ 2 ^ 64 →
          ∃ t, gives (.engineCommandComplete k) t ∧ ended c t ∧ SameMemory s t
            ∧ ∀ i, c.moved ≤ i → i < d.e0 → ∀ b < d.esize, (t.core c.core).scratch.get 0 (z.scratch + d.addr + i * d.esize + b)
                = BitVec.ofNat 8 (fill.toNat / 2 ^ (8 * b)))
      ∧ (∀ c handle q n, s.copyCmd? k = some c → c.op = .cpyq handle q → c.pushing = some n →
          gives (.cpyqPush k) (s.pushCopy k c handle q n)
            ∧ (∀ b, s.boundTo c.launch c.core q = some b → b.id = n → b.free ≠ 0 →
                ended c (s.pushCopy k c handle q n) ∧ (s.pushCopy k c handle q n).queue? c.core q =
                  some { b with tail := (b.tail + 1) % b.slots, free := b.free - 1, filled := b.filled + 1 })
            ∧ (∀ b, s.boundTo c.launch c.core q = some b → b.id = n → b.free = 0 → s.pushCopy k c handle q n = s)
            ∧ (∀ b, s.boundTo c.launch c.core q = some b → b.id ≠ n → s.pushCopy k c handle q n = s.finishCopy k c stickyEngErr)
            ∧ (s.boundTo c.launch c.core q = none → s.castSaved c.launch c.core = false →
                s.pushCopy k c handle q n = s.finishCopy k c stickyEngErr))
      ∧ (∀ c cluster handle j cs q w x, s.copyCmd? k = some c → c.op = .mcast handle j cs q w →
          c.deliveries.find? (fun d => d.1 == cluster) = some (x, .pending) →
          let core := 4 * cluster + j
          let out := fun (d : Delivery) => s.setCopyCmd k (some { c with deliveries := c.deliveries.map fun x =>
            if x.1 = cluster then (cluster, d) else x })
          gives (.mcastDelivery k cluster) (s.deliver k c cluster core q handle)
            ∧ (c.data.isSome = true → s.mappedOut 7 cluster = true ∨ (s.island cluster).failed = true →
                gives (.mcastDelivery k cluster) (out .failed))
            ∧ (c.data.isSome = true → s.mappedOut 7 cluster = false → (s.island cluster).failed = false →
                s.boundTo c.launch core q = none → s.savedBinding c.launch core q = false → gives (.mcastDelivery k cluster) (out .nacked)))
      ∧ (∀ c handle j cs q w b n x, s.copyCmd? k = some c → c.op = .mcast handle j cs q w →
          c.deliveries.find? (fun d => d.1 == x) = some (x, .landed n) → s.boundTo c.launch (4 * x + j) q = some b → b.id = n →
          (b.free = 0 → gives (.mcastDelivery k x) s)
            ∧ (b.free ≠ 0 → gives (.mcastDelivery k x) ((s.pushHandle (4 * x + j) q b handle).setCopyCmd k
                (some { c with deliveries := c.deliveries.map fun y => if y.1 = x then (x, .done) else y }))))
      ∧ (∀ c handle j cs q w b n x, s.copyCmd? k = some c → c.op = .mcast handle j cs q w →
          c.deliveries.find? (fun d => d.1 == x) = some (x, .arriving b n) →
          gives (.mcastDelivery k x) (s.endDelivery k x (4 * x + j) q handle)
            ∧ (s.boundTo c.launch (4 * x + j) q = none → s.savedBinding c.launch (4 * x + j) q = false →
                gives (.mcastDelivery k x) (s.setCopyCmd k (some { c with deliveries := c.deliveries.map fun y =>
                  if y.1 = x then (x, .nacked) else y }))))
      ∧ (∀ c handle j cs q w, s.copyCmd? k = some c → c.op = .mcast handle j cs q w → c.resolved = true →
          gives (.mcastComplete k) (s.completeMcast k c w.toNat) ∧ ended c (s.completeMcast k c w.toNat)
            ∧ ∀ z, s.castOn c.launch c.core = some z → z.saved = none → w.toNat + 4 ≤ z.scratchSize → ∀ b < 4,
                ((s.completeMcast k c w.toNat).core c.core).scratch.get 0 (z.scratch + w.toNat + b)
                  = BitVec.ofNat 8 (c.completionWord / 2 ^ (8 * b)))

/-- The fabric (R358, R361 to R363, R373) and collectives (R368, R369): a transfer leaves its queue, a packet that a package can send is
performed at its region, a transfer completes with its status; a collective leaves its queue and opens its instance, contributions land
in its buffer, it combines them once all have landed, it ends with ERROR where it waits for a member that no route reaches (R359), an
Abort ends it. That an Abort which comes early is remembered, and that the own rank's contribution is the event with that rank, are log
39; a reply's and a packet's form are log 69; a poisoned table entry counts as not valid by log 59. -/
def Obligations.FabricEvents : Prop :=
  ∀ (s : State) (k : Nat) (seq : BitVec 32),
    let g := s.group k
    let gives := fun (i : Instr) (t : State) => exec i s = .next t
    let ended := fun (c : FabCmd) (t : State) =>
      t.fabCmd? k = none ∧ (t.group c.group).fabOut = (s.group c.group).fabOut - 1 ∧ (t.group c.group).engOut = (s.group c.group).engOut - 1
    (∀ e get target offset signal, g.readyFab = some e → e.op = .transfer get target offset signal → g.life = .resident →
      let c : FabCmd := { group := k, launch := g.launch, core := g.core, context := s.contextOf g, get := get, z := e.z
                          target := target, offset := offset, signal := signal, past := .none }
      s.locksFree g.core (s.fabPlan c) = true → gives (.fabricCommandStart k) (s.startFab k c)
        ∧ ((s.startFab k c).group k).fabQ = g.fabQ.drop 1 ∧ ((s.startFab k c).group k).fabOut = g.fabOut ∧ (s.startFab k c).routers = []
        ∧ ∃ d, (s.startFab k c).fabCmd? s.fresh = some d ∧ { d with past := .none } = c)
      ∧ (∀ p : Packet, packetSound p = true → s.fabricDown = false → gives (.fabricPacketReceive p) (s.receive p).wakeFabric)
      ∧ (∀ (p : Packet) (status pa : Nat) (tagged : Bool), packetSound p = true → s.fabricDown = false →
          let e := s.landing p.region.toNat
          (s.checkLanding e p.first p.total p.esize p.get p.signal = some (status, .bad) →
            gives (.fabricPacketReceive p) s.wakeFabric)
          ∧ (s.checkLanding e p.first p.total p.esize p.get p.signal = none → p.get = false → p.signal = none → p.bytes.length = p.esize →
              canonical (BitVec.ofNat 64 ((e.base + p.offset) % 2 ^ 64)) = true →
              s.translate e.context (s.partOf e.context) ((e.base + p.offset) % 2 ^ 64) aWrite = .ok pa tagged → isView pa = false →
              s.stackDead pa = false → pa + p.esize ≤ 2 ^ 51 →
              ∃ t, gives (.fabricPacketReceive p) t ∧ t.groups = s.groups ∧ (∀ i < p.esize, t.byte (pa + i) = p.bytes.getD i 0)
                ∧ ∀ a, a < pa ∨ pa + p.esize ≤ a → t.byte a = s.byte a))
      ∧ (∀ c r, s.fabCmd? k = some c → c.target.toNat % 4096 = s.driver.domainId.toNat →
          gives (.fabricCommandComplete k r) ((s.endTransfer c r).1.finishFab k c (s.endTransfer c r).2)
            ∧ ended c ((s.endTransfer c r).1.finishFab k c (s.endTransfer c r).2))
      ∧ (∀ c r, s.fabCmd? k = some c → r.status ≠ 3 → (c.get = false ∨ r.status ≠ 0) →
          gives (.fabricCommandComplete k r) ((s.endTransfer c r).1.finishFab k c (s.endTransfer c r).2)
            ∧ ended c ((s.endTransfer c r).1.finishFab k c (s.endTransfer c r).2)
            ∧ (s.reaches (c.actor s).part (c.target.toNat % 4096) = false → (s.endTransfer c r).2 = 2))
      ∧ (∀ e kind op zd set q, g.readyFab = some e → e.op = .coll kind op zd set q → g.life = .resident →
          let t := s.startColl k
            { group := k, launch := g.launch, core := g.core, context := s.contextOf g, kind := kind, op := op, zd := zd, zs := e.z
              set := set, seq := q, past := .none, aborted := none }
          gives (.collCommandStart k) t ∧ (t.group k).fabQ = g.fabQ.drop 1 ∧ (t.group k).collOut = g.collOut ∧ t.routers = []
            ∧ ∃ c, t.collCmd? s.fresh = some c ∧ c.group = k ∧ c.kind = kind ∧ c.op = op ∧ c.set = set ∧ c.seq = q
              ∧ ((s.collSet (set.toNat % 4096)).valid = false → c.aborted = some false))
      ∧ (∀ rank data,
          let e := s.collSet k
          let l := s.landing e.stage
          e.valid = true → l.valid = true → l.stage = true → 2 * e.members * e.slot ≤ l.bytes → rank < e.members → rank ≠ e.rank →
          s.bufferFree k seq rank = true → s.fabricDown = false → data.bytes.length ≤ e.slot →
          gives (.collContributionReceive k seq rank data) (s.landBytes k e l seq rank data.bytes data.tags).1
            ∧ (data.bytes = [] → s.hasEnded k seq = false → ∃ t, gives (.collContributionReceive k seq rank data) t
                ∧ t.landed = s.landed ++ [⟨k, seq, rank⟩] ∧ SameMemory s t ∧ t.groups = s.groups)
            ∧ (∀ t, s.landBytes k e l seq rank data.bytes data.tags = (t, .ok) → s.hasEnded k seq = false → ⟨k, seq, rank⟩ ∈ t.landed))
      ∧ (∀ data id c,
          let e := s.collSet k
          let l := s.landing e.stage
          e.valid = true → e.rank < e.members → s.bufferFree k seq e.rank = true → s.fabricDown = false →
          s.openColl k seq = some (id, c) → c.aborted = none →
          gives (.collContributionReceive k seq e.rank data) (s.contribute k e l id c)
            ∧ (l.valid = false → gives (.collContributionReceive k seq e.rank data)
                (s.setCollCmd id (some { c with aborted := some true })))
            ∧ (l.valid = true → l.stage = false → gives (.collContributionReceive k seq e.rank data)
                (s.setCollCmd id (some { c with aborted := some false }))))
      ∧ (∀ c nack, s.collCmd? k = some c → c.aborted = some nack →
          gives (.collInstanceComplete k) (s.finishColl k c (if nack then 1 else 2)))
      ∧ (∀ c, s.collCmd? k = some c → c.aborted = none → s.allLanded c.setIndex c.seq (s.collSet c.setIndex).members = true →
          gives (.collInstanceComplete k) (s.completeColl k c) ∧ (s.completeColl k c).collCmd? k = none
            ∧ ((s.completeColl k c).group c.group).collOut = (s.group c.group).collOut - 1
            ∧ ∀ x ∈ (s.completeColl k c).landed, ¬(x.set = c.setIndex ∧ x.seq = c.seq))
      ∧ (∀ c, s.collCmd? k = some c → c.aborted = none → s.allLanded c.setIndex c.seq (s.collSet c.setIndex).members = false →
          (s.routeLost c = true → gives (.collInstanceComplete k) (s.finishColl k c 2))
            ∧ (s.routeLost c = false → gives (.collInstanceComplete k) s)
            ∧ ∀ r v t, r < (s.collSet c.setIndex).members → r ≠ (s.collSet c.setIndex).rank → s.member (s.collSet c.setIndex) r = .ok v t →
                s.reaches (c.actor s).part (v % 4096) = false → s.routeLost c = true)
      ∧ (∀ rank data id c, s.openColl k (seq - 2) = some (id, c) → ∃ t, gives (.collContributionReceive k seq rank data) t
          ∧ t.landed = s.landed ∧ t.collCmds = s.collCmds ∧ t.groups = s.groups ∧ SameMemory s t)
      ∧ (∀ id c nack, s.openColl k seq = some (id, c) → c.aborted = none →
          gives (.collAbortReceive k seq nack) (s.wakeFabric.setCollCmd id (some { c with aborted := some nack })))
      ∧ (∀ nack, s.openColl k seq = none → s.hasEnded k seq = false → ∃ t, gives (.collAbortReceive k seq nack) t
          ∧ (k, seq, nack) ∈ t.aborts ∧ t.groups = s.groups ∧ SameMemory s t)
      ∧ (∀ nack, s.openColl k seq = none → s.hasEnded k seq = true → gives (.collAbortReceive k seq nack) s.wakeFabric)

/-- A command's end (R44, R90, R185, R252, R361, R362, R365): its locks go, its group's counters fall by one, its status reaches STICKY
(a NACK of a transfer or a collective sets PARTIAL, an ERROR sets ENGERR) and the status of its kind; another group keeps everything, and another launch. -/
def Obligations.CommandEnds : Prop :=
  ∀ (s : State) (id : Nat) (c : CopyCmd) (f : FabCmd) (x : CollCmd) (sticky : Word) (status : Nat),
    let free := fun (t : State) => ∀ n k, ∀ l ∈ (t.core n).locks.get none k, l.cmd ≠ id
    let a := s.finishCopy id c sticky
    let b := s.finishFab id f status
    let d := s.finishColl id x status
    free a ∧ free b ∧ a.copyCmd? id = none ∧ b.fabCmd? id = none ∧ d.collCmd? id = none
      ∧ (a.group c.group).engOut = (s.group c.group).engOut - 1 ∧ (a.group c.group).sticky = (s.group c.group).sticky ||| sticky
      ∧ (b.group f.group).sticky = (s.group f.group).sticky |||
          (if status = 0 then 0 else if status = 1 then stickyPartial else stickyEngErr)
      ∧ (d.group x.group).sticky = (s.group x.group).sticky |||
          (if status = 0 then 0 else if status = 1 then stickyPartial else stickyEngErr)
      ∧ (b.group f.group).engOut = (s.group f.group).engOut - 1 ∧ (b.group f.group).fabOut = (s.group f.group).fabOut - 1
      ∧ (b.group f.group).fabStat = (s.group f.group).fabStat ||| (if status = 0 then 0 else if status = 1 then 1 else 2)
      ∧ (d.group x.group).engOut = (s.group x.group).engOut - 1 ∧ (d.group x.group).collOut = (s.group x.group).collOut - 1
      ∧ (d.group x.group).collStat = (s.group x.group).collStat ||| (if status = 0 then 0 else if status = 1 then 1 else 2)
      ∧ (∀ k, k ≠ c.group → a.group k = s.group k) ∧ (∀ k, k ≠ f.group → b.group k = s.group k)
      ∧ (∀ k, k ≠ x.group → d.group k = s.group k)
      ∧ (∀ k, k ≠ c.launch → a.launch? k = s.launch? k) ∧ (∀ k, k ≠ f.launch → b.launch? k = s.launch? k)
      ∧ (∀ k, k ≠ x.launch → d.launch? k = s.launch? k) ∧ SameMemory s a ∧ SameMemory s b ∧ SameMemory s d

/-! ### Events of memory -/

/-- Events between L1s and homes: a request is performed at its home in its turn (R277, R281, R285, R298), its reply arrives
(R279, R280), unsent bytes leave (R279), a refused request waits again with one try more (R287), a victim is drained (R289). A
read's reply holds the line as its home has it, a write's merge changes exactly the masked bytes, a request that stands at another
slice than the home passes on to it (R281), a refused one is neither performed nor dropped (R287), an acknowledgement counts down
(R45), and that of an unpinning write clears the pin (R286). The model's own: a pin registration goes the way of the other requests (log
60), the acknowledgement of an unpinning write waits for those of the lines unpinned before (log 36), a fill for those of its line's
merged writes (log 75), RACQ's drain is three events (log 37), a cycle of a slice is one service, then one refill (log 34). The token
bucket of R291 to R293: a refill adds RATE / 256 tokens a cycle,
first to what is owed and then up to DEPTH, what does not fit is dropped; a context whose partition does not own the slice acts as RATE 0
(R347); a context served in step 1 pays its tokens. The answer of a scalar atomic is in its register (R65). -/
def Obligations.MemoryEvents : Prop :=
  (∀ (s : State) (slice id k line : Nat) (r : Req),
      let g := s.group k
      let gives := fun (i : Instr) (t : State) => exec i s = .next t
      let stands := fun (t : State) (stage : ReqStage) => ∃ q, t.req? id = some q ∧ q.stage = stage ∧ q.line = r.line ∧ q.group = r.group
      let reached := s.unreachable (sectorOfL1 r.l1) r.line = false
      let onward := fun (t : State) => ∃ q, t.req? id = some q ∧ q.stage = .waiting ∧ q.slice = s.homeSlice (128 * r.line) ∧ q.line = r.line
      (s.req? id = some r →
        (r.kind = .read → s.mayPerform slice id r = true →
            gives (.homeRead slice id) (s.performRead id r)
              ∧ (s.atHome r = true → s.refuses r = true → stands (s.performRead id r) .refused)
              ∧ (s.atHome r = true → s.refuses r = false → reached → s.badBlocks r.line = [] →
                  ∃ q, (s.performRead id r).req? id = some q ∧ q.stage = .replied ∧ (q.data, q.tags) = s.homeLine r.line
                    ∧ SameMemory s (s.performRead id r))
              ∧ (s.atHome r = false → s.visitorCopy r.l1 r.line = none → onward (s.performRead id r))
              ∧ (∀ v, s.atHome r = false → s.visitorCopy r.l1 r.line = some v →
                  ∃ q, (s.performRead id r).req? id = some q ∧ q.stage = .replied ∧ q.data = v.data ∧ q.tags = v.tags))
          ∧ (r.kind = .prefetch → s.mayPerform slice id r = true →
            gives (.homeRead slice id) (s.performRead id r)
              ∧ (s.atHome r = true → s.refuses r = false → (s.performRead id r).req? id = none ∧ SameMemory s (s.performRead id r)))
          ∧ (∀ d m t tm u, r.kind = .write d m t tm u → s.mayPerform slice id r = true →
            gives (.homeWriteMerge slice id) (s.performWrite id r)
              ∧ (s.atHome r = false → onward (s.performWrite id r) ∧ SameMemory s (s.performWrite id r))
              ∧ (s.atHome r = true → stands (s.performWrite id r) .replied
                  ∧ (reached → r.line < 2 ^ 44 ∨ tm = 0 → ∀ a, (s.performWrite id r).byte a =
                      if a / 128 = r.line ∧ m.getLsbD (a % 128) = true then BitVec.ofNat 8 (d.toNat / 2 ^ (8 * (a % 128))) else s.byte a)
                  ∧ (s.unreachable (sectorOfL1 r.l1) r.line = true → SameMemory s (s.performWrite id r))))
          ∧ (∀ a, r.kind = .atomic a → s.mayPerform slice id r = true →
            gives (.homeAtomic slice id) (s.performAtomic id r a)
              ∧ (s.atHome r = false → onward (s.performAtomic id r a) ∧ SameMemory s (s.performAtomic id r a))
              ∧ (s.atHome r = true → s.leftOut r a = false → s.refuses r = true →
                  stands (s.performAtomic id r a) .refused ∧ SameMemory s (s.performAtomic id r a))
              ∧ (∀ x, s.atHome r = true → s.refuses r = false → reached → a.scalar = true → a.joined = [] →
                  (s.group r.group).life = .resident → (s.group r.group).accesses.find? (fun y => y.sent == some id) = some x →
                  let o := ((s.touchHome r).atomAtHome r.group a).1
                  let t := s.performAtomic id r a
                  o.poison = false → (∀ y ∈ (t.group r.group).accesses, y.id ≠ x.id)
                    ∧ SameMemory ((s.touchHome r).atomAtHome r.group a).2 t
                    ∧ ∀ (sd b v : SReg) (op scope : BitVec 3), x.instr = .samo sd b v op scope ∨ x.instr = .scas sd b v scope →
                        sd ≠ 0 → (t.group r.group).rdS sd.toNat = BitVec.ofNat 32 o.old))
          ∧ (r.kind = .pin → s.mayPerform slice id r = true → gives (.pinRegistration slice id) (s.performPin id r)
              ∧ (s.atHome r = false → onward (s.performPin id r))
              ∧ (s.atHome r = true → stands (s.performPin id r) .replied
                  ∧ (reached → (r.line, r.l1) ∈ ((s.performPin id r).slice r.slice).pins)
                  ∧ (s.unreachable (sectorOfL1 r.l1) r.line = true → (s.performPin id r).slices = s.slices)))
          ∧ (r.kind = .read → r.stage = .replied → (s.l1 r.l1).sweeping = false → s.acksOut r.l1 (some r.line) = false → gives (.l1Fill id) (s.arriveFill id r)
              ∧ (s.arriveFill id r).req? id = none
              ∧ ((s.l1 r.l1).staleFill (decide (r.l1 ≥ 48)) r = false → r.dropsFill = false →
                  ∃ x, ((s.arriveFill id r).l1 r.l1).lines.get none r.line = some x ∧ x.valid = BitVec.allOnes 128
                    ∧ ((s.l1 r.l1).lines.get none r.line = none → x.dirty = 0 ∧ x.data = r.data ∧ x.tags = r.tags)))
          ∧ (s.mayVisit r = true → gives (.visitorFill id) (s.visit r) ∧ SameMemory s (s.visit r) ∧ (s.visit r).reqs = s.reqs)
          ∧ ((r.kind.isWrite = true ∨ ∃ a, r.kind = .atomic a) → r.stage = .replied → s.ackDue id r = true →
            gives (.writeAck id) (s.arriveAck id r)
              ∧ (∀ d m t tm, r.kind = .write d m t tm true → r.line ∉ (s.l1 r.l1).pins →
                  (r.line, r.l1) ∉ ((s.arriveAck id r).slice (s.homeSlice (128 * r.line))).pins)
              ∧ ((s.arriveAck id r).group r.group).unack = (s.group r.group).unack - 1 ∧ (s.arriveAck id r).req? id = none)
          ∧ (r.stage = .refused → ∃ t q, gives (.retryResend id) t ∧ t.req? id = some q ∧ q.stage = .waiting ∧ q.tries = r.tries + 1
              ∧ q.slice = s.firstSlice r.l1 r.line ∧ q.arrived = s.fresh
              ∧ (id ∈ (t.slice q.slice).queue ∨ id ∈ (t.slice q.slice).held)))
        ∧ (∀ x, (s.l1 slice).lines.get none line = some x → gives (.l1WriteRequestSend slice line k) (s.sendUnsent slice line k)
            ∧ (x.unsent.get 0 k ≠ 0 → ∃ q n, (s.sendUnsent slice line k).req? n = some q ∧ q.line = line ∧ q.l1 = slice ∧ q.group = k
                ∧ q.kind = .write x.data (x.unsent.get 0 k) x.tags (x.unsentTags.get 0 k) false)
            ∧ (x.unsent.get 0 k = 0 → s.sendUnsent slice line k = s))
        ∧ (g.racq = 1 → (s.l1 (s.l1Of g.racqCore)).sweeping = false → (s.l1 (s.l1Of g.racqCore)).draining = none →
            ∃ t, gives (.racqDrainOrder k) t ∧ (t.l1 (s.l1Of g.racqCore)).draining = some k)
        ∧ (g.racq = 1 → (s.l1 (s.l1Of g.racqCore)).draining = some k →
            (s.writesBefore (s.l1Of g.racqCore) (s.l1 (s.l1Of g.racqCore)).drainFrom = true
              ∨ s.stepsBefore (s.l1Of g.racqCore) (s.l1 (s.l1Of g.racqCore)).drainFrom = true) → gives (.racqDrainOrder k) s)
        ∧ (g.racq = 2 → gives (.racqDrainReply k) (s.setGroup k { g with racq := 3 })))
  ∧ (∀ (s : State) (slice : Nat),
      let gives := fun (i : Instr) (t : State) => exec i s = .next t
      ((s.slice slice).served = false → gives (.sliceRequestService slice) (s.serve slice) ∧ ((s.serve slice).slice slice).served = true
          ∧ ((s.slice slice).queue = [] → ∀ c, ((s.serve slice).slice slice).contexts.get SliceContext.start c
              = (s.slice slice).contexts.get SliceContext.start c))
        ∧ ((s.slice slice).served = true → gives (.sliceRequestService slice) s)
        ∧ ((s.slice slice).served = true → (s.slice slice).contexts.wf SliceContext.start = true → ∃ t, gives (.sliceTokenRefill slice) t
            ∧ (∀ c, (t.slice slice).contexts.get SliceContext.start c = if (s.acting slice c).rate = 0
                then (s.slice slice).contexts.get SliceContext.start c else ((s.slice slice).contexts.get SliceContext.start c).refill 1)
            ∧ (t.slice slice).cycle = (s.slice slice).cycle + 1 ∧ (t.slice slice).served = false ∧ ∀ j, j ≠ slice → t.slice j = s.slice j)
        ∧ ((s.slice slice).served = false → gives (.sliceTokenRefill slice) s))
  ∧ (∀ (c : SliceContext) (n cost : Nat),
      (c.give n).debt.toNat = c.debt.toNat - n
        ∧ (c.tokens.toNat ≤ c.depth.toNat →
            (c.give n).tokens.toNat = min (c.tokens.toNat + (n - c.debt.toNat)) c.depth.toNat)
        ∧ (c.rate = 0 → c.refill n = c)
        ∧ (c.rate ≠ 0 → (c.refill n).credit = (c.credit + n * c.rate.toNat) % 256
            ∧ (c.refill n).tokens = (c.give ((c.credit + n * c.rate.toNat) / 256)).tokens)
        ∧ (c.rate ≠ 0 → c.pays cost = true → (c.charge cost true).tokens.toNat = c.tokens.toNat - cost))

/-! ### Errors and failures -/

/-- Errors and failures of units (R204, R275, R296, R297, R330, R357, R359, R398): a corrected error is counted by its core, slice,
stack or link, the interval of a slice's count ends, an uncorrectable error poisons what it hit, a silent one changes memory behind a
check value that stays, a failed stack, link, sector, island or fabric ends the launches that R297, R275, R357 and R359 name, a
slice that has emptied goes dark, a port goes down with its eighth failed resend. -/
def Obligations.FailureEvents : Prop :=
  ∀ (s : State) (k word : Nat) (pa : BitVec 52) (b : Byte) (tag : Tag) (v : BitVec 16),
    let reaches := fun (i : Instr) (p : State → Prop) => ∃ t, exec i s = .next t ∧ p t
    let ends := fun (t : State) (p : Launch → Prop) =>
      ∀ key l, s.launch? key = some l → l.ending = none → p l → ∃ m, t.launch? key = some m ∧ m.ending = some (7, .none)
    let block := pa.toNat / 64
    (∀ point ∈ [ErrorPoint.l1Fill, .unifiedStore, .accumulatorStore], reaches (.correctedError point k pa) fun t =>
        (t.core k).corerr = ((s.core k).corerr + 1) % 2 ^ 32)
      ∧ reaches (.correctedError .memoryStack k pa) (fun t => t.stackErrors.get 0 k = s.stackErrors.get 0 k + 1)
      ∧ reaches (.correctedError .linkFlit k pa) (fun t => t.linkErrors.get 0 k = s.linkErrors.get 0 k + 1)
      ∧ (k < 96 → (s.slice k).errors < s.darkThreshold → reaches (.correctedError .l2Line k pa) fun t =>
          (t.slice k).errors = (s.slice k).errors + 1)
      ∧ (k < 96 → s.darkThreshold ≤ (s.slice k).errors → (s.slice k).dark = false →
          (∀ i < 16, (s.slice (k / 16 * 16 + i)).dark = false ∧ (s.slice (k / 16 * 16 + i)).moving = false) →
          reaches (.correctedError .l2Line k pa) fun t => (t.slice k).moving = true)
      ∧ reaches (.errorCountInterval k) (fun t => (t.slice k).errors = 0 ∧ ∀ x ∈ t.logged, x.2 ≠ k)
      ∧ reaches (.uncorrectableError (.registerWord k word)) (fun t => (t.core k).regTags.get 0 word = tagPOI
          ∧ (t.core k).regs = (s.core k).regs)
      ∧ reaches (.uncorrectableError (.scratchWord k word)) (fun t => (t.core k).scratchTags.get 0 word = tagPOI)
      ∧ reaches (.uncorrectableError (.element k word)) (fun t => (t.core k).accPoison.get false word = true)
      ∧ reaches (.uncorrectableError (.aperture k)) (fun t => k ∈ t.apertureErrors)
      ∧ reaches (.uncorrectableError (.silent pa b)) (fun t => t.byte pa.toNat = b ∧ t.checkValue block = s.checkValue block
          ∧ t.tags = s.tags ∧ ∀ a, a ≠ pa.toNat → t.byte a = s.byte a)
      ∧ reaches (.uncorrectableError (.silentTag pa tag)) (fun t => t.wordTag pa.toNat = tag ∧ t.checkValue block = s.checkValue block)
      ∧ reaches (.uncorrectableError (.silentCheck pa v)) (fun t => t.checkValue block = v ∧ t.mem = s.mem ∧ t.tags = s.tags)
      ∧ reaches (.stackFailure k) (fun t => k ∈ t.deadStacks ∧ ends t fun _ => True)
      ∧ reaches .linkFailure (fun t => (∃ link < 7, link ∈ t.linksDown) ∧ (∀ j ∈ s.linksDown, j ∈ t.linksDown) ∧ ends t fun _ => True)
      ∧ reaches (.sectorFailure k) (fun t => (t.sector k).failed = true
          ∧ ends t fun l => ∃ c ∈ l.casts, sectorOfCore c.core = k)
      ∧ reaches (.islandFault k) (fun t => (t.island k).failed = true
          ∧ ends t fun l => ∃ c ∈ l.casts, clusterOfCore c.core = k)
      ∧ reaches .fabricComplexFailure (fun t => t.fabricDown = true ∧ ∀ key l, s.launch? key = some l → l.ending = none →
          ((∃ x ∈ s.fabList, x.2.launch = key) ∨ ∃ x ∈ s.collCmds, ∃ c, x.2 = some c ∧ c.launch = key) →
          ∃ m, t.launch? key = some m ∧ m.ending = some (7, .none))
      ∧ ((s.ports.get ⟨false, 0⟩ k).resends = 7 → reaches (.flitResend k false) fun t => (t.ports.get ⟨false, 0⟩ k).down = true)
      ∧ ((s.ports.get ⟨false, 0⟩ k).resends < 7 → (s.ports.get ⟨false, 0⟩ k).down = false → reaches (.flitResend k false) fun t =>
          t.ports.get ⟨false, 0⟩ k = ⟨false, (s.ports.get ⟨false, 0⟩ k).resends + 1⟩)
      ∧ (reaches (.flitResend k true) fun t => t.ports.get ⟨false, 0⟩ k = ⟨(s.ports.get ⟨false, 0⟩ k).down, 0⟩)
      ∧ ((s.slice k).moving = true → (s.slice k).queue = [] →
          (∀ x ∈ s.reqList, ¬(x.2.slice = k ∧ x.2.stage = .granted)) → reaches (.sliceMoveComplete k) fun t => t = s.goDark k
            ∧ (t.slice k).dark = true ∧ (t.slice k).moving = false
            ∧ ∀ r ∈ t.resvs, r ∈ s.resvs ∧ s.homeSlice (128 * r.granule) ≠ k)

/-! ### Launches, scheduling and power -/

/-- Launches (R335, R336, R341 to R345, R348, R352, R369): a notify store is taken, a slot turns to the best pending queue, a
record is decided and its launch admitted, groups are dispatched, a launch completes; the scheduler asks groups to leave; a
context or a launch is ended by the driver with status 8. -/
def Obligations.LaunchEvents : Prop :=
  ∀ (s : State) (k : Nat) (t32 : BitVec 32),
    let gives := fun (i : Instr) (t : State) => exec i s = .next t
    (k < 1024 → (s.queueDesc k).enable = true → notBehind (s.workQueue k).head t32.toNat = true →
      gives (.notifyStore k t32) (s.announce k t32.toNat)
        ∧ (notBehind (s.workQueue k).announced t32.toNat = true → ((s.announce k t32.toNat).workQueue k).announced = t32.toNat)
        ∧ ((s.announce k t32.toNat).inSlot k = true ∨ k ∈ (s.announce k t32.toNat).pendingQueues))
      ∧ (k < 32 → s.slotFrees k = true → gives (.callboardSlotRelease k) (s.turnSlot k)
          ∧ (s.turnSlot k).slots.get none k = s.bestQueue s.pendingQueues)
      ∧ (∀ q r v, s.bestQueue (s.decidable.map (·.1)) = some q → s.decidable.find? (fun x => x.1 == q) = some (q, r, v) →
          s.boot.ready = true → ∃ t, gives .launchAdmit t ∧ t = s.carryOut q (s.queueDesc q) r v
            ∧ ((∃ status, v = .finish status) ∨ ∃ cores, v = .enter cores)
            ∧ (t.workQueue q).head = ((s.workQueue q).head + 1) % 2 ^ 32
            ∧ (∀ status, v = .finish status → t.launches = s.launches ∧ t.groups = s.groups)
            ∧ (∀ cores, v = .enter cores → ∃ key l, t.launch? key = some l ∧ l.record = r ∧ l.queue = q ∧ l.ending = none
                ∧ l.casts.map (·.core) = cores))
      ∧ (∀ l, s.launch? k = some l → gives (.groupDispatch k) (s.dispatchOne k)
          ∧ (l.todo = [] ∨ l.ending.isSome = true → s.dispatchOne k = s)
          ∧ (∀ t c place base, l.ending = none → s.mayRun l.partition l.context = true → l.todo = [t] →
              s.startFor l t = some (c, place, base) → s.dispatchOne k = s.startGroup k l t c place base
                ∧ (s.dispatchOne k).group s.newKey = { l.newGroup k c t.2 place base s.fresh with since := s.clock }))
      ∧ (s.launch? k = none → gives (.groupDispatch k) s)
      ∧ (∀ l, s.launch? k = some l → l.due = true → (∀ j ∈ l.l1s, s.sweepOf k j = false) →
          (∀ j ∈ l.l1s, (s.l1 j).pins = []) → s.accessesDone k = true → s.hostView = [] → s.metered k l = true →
          gives (.launchComplete k) (s.finishLaunch k l) ∧ (s.finishLaunch k l).launch? k = none
            ∧ ∀ x ∈ (s.finishLaunch k l).groups, x.2.launch ≠ k)
      ∧ (∀ l j, s.launch? k = some l → s.asked k = none → s.lastBlocked k = some j → s.rotates k l = true →
          gives (.schedulerRotation k) ((s.askPreempt j true).servePreempt j))
      ∧ (∀ r j, s.headRecord k = some r → (∀ x ∈ s.victims (s.queueDesc k) r, x.2.preempt = none) →
          s.youngestOf (s.victims (s.queueDesc k) r) = some j → s.inSlot k = true →
          s.verdict (s.queueDesc k) r = .wait true → gives (.admissionPreempt k) ((s.askPreempt j false).servePreempt j)
            ∧ ∃ x, (j, x) ∈ s.victims (s.queueDesc k) r ∧ x.life = .resident ∧ s.lower (s.queueDesc k).part r.prio x.launch = true)
      ∧ (∀ ctx, s.nextContext k = some ctx → ∃ t, gives (.contextTimeSlice k) t
          ∧ t = (s.clearPartition k).runContext k ctx ∧ (t.part k).context = ctx)
      ∧ (∃ t, gives (.partitionPause k) t ∧ (t.part k).pausing = true)
      ∧ (∃ t, gives (.launchKill k) t ∧ ∀ l, s.launch? k = some l → l.ending = none →
          ∃ m, t.launch? k = some m ∧ m.ending = some (8, .none))
      ∧ (∃ t, gives (.contextTeardown k) t ∧ ∀ key l, s.launch? key = some l → l.context = k → l.ending = none →
          ∃ m, t.launch? key = some m ∧ m.ending = some (8, .none))

/-- Power (R274, R354 to R356, R373): a limit moves by at most one step between 0 and 7, the island clock slows only at level
0, a partition's only where its cap sets one, a fade goes to its next step (the levels of a ramp-down fall to 0), a launch's energy grows by its share of what the meters
read, an idle router with no wake pending sleeps, and wakes; no register of a program changes. -/
def Obligations.PowerEvents : Prop :=
  ∀ (s : State) (k : Nat) (meters : Meters) (limit : PowerLimit) (move : PowerMove),
    let reaches := fun (i : Instr) (p : State → Prop) => ∃ t, exec i s = .next t ∧ t.groups = s.groups ∧ SameMemory s t ∧ p t
    let near := fun (a b : Nat) => b ≤ a + 1 ∧ a ≤ b + 1
    reaches (.powerLimitUpdate k limit move) (fun t =>
      ((s.island k).cap ≤ 7 → near (s.island k).cap (t.island k).cap ∧ (t.island k).cap ≤ 7)
        ∧ ((s.island k).slow ≤ 2 → near (s.island k).slow (t.island k).slow ∧ (t.island k).slow ≤ 2)
        ∧ (s.level k ≠ 0 → (t.island k).slow ≤ (s.island k).slow)
        ∧ ((s.island k).thermal ≤ 7 → near (s.island k).thermal (t.island k).thermal ∧ (t.island k).thermal ≤ 7)
        ∧ (∀ p, (s.island k).part.get 7 p ≤ 7 →
            near ((s.island k).part.get 7 p) ((t.island k).part.get 7 p) ∧ (t.island k).part.get 7 p ≤ 7
              ∧ (s.capOf p = 0 → (t.island k).part.get 7 p = (s.island k).part.get 7 p))
        ∧ ((s.island k).row ≤ 7 → near (s.island k).row (t.island k).row ∧ (t.island k).row ≤ 7)
        ∧ ∀ j, j ≠ k → t.island j = s.island j)
      ∧ (∀ l, s.launch? k = some l → reaches (.fadeStep k) fun t => t.launch? k = some { s.fill l with fade := s.nextFade l })
      ∧ (∃ t, exec (.energyUpdate meters) s = .next t ∧ SameMemory s t
          ∧ (∀ key l, s.launch? key = some l → t.launch? key = some { l with
              energy := l.energy + BitVec.ofNat 64 (s.energyOf meters key l), filler := [], served := 0, cycles := 0 })
          ∧ (∀ key, s.launch? key = none → t.launch? key = none)
          ∧ t.groups = s.groups.map fun x => (x.1, { x.2 with work := 0, served := 0, since := s.clock }))
      ∧ (∀ t j, downLevel t (j + 1) ≤ downLevel t j ∧ downLevel t j ≤ t ∧ downLevel t 7 = 0)
      ∧ (∀ amount own total, own ≤ total → share amount own total ≤ amount ∧ (own = total → total ≠ 0 → share amount own total = amount))
      ∧ (s.routerIdle k = true → s.fabricWake = false → reaches (.routerPowerDown k) fun t =>
          (t.routers.get Router.start k).down = true)
      ∧ (s.routerIdle k = false ∨ s.fabricWake = true → reaches (.routerPowerDown k) fun t => t = s)
      ∧ reaches (.routerWake k) (fun t => t.routers.get Router.start k = ⟨false, s.clock⟩)

/-! ### The driver and the host -/

/-- The start (R393, R394, R395): with no failed unit and a verified image a package goes to step 11, a started one back to
step 0 with its memory on the host and its non-volatile store kept (log 50: the model's reading of a second start); a good mask ends step 11, a bad one is refused; the
record is cleared only while halted or before step 11. A unit that fails in a start is recorded, and mapped out at the next one
(R393). -/
def Obligations.DeviceStartEvents : Prop :=
  ∀ (s : State) (failures : List (Nat × Nat)) (mask : BitVec 128),
    let reaches := fun (i : Instr) (p : State → Prop) => ∃ t, exec i s = .next t ∧ p t
    (s.boot.step = 0 → (failures.contains (1, 0) = true → reaches (.deviceStart failures) fun t =>
        t.boot.halted = true ∧ t.boot.step = 1)
      ∧ (failures = [] → s.boot.record = [] → Config.sm2Verifies s.boot.image = true → reaches (.deviceStart failures) fun t =>
          t.boot.step = 11 ∧ t.boot.halted = s.boot.halted ∧ t.boot.record = [])
      ∧ (failures = [(9, 0)] → s.boot.record = [] → Config.sm2Verifies s.boot.image = true → reaches (.deviceStart failures) fun t =>
          t.boot.step = 11 ∧ t.boot.applied = [] ∧ t.boot.record = [⟨9, 0, 1, 2⟩])
      ∧ (failures.contains (1, 0) = false → Config.sm2Verifies s.boot.image = false → reaches (.deviceStart failures) fun t =>
          t.boot.halted = true ∧ t.boot.step = 2))
      ∧ (s.boot.step ≠ 0 → reaches (.deviceStart failures) fun t => t.boot.step = 0 ∧ t.boot.record = s.boot.record
          ∧ t.boot.image = s.boot.image ∧ t.groups = [] ∧ t.launches = []
          ∧ ∀ a, 2 ^ 51 ≤ a → t.byte a = s.byte a)
      ∧ (maskOk mask = true → s.boot.halted = false → s.boot.fixed = false → 11 ≤ s.boot.step →
          reaches (.featenWrite mask) fun t => t.driver.featEn = mask ∧ t.driver.featSt = 1 ∧ t.boot.ready = true ∧ t.boot.step = 12)
      ∧ (maskOk mask = false → reaches (.featenWrite mask) fun t => t = { s with driver := { s.driver with featSt := 2 } })
      ∧ (s.boot.halted = true ∨ s.boot.step < 11 → reaches .fsrclr fun t => t.boot.record = [] ∧ t.boot.image = s.boot.image)
      ∧ (s.boot.halted = false → 11 ≤ s.boot.step → reaches .fsrclr fun t => t = s)
      ∧ (s.boot.halted = true → 2 ^ 51 ≤ s.driver.imgBase.toNat →
          s.driver.imgBase.toNat + s.driver.imgLen.toNat ≤ 2 ^ 52 → reaches .imgctlGo fun t =>
            t.driver.imgDone = true ∧ t.boot.image = (List.range s.driver.imgLen.toNat).map fun i => s.byte (s.driver.imgBase.toNat + i))
      ∧ (reaches .attctlGo fun t => t.driver.attDone = true)

/-- The driver's registers and the host link (R290, R295, R325 to R333, R356): invalidation, the answer to a fault, the
rings' indices, counters that a read clears, the slices' records, host memory and reads through the link. -/
def Obligations.DriverEvents : Prop :=
  ∀ (s : State) (k n : Nat) (v : BitVec 32) (pa : BitVec 52) (bytes : List Byte) (verdict size : Bool) (w : BitVec 64),
    let gives := fun (i : Instr) (t : State) => exec i s = .next t
    let d := s.driver
    (d.invBusy = false → gives .invctlGo { s with driver := { d with invDone := false, invBusy := true } })
      ∧ (d.invBusy = true → ∃ t, gives .invalidationDone t ∧ (∀ e ∈ t.tlb, e ∈ s.tlb ∧ d.invalidates e = false)
          ∧ t.driver.invDone = true ∧ t.driver.invBusy = false)
      ∧ ((∀ f ∈ s.faults, f.id ≠ d.freplyId.toNat) → gives (.freply verdict) { s with driver := { d with badId := true } })
      ∧ ((∃ f ∈ s.faults, f.id = d.freplyId.toNat) → s.parkedOn d.freplyId.toNat = [] →
          ∃ t, gives (.freply verdict) t ∧ ∀ f ∈ t.faults, f.id ≠ d.freplyId.toNat)
      ∧ gives (.frconsWrite v) { s with driver := { d with frCons := v } }.postWaiting
      ∧ (s.faults ≠ [] → gives (.faultRingConfigWrite size w) { s with driver := { d with badSet := true } })
      ∧ (s.faults = [] → gives (.faultRingConfigWrite size w) { s with driver := { d with
          frSize := if size then w.setWidth 4 else d.frSize, frBase := if size then d.frBase else w
          frProd := 0, frCons := 0 } }.postWaiting)
      ∧ gives (.errconsWrite v) { s with driver := { d with errCons := v } }
      ∧ (∃ t, gives (.corerrRead k) t ∧ t.hostData = BitVec.ofNat 64 (s.core k).corerr ∧ (t.core k).corerr = 0)
      ∧ (∃ t, gives (.enaccRead k n) t ∧ t.hostData = (s.part k).energy.get 0 n ∧ (t.part k).energy.get 0 n = 0)
      ∧ (∃ t, gives .errlostRead t ∧ t.hostData = d.errLost.setWidth 64 ∧ t.driver.errLost = 0)
      ∧ (∃ t, gives (.sliceRateWrite k n false v) t ∧
          let c := (t.slice k).contexts.get SliceContext.start n
          c.rate = v.setWidth 16 ∧ c.tokens = c.depth ∧ c.debt = 0)
      ∧ (∃ t, gives (.sliceRateWrite k n true v) t ∧
          let c := (t.slice k).contexts.get SliceContext.start n
          c.depth = v.setWidth 16 ∧ c.borrow = (v >>> 16).setWidth 16 ∧ c.tokens = c.depth ∧ c.debt = 0)
      ∧ (∃ t, gives (.slwaysWrite k n v) t ∧ ((t.slice k).contexts.get SliceContext.start n).wayMask = v.setWidth 16)
      ∧ gives (.driverRegisterWrite 0x18 4 w) { s with driver := { d with domainId := (loHalf w).setWidth 12 } }
      ∧ gives (.driverRegisterWrite 0x48 8 w) { s with driver := { d with landBase := w } }
      ∧ (2 ^ 51 ≤ pa.toNat → pa.toNat + bytes.length ≤ 2 ^ 52 → d.tagBase.toNat + 2 ^ 47 ≤ 2 ^ 51 → ∃ t, gives (.hostWrite pa bytes) t
          ∧ (∀ i < bytes.length, t.byte (pa.toNat + i) = bytes.getD i 0 ∧ t.hostByte (pa.toNat + i) = bytes.getD i 0
              ∧ t.wordTag (pa.toNat + i) = 0)
          ∧ (∀ a, (a < pa.toNat ∨ pa.toNat + bytes.length ≤ a) → (a < d.tagBase.toNat ∨ d.tagBase.toNat + 2 ^ 47 ≤ a) →
              t.byte a = s.byte a)
          ∧ t.groups = s.groups)
      ∧ (pa.toNat < 2 ^ 51 → gives (.hostWrite pa bytes) s)
      ∧ (pa.toNat < 2 ^ 51 → s.stackDead pa.toNat = false → ∃ t, gives (.hostLinkRequest false pa bytes) t
          ∧ t.hostData = BitVec.ofNat 64 (s.readMem pa.toNat bytes.length) ∧ t.groups = s.groups)
      ∧ (pa.toNat < 2 ^ 51 → s.stackDead pa.toNat = true → ∃ t, gives (.hostLinkRequest false pa bytes) t ∧ t.hostPoison = true)
      ∧ (pa.toNat + bytes.length ≤ 2 ^ 51 → s.stackDead pa.toNat = false → bytes ≠ [] → ∃ t, gives (.hostLinkRequest true pa bytes) t
          ∧ (∀ i < bytes.length, t.byte (pa.toNat + i) = bytes.getD i 0)
          ∧ (∀ a, a < pa.toNat ∨ pa.toNat + bytes.length ≤ a → t.byte a = s.byte a))

/-! ### The step -/

/-- A step takes the first turn of the agenda (the order of turns is the model's: log 2). Where a stream may issue and its
bytes decode, the step is the instruction's meaning in that group; an undecodable word is ILLOP with its opcode (R62); a
deferred POISON is raised before the lane stream's next instruction (R239), before none that has begun (R190). A scalar instruction that
names a register held for an access on its way waits on the scoreboard (R70), and none is held where no access is on its way; an access on
its way is performed in its own turn (R65, R118, log 3), and so is an element of a copy command moved, or one of a delivery to a cluster
(R253, log 7); an atomic whose use lets it take effect before the instruction that the stream
stands at issues ahead of it (R307); an event takes place; a stream that may not issue leaves everything as it is. -/
def Obligations.StepRunsDecoded : Prop :=
  ∀ (s : State) (rest : List Turn) (k id : Nat) (i : Instr) (bytes : List Byte) (e : DecodeError),
    let a : State := { s with agenda := rest, cur := k }
    let lane := s.agenda = .lane k :: rest ∧ a.laneIssues = true
    let fetched := a.poisonFirst = none ∧ a.fetchLane a.grp = .ok bytes
    (s.agenda = .scalar k :: rest → a.grp.scalarRuns = true → a.fetchScalar a.grp = .ok bytes →
      (decodeBytes false bytes = .ok i → a.scalarLegal i = false ∨ a.scalarHeld i = false → step s = exec i a)
        ∧ (decodeBytes false bytes = .ok i → a.scalarLegal i = true → a.scalarHeld i = true → step s = .next (a.waitScalar .scoreboard))
        ∧ (decodeBytes false bytes = .error e → step s = .next (a.trapScalar cILLOP (illegalWord false bytes))))
      ∧ (a.grp.accesses = [] → a.scalarHeld i = false)
      ∧ (lane → fetched → decodeBytes true bytes = .ok i → step s = exec i a)
      ∧ (lane → fetched → decodeBytes true bytes = .error e → step s = .next (a.trapLane cILLOP (illegalWord true bytes)))
      ∧ (∀ index more, lane → a.laneBound = false → a.grp.stream.frag.issued = false → a.grp.xchg = none →
          a.grp.poisonDue = index :: more → step s =
            .next ((a.setGrp { a.grp with poisonDue := more }).trapLane cPOISON (poisonInfo 4 (BitVec.ofNat 64 index))))
      ∧ (s.agenda = .access k id :: rest → step s = .next ({ s with agenda := rest }.runAccess k id))
      ∧ (s.agenda = .engineMove k id :: rest →
          step s = .next (({ s with agenda := rest }.moveElement k).moveDelivery k id))
      ∧ (s.agenda = .ahead k :: rest → a.laneIssues = true → (a.leading = none → step s = .next a)
          ∧ ∀ j w kind t, a.leading = some (j, w, kind) → earlyAtomic j w kind (a.upd Group.movedOn) = some t →
            step s = .next (t.upd fun x => x.movedBack a.grp (laneSlots w (a.upd Group.movedOn))))
      ∧ (s.agenda = .event i :: rest → i.isLane = false → i.isScalar = false → step s = exec i { s with agenda := rest })
      ∧ (s.agenda = .scalar k :: rest → a.grp.scalarRuns = false → step s = .next a)
      ∧ (s.agenda = .lane k :: rest ∨ s.agenda = .ahead k :: rest → a.laneIssues = false → step s = .next a)

/-- The fetch (R48, R197): in its section, aligned and on a page that translates, a scalar instruction is the four bytes of
memory at the PC, a lane instruction the twelve at the fragment's PC, over two pages where it crosses from one to the next; where one
of their words is poisoned it is POISON with the PC; outside its section it is PROT, a misaligned scalar PC is MISALIGN; a page that
does not translate parks the stream, at the address of the first byte on it or of the last byte of the word. That a fetch gives the home
memory's bytes as they stand, and which of a word's addresses it translates, is log 4. -/
def Obligations.Fetch : Prop :=
  ∀ (s : State) (g : Group) (pa last : Nat) (tagged tagged2 : Bool),
    let r := s.recordOf g
    let pc := g.stream.frag.pc
    let first := 65536 - pc.toNat % 65536
    let next := last - last % 65536
    let sector := sectorOfCore g.core
    let crossing := inSection r.lcode r.llen pc = true ∧ canonical pc = true ∧ first < 12
      ∧ s.xlate g pc aFetch = .ok pa tagged ∧ s.xlate g (pc + 11) aFetch = .ok last tagged2
    (g.pc.toNat % 4 = 0 → inSection r.scode r.slen g.pc = true → canonical g.pc = true →
      s.xlate g g.pc aFetch = .ok pa tagged → s.xlate g (g.pc + 3) aFetch = .ok last tagged2 → s.poisoned (sectorOfCore g.core) pa 4 = false →
      s.fetchScalar g = .ok ((List.range 4).map fun i => s.byte (pa + i)))
      ∧ (inSection r.lcode r.llen pc = true → canonical pc = true → pc.toNat % 65536 ≤ 65524 →
          s.xlate g pc aFetch = .ok pa tagged → s.xlate g (pc + 11) aFetch = .ok last tagged2 → s.poisoned (sectorOfCore g.core) pa 12 = false →
          s.fetchLane g = .ok ((List.range 12).map fun i => s.byte (pa + i)))
      ∧ (g.pc.toNat % 4 = 0 → inSection r.scode r.slen g.pc = true → canonical g.pc = true →
          s.xlate g g.pc aFetch = .ok pa tagged → s.xlate g (g.pc + 3) aFetch = .ok last tagged2 →
          s.poisoned (sectorOfCore g.core) pa 4 = true → s.fetchScalar g = .trap cPOISON (poisonInfo 0 g.pc))
      ∧ (∀ kind, g.pc.toNat % 4 = 0 → inSection r.scode r.slen g.pc = true → canonical g.pc = true →
          s.xlate g g.pc aFetch = .fault kind → s.fetchScalar g = .park g.pc kind)
      ∧ (g.pc.toNat % 4 ≠ 0 → s.fetchScalar g = .trap cMISALIGN g.pc)
      ∧ (g.pc.toNat % 4 = 0 → inSection r.scode r.slen g.pc = false → s.fetchScalar g = .trap cPROT g.pc)
      ∧ (inSection r.lcode r.llen pc = false → s.fetchLane g = .trap cPROT pc)
      ∧ (crossing → s.poisoned sector pa first = false → s.poisoned sector next (12 - first) = false →
          s.fetchLane g = .ok (((List.range first).map fun i => s.byte (pa + i)) ++ (List.range (12 - first)).map fun i => s.byte (next + i)))
      ∧ (crossing → s.poisoned sector pa first = true ∨ s.poisoned sector next (12 - first) = true →
          s.fetchLane g = .trap cPOISON (poisonInfo 0 pc))
      ∧ (inSection r.lcode r.llen pc = true → canonical pc = true → first ≥ 12 →
          s.xlate g pc aFetch = .ok pa tagged → s.xlate g (pc + 11) aFetch = .ok last tagged2 → s.poisoned sector pa 12 = true →
          s.fetchLane g = .trap cPOISON (poisonInfo 0 pc))
      ∧ (∀ kind, inSection r.lcode r.llen pc = true → canonical pc = true →
          (s.xlate g pc aFetch = .fault kind → s.fetchLane g = .park pc kind)
            ∧ (s.xlate g pc aFetch = .ok pa tagged → s.xlate g (pc + 11) aFetch = .fault kind → s.fetchLane g = .park (pc + 11) kind))

/-- Every step goes on, but for one that the agenda gives a stream's instruction as an event: no instruction and no event is
refused. -/
def Obligations.StepAlwaysRuns : Prop :=
  ∀ s : State, (∀ i rest, s.agenda = .event i :: rest → i.isLane = false ∧ i.isScalar = false) → Runs (step s)

/-- A step keeps the canonical form of memory's bytes and tags (the model's own form of the spec's byte-addressed, tagged
memory: log 1). -/
def Obligations.StepKeepsMemoryOk : Prop :=
  ∀ s t : State, s.MemoryOk → step s = .next t → t.MemoryOk

/-- Reset and the start of a group. After reset the package has not started, nothing is resident, no launch stands and memory
is in its canonical form; a started group has its parameters in s1 to s15, every guard slot resolved true, zero in every
predicate, term register and status, and its PC at SCODE (R27, R40, R147, R393; values the spec gives none for are log 13's).
-/
def Obligations.StartValues : Prop :=
  (State.reset.MemoryOk ∧ State.reset.boot.step = 0 ∧ State.reset.boot.ready = false ∧ State.reset.groups = []
      ∧ State.reset.launches = [] ∧ State.reset.agenda = [])
    ∧ ∀ (l : Launch) (key k place base order r t : Nat) (c : Cast) (slot : Slot),
        let g := l.newGroup key c k place base order
        g.pc = l.record.scode ∧ (r ≠ 0 → r < 64 → g.rdS r = l.record.params.get 0 r) ∧ g.rdS 0 = 0
          ∧ g.guard slot = .resolved true ∧ g.thread t = Thread.start ∧ g.w = l.record.width ∧ g.n = roundN l.record.n
          ∧ g.laneQ = [] ∧ g.copyQ = [] ∧ g.fabQ = [] ∧ g.engOut = 0 ∧ g.unack = 0 ∧ g.sticky = 0 ∧ g.effect = false
          ∧ g.handler = none ∧ g.lane.running = false ∧ g.region = .start

/-! ### Words -/

/-- Words of the spec's examples, one or more of each stream, read as the instructions they stand for. -/
def Obligations.DecodeSanity : Prop :=
  decodeTableWord 32 0x101C6FFC = some (.saddi 7 6 0xFFC) ∧ decodeTableWord 32 0x192437AB = some (.slui 9 0x37AB)
    ∧ decodeTableWord 32 0x31280FFE = some (.sbne 10 0 0xFFE) ∧ decodeTableWord 32 0x49000000 = some (.region 0)
    ∧ decodeTableWord 32 0x46500002 = some (.wsplit 20 2) ∧ decodeTableWord 32 0x18402400 = some (.saddpi 16 2 0x400)
    ∧ decodeTableWord 32 0x50511900 = some (.cpy 5 false 2 3 8) ∧ decodeTableWord 32 0x70880006 = some (.scsrr 34 6)
    ∧ decodeTableWord 96 0x000100A0_18038000_04000000 = some (.iadd ⟨1, 5, 6, 7, 0, 0, false, false, false, 2, 0, 0, 0, 0, 0⟩)
    ∧ decodeTableWord 96 0x50100014_BFFFD080_00020000
        = some (.brm ⟨1, false, 5⟩ ⟨2, true, 0x1FFFD⟩ ⟨0, true, 0⟩ ⟨0, true, 0⟩)
    ∧ decodeTableWord 32 0x80000000 = none

/-- The encoder and the decoder agree: every word that stands for a well-formed instruction has its stream's length and reads
back as exactly that instruction, with every operand, and two instructions of one stream never share a word. -/
def Obligations.EncodingFaithful : Prop :=
  (∀ i bytes, i.wf = true → encode i = some bytes →
      decodeBytes i.isLane bytes = .ok i ∧ bytes.length = if i.isLane then 12 else 4)
    ∧ (∀ i j bytes, i.wf = true → j.wf = true → i.isLane = j.isLane → encode i = some bytes → encode j = some bytes → i = j)

end
end

