-- ==== Sys2Proof/Laws/Encoding.lean ====
section
/-!
SUPPORT. Laws of instruction words: bytes and words, fields of a word put together from fields, and the layout of R54.
-/
namespace Sys2Proof

theorem leNat_leBytes (n v : Nat) : leNat (leBytes n v) = v % 256 ^ n := by
  induction n generalizing v with
  | zero => simp [leBytes, leNat, Nat.mod_one]
  | succ n ih =>
    simp only [leBytes, leNat, ih, BitVec.toNat_ofNat]
    rw [show (256 : Nat) ^ (n + 1) = 256 * 256 ^ n by rw [Nat.pow_succ, Nat.mul_comm], Nat.mod_mul]

theorem length_leBytes (n v : Nat) : (leBytes n v).length = n := by
  induction n generalizing v with
  | zero => rfl
  | succ n ih => simp [leBytes, ih]

/-- The bytes of a scalar word decode as the word (R48). -/
theorem decodeBytes_scalar (w : Word) : decodeBytes false (leBytes 4 w.toNat) = decodeScalar w := by
  have h := w.isLt
  simp only [decodeBytes, leNat_leBytes, Bool.false_eq_true, if_false]
  rw [Nat.mod_eq_of_lt (by omega), BitVec.ofNat_toNat, BitVec.setWidth_eq]

/-- The bytes of a lane word decode as the word (R48). -/
theorem decodeBytes_lane (w : BitVec 96) : decodeBytes true (leBytes 12 w.toNat) = decodeLane w := by
  have h := w.isLt
  simp only [decodeBytes, leNat_leBytes, if_true]
  rw [Nat.mod_eq_of_lt (by omega), BitVec.ofNat_toNat, BitVec.setWidth_eq]

/-- A field of a word put together as a number. -/
theorem fld_eq {k n : Nat} (x : BitVec n) (N lo : Nat) (h : N % 2 ^ k / 2 ^ lo % 2 ^ n = x.toNat) :
    fld (BitVec.ofNat k N) lo n = x := by
  apply BitVec.eq_of_toNat_eq
  simp [fld, h]

/-- A one-bit field as a truth value. -/
theorem fld_bit {k : Nat} (b : Bool) (N lo : Nat) (h : N % 2 ^ k / 2 ^ lo % 2 = bitOf b) :
    (fld (BitVec.ofNat k N) lo 1 == 1) = b := by
  rw [fld_eq (BitVec.ofNat 1 (bitOf b)) N lo (by cases b <;> simpa [bitOf] using h)]
  cases b <;> rfl

theorem has_eq {k : Nat} (N lo n v : Nat) (h : N % 2 ^ k / 2 ^ lo % 2 ^ n = v) : has (BitVec.ofNat k N) lo n v = true := by
  simp [has, h]

theorem bitOf_le (b : Bool) : bitOf b ≤ 1 := by cases b <;> decide

/-! ### The layout of R54 -/

theorem packLane_toNat (op : Nat) (h : op < 256) (w : LaneOps) :
    (packLane op w).toNat = op * 2 ^ 88 + w.fn.toNat * 2 ^ 80 + w.vd.toNat * 2 ^ 69 + w.va.toNat * 2 ^ 58 + w.vb.toNat * 2 ^ 47
      + w.vc.toNat * 2 ^ 36 + w.q.toNat * 2 ^ 32 + bitOf w.neg * 2 ^ 31 + bitOf w.uni * 2 ^ 30 + bitOf w.ska * 2 ^ 29
      + w.type.toNat * 2 ^ 25 + w.scope.toNat * 2 ^ 22 + w.order.toNat * 2 ^ 20 + w.use.toNat * 2 ^ 17
      + w.rnd.toNat * 2 ^ 14 + w.imm.toNat := by
  have := w.fn.isLt; have := w.vd.isLt; have := w.va.isLt; have := w.vb.isLt; have := w.vc.isLt; have := w.q.isLt
  have := bitOf_le w.neg; have := bitOf_le w.uni; have := bitOf_le w.ska; have := w.type.isLt; have := w.scope.isLt
  have := w.order.isLt; have := w.use.isLt; have := w.rnd.isLt; have := w.imm.isLt
  unfold packLane
  rw [BitVec.toNat_ofNat]
  omega

theorem fld_of_toNat {k n : Nat} (x : BitVec n) (w : BitVec k) (lo : Nat) (h : w.toNat / 2 ^ lo % 2 ^ n = x.toNat) :
    fld w lo n = x := by
  apply BitVec.eq_of_toNat_eq
  simp [fld, h]

theorem fld_bit_of_toNat {k : Nat} (b : Bool) (w : BitVec k) (lo : Nat) (h : w.toNat / 2 ^ lo % 2 = bitOf b) :
    (fld w lo 1 == 1) = b := by
  rw [fld_of_toNat (BitVec.ofNat 1 (bitOf b)) w lo (by cases b <;> simpa [bitOf] using h)]
  cases b <;> rfl

/-- No bit of the layout of R54 is dropped. -/
theorem unpackLane_packLane (op : Nat) (h : op < 256) (w : LaneOps) : unpackLane (packLane op w) = w := by
  have := w.fn.isLt; have := w.vd.isLt; have := w.va.isLt; have := w.vb.isLt; have := w.vc.isLt; have := w.q.isLt
  have := bitOf_le w.neg; have := bitOf_le w.uni; have := bitOf_le w.ska; have := w.type.isLt; have := w.scope.isLt
  have := w.order.isLt; have := w.use.isLt; have := w.rnd.isLt; have := w.imm.isLt
  have hN := packLane_toNat op h w
  generalize packLane op w = p at hN
  unfold unpackLane
  rw [fld_of_toNat w.fn p 80 (by omega), fld_of_toNat w.vd p 69 (by omega), fld_of_toNat w.va p 58 (by omega),
    fld_of_toNat w.vb p 47 (by omega), fld_of_toNat w.vc p 36 (by omega), fld_of_toNat w.q p 32 (by omega),
    fld_bit_of_toNat w.neg p 31 (by omega), fld_bit_of_toNat w.uni p 30 (by omega), fld_bit_of_toNat w.ska p 29 (by omega),
    fld_of_toNat w.type p 25 (by omega), fld_of_toNat w.scope p 22 (by omega), fld_of_toNat w.order p 20 (by omega),
    fld_of_toNat w.use p 17 (by omega), fld_of_toNat w.rnd p 14 (by omega), fld_of_toNat w.imm p 0 (by omega)]

/-- A word of the layout of R54 is taken apart as its opcode says; opcode 0x18 with fn 1 or 2 is a long form (R60). -/
theorem unpackLaneWord_packLane (op : Nat) (h : op < 256) (w : LaneOps) (h50 : op ≠ 0x50) (h18 : op = 0x18 → w.fn = 0) :
    unpackLaneWord (packLane op w) = laneOf op w := by
  have hu := unpackLane_packLane op h w
  have hN := packLane_toNat op h w
  have := w.fn.isLt; have := w.vd.isLt; have := w.va.isLt; have := w.vb.isLt; have := w.vc.isLt; have := w.q.isLt
  have := bitOf_le w.neg; have := bitOf_le w.uni; have := bitOf_le w.ska; have := w.type.isLt; have := w.scope.isLt
  have := w.order.isLt; have := w.use.isLt; have := w.rnd.isLt; have := w.imm.isLt
  generalize packLane op w = p at hN hu
  have hop : p.toNat / 2 ^ 88 = op := by omega
  have hfn : op = 0x18 → p.toNat / 2 ^ 80 % 2 ^ 8 = 0 := by
    intro h; have hf : w.fn.toNat = 0 := by rw [h18 h]; rfl
    omega
  unfold unpackLaneWord
  simp only [hop, hu]
  rw [if_neg h50, if_neg, if_neg]
  · rintro ⟨h, h'⟩; have := hfn h; simp [has] at h'; omega
  · rintro ⟨h, h'⟩; have := hfn h; simp [has] at h'; omega

end Sys2Proof
end

