-- ==== Sys2Proof/Laws/Exec.lean ====
section
/-!
SUPPORT. What `exec` does with each instruction: the one call of its meaning, so that no proof unfolds the dispatch.
-/
set_option Elab.async false

namespace Sys2Proof.Machine

@[simp] theorem exec_sadd (sd sa sb : SReg) (s : State) : exec (.sadd sd sa sb) s = execSadd sd sa sb s := rfl
@[simp] theorem exec_ssub (sd sa sb : SReg) (s : State) : exec (.ssub sd sa sb) s = execSsub sd sa sb s := rfl
@[simp] theorem exec_smul (sd sa sb : SReg) (s : State) : exec (.smul sd sa sb) s = execSmul sd sa sb s := rfl
@[simp] theorem exec_smulh (sd sa sb : SReg) (s : State) : exec (.smulh sd sa sb) s = execSmulh sd sa sb s := rfl
@[simp] theorem exec_sdiv (sd sa sb : SReg) (s : State) : exec (.sdiv sd sa sb) s = execSdiv sd sa sb s := rfl
@[simp] theorem exec_srem (sd sa sb : SReg) (s : State) : exec (.srem sd sa sb) s = execSrem sd sa sb s := rfl
@[simp] theorem exec_sand (sd sa sb : SReg) (s : State) : exec (.sand sd sa sb) s = execSand sd sa sb s := rfl
@[simp] theorem exec_sor (sd sa sb : SReg) (s : State) : exec (.sor sd sa sb) s = execSor sd sa sb s := rfl
@[simp] theorem exec_sxor (sd sa sb : SReg) (s : State) : exec (.sxor sd sa sb) s = execSxor sd sa sb s := rfl
@[simp] theorem exec_sshl (sd sa sb : SReg) (s : State) : exec (.sshl sd sa sb) s = execSshl sd sa sb s := rfl
@[simp] theorem exec_sshr (sd sa sb : SReg) (s : State) : exec (.sshr sd sa sb) s = execSshr sd sa sb s := rfl
@[simp] theorem exec_ssra (sd sa sb : SReg) (s : State) : exec (.ssra sd sa sb) s = execSsra sd sa sb s := rfl
@[simp] theorem exec_smin (sd sa sb : SReg) (s : State) : exec (.smin sd sa sb) s = execSmin sd sa sb s := rfl
@[simp] theorem exec_smax (sd sa sb : SReg) (s : State) : exec (.smax sd sa sb) s = execSmax sd sa sb s := rfl
@[simp] theorem exec_sslt (sd sa sb : SReg) (s : State) : exec (.sslt sd sa sb) s = execSslt sd sa sb s := rfl
@[simp] theorem exec_saddp (sd sa sb : SReg) (s : State) : exec (.saddp sd sa sb) s = execSaddp sd sa sb s := rfl
@[simp] theorem exec_saddi (sd sa : SReg) (imm : BitVec 12) (s : State) : exec (.saddi sd sa imm) s = execSaddi sd sa imm s := rfl
@[simp] theorem exec_sandi (sd sa : SReg) (imm : BitVec 12) (s : State) : exec (.sandi sd sa imm) s = execSandi sd sa imm s := rfl
@[simp] theorem exec_sori (sd sa : SReg) (imm : BitVec 12) (s : State) : exec (.sori sd sa imm) s = execSori sd sa imm s := rfl
@[simp] theorem exec_sxori (sd sa : SReg) (imm : BitVec 12) (s : State) : exec (.sxori sd sa imm) s = execSxori sd sa imm s := rfl
@[simp] theorem exec_sshli (sd sa : SReg) (n : BitVec 5) (s : State) : exec (.sshli sd sa n) s = execSshli sd sa n s := rfl
@[simp] theorem exec_sshri (sd sa : SReg) (n : BitVec 5) (s : State) : exec (.sshri sd sa n) s = execSshri sd sa n s := rfl
@[simp] theorem exec_ssrai (sd sa : SReg) (n : BitVec 5) (s : State) : exec (.ssrai sd sa n) s = execSsrai sd sa n s := rfl
@[simp] theorem exec_sslti (sd sa : SReg) (imm : BitVec 12) (s : State) : exec (.sslti sd sa imm) s = execSslti sd sa imm s := rfl
@[simp] theorem exec_saddpi (sd sa : SReg) (imm : BitVec 12) (s : State) : exec (.saddpi sd sa imm) s = execSaddpi sd sa imm s := rfl
@[simp] theorem exec_slui (sd : SReg) (imm : BitVec 18) (s : State) : exec (.slui sd imm) s = execSlui sd imm s := rfl
@[simp] theorem exec_spopc (sd sa : SReg) (s : State) : exec (.spopc sd sa) s = execSpopc sd sa s := rfl
@[simp] theorem exec_sclz (sd sa : SReg) (s : State) : exec (.sclz sd sa) s = execSclz sd sa s := rfl
@[simp] theorem exec_sbfx (sd sa : SReg) (len pos : BitVec 5) (s : State) : exec (.sbfx sd sa len pos) s = execSbfx sd sa len pos s := rfl
@[simp] theorem exec_sbfi (sd sa : SReg) (len pos : BitVec 5) (s : State) : exec (.sbfi sd sa len pos) s = execSbfi sd sa len pos s := rfl
@[simp] theorem exec_ssel (sd sa sb sc : SReg) (s : State) : exec (.ssel sd sa sb sc) s = execSsel sd sa sb sc s := rfl
@[simp] theorem exec_sld (sd base : SReg) (off : BitVec 9) (s : State) : exec (.sld sd base off) s = execSld sd base off s := rfl
@[simp] theorem exec_sldp (sd base : SReg) (off : BitVec 9) (s : State) : exec (.sldp sd base off) s = execSldp sd base off s := rfl
@[simp] theorem exec_sst (ss base : SReg) (off : BitVec 9) (s : State) : exec (.sst ss base off) s = execSst ss base off s := rfl
@[simp] theorem exec_sstp (ss base : SReg) (off : BitVec 9) (s : State) : exec (.sstp ss base off) s = execSstp ss base off s := rfl
@[simp] theorem exec_sldaq (sd base : SReg) (scope : BitVec 3) (off : BitVec 9) (s : State) : exec (.sldaq sd base scope off) s = execSldaq sd base scope off s := rfl
@[simp] theorem exec_sstrl (ss base : SReg) (scope : BitVec 3) (off : BitVec 9) (s : State) : exec (.sstrl ss base scope off) s = execSstrl ss base scope off s := rfl
@[simp] theorem exec_samo (sd sa sb : SReg) (op scope : BitVec 3) (s : State) : exec (.samo sd sa sb op scope) s = execSamo sd sa sb op scope s := rfl
@[simp] theorem exec_scas (sd sa sb : SReg) (scope : BitVec 3) (s : State) : exec (.scas sd sa sb scope) s = execScas sd sa sb scope s := rfl
@[simp] theorem exec_fence (scope : BitVec 3) (order : BitVec 2) (s : State) : exec (.fence scope order) s = execFence scope order s := rfl
@[simp] theorem exec_racq (ss : SReg) (scope : BitVec 3) (s : State) : exec (.racq ss scope) s = execRacq ss scope s := rfl
@[simp] theorem exec_sbeq (sa sb : SReg) (off : BitVec 12) (s : State) : exec (.sbeq sa sb off) s = execSbeq sa sb off s := rfl
@[simp] theorem exec_sbne (sa sb : SReg) (off : BitVec 12) (s : State) : exec (.sbne sa sb off) s = execSbne sa sb off s := rfl
@[simp] theorem exec_sblt (sa sb : SReg) (off : BitVec 12) (s : State) : exec (.sblt sa sb off) s = execSblt sa sb off s := rfl
@[simp] theorem exec_sbge (sa sb : SReg) (off : BitVec 12) (s : State) : exec (.sbge sa sb off) s = execSbge sa sb off s := rfl
@[simp] theorem exec_sblo (sa sb : SReg) (off : BitVec 12) (s : State) : exec (.sblo sa sb off) s = execSblo sa sb off s := rfl
@[simp] theorem exec_sbhs (sa sb : SReg) (off : BitVec 12) (s : State) : exec (.sbhs sa sb off) s = execSbhs sa sb off s := rfl
@[simp] theorem exec_sj (off : BitVec 24) (s : State) : exec (.sj off) s = execSj off s := rfl
@[simp] theorem exec_sjal (sd : SReg) (off : BitVec 18) (s : State) : exec (.sjal sd off) s = execSjal sd off s := rfl
@[simp] theorem exec_sjr (sd sa : SReg) (imm : BitVec 12) (s : State) : exec (.sjr sd sa imm) s = execSjr sd sa imm s := rfl
@[simp] theorem exec_sloop (sa : SReg) (off : BitVec 12) (s : State) : exec (.sloop sa off) s = execSloop sa off s := rfl
@[simp] theorem exec_sbg (g : Slot) (neg : Bool) (off : BitVec 12) (s : State) : exec (.sbg g neg off) s = execSbg g neg off s := rfl
@[simp] theorem exec_lrun (g : Slot) (neg : Bool) (entry : BitVec 19) (s : State) : exec (.lrun g neg entry) s = execLrun g neg entry s := rfl
@[simp] theorem exec_lrunr (g : Slot) (neg : Bool) (sa : SReg) (s : State) : exec (.lrunr g neg sa) s = execLrunr g neg sa s := rfl
@[simp] theorem exec_lsync (s : State) : exec (.lsync) s = execLsync s := rfl
@[simp] theorem exec_gnew (g : Slot) (s : State) : exec (.gnew g) s = execGnew g s := rfl
@[simp] theorem exec_gsets (g : Slot) (neg : Bool) (sa : SReg) (s : State) : exec (.gsets g neg sa) s = execGsets g neg sa s := rfl
@[simp] theorem exec_gwait (g : Slot) (s : State) : exec (.gwait g) s = execGwait g s := rfl
@[simp] theorem exec_wsplit (sd : SReg) (ways : BitVec 18) (s : State) : exec (.wsplit sd ways) s = execWsplit sd ways s := rfl
@[simp] theorem exec_wfuse (sd sa : SReg) (tag : BitVec 12) (s : State) : exec (.wfuse sd sa tag) s = execWfuse sd sa tag s := rfl
@[simp] theorem exec_wgrow (n : BitVec 18) (s : State) : exec (.wgrow n) s = execWgrow n s := rfl
@[simp] theorem exec_region (index : BitVec 18) (s : State) : exec (.region index) s = execRegion index s := rfl
@[simp] theorem exec_sexit (s : State) : exec (.sexit) s = execSexit s := rfl
@[simp] theorem exec_syield (s : State) : exec (.syield) s = execSyield s := rfl
@[simp] theorem exec_cpy (g : Slot) (neg : Bool) (zd zs : Slot) (sa : SReg) (s : State) : exec (.cpy g neg zd zs sa) s = execCpy g neg zd zs sa s := rfl
@[simp] theorem exec_cpyq (g : Slot) (neg : Bool) (zd zs : Slot) (sa : SReg) (s : State) : exec (.cpyq g neg zd zs sa) s = execCpyq g neg zd zs sa s := rfl
@[simp] theorem exec_cpys (g : Slot) (neg : Bool) (zd : Slot) (sa : SReg) (s : State) : exec (.cpys g neg zd sa) s = execCpys g neg zd sa s := rfl
@[simp] theorem exec_gath (g : Slot) (neg : Bool) (zd zs zi : Slot) (s : State) : exec (.gath g neg zd zs zi) s = execGath g neg zd zs zi s := rfl
@[simp] theorem exec_scat (g : Slot) (neg : Bool) (zd zs zi : Slot) (s : State) : exec (.scat g neg zd zs zi) s = execScat g neg zd zs zi s := rfl
@[simp] theorem exec_mcast (g : Slot) (neg : Bool) (zd zs : Slot) (sa : SReg) (s : State) : exec (.mcast g neg zd zs sa) s = execMcast g neg zd zs sa s := rfl
@[simp] theorem exec_qpush (sa : SReg) (scope : BitVec 3) (queue : BitVec 6) (s : State) : exec (.qpush sa scope queue) s = execQpush sa scope queue s := rfl
@[simp] theorem exec_qpop (sd : SReg) (scope : BitVec 3) (queue : BitVec 6) (s : State) : exec (.qpop sd scope queue) s = execQpop sd scope queue s := rfl
@[simp] theorem exec_qtryPop (sd : SReg) (scope : BitVec 3) (queue : BitVec 6) (s : State) : exec (.qtryPop sd scope queue) s = execQtryPop sd scope queue s := rfl
@[simp] theorem exec_qtryPush (sd sa : SReg) (scope : BitVec 3) (queue : BitVec 6) (s : State) : exec (.qtryPush sd sa scope queue) s = execQtryPush sd sa scope queue s := rfl
@[simp] theorem exec_qtryCount (sd : SReg) (queue : BitVec 6) (s : State) : exec (.qtryCount sd queue) s = execQtryCount sd queue s := rfl
@[simp] theorem exec_qbind (sa sb : SReg) (queue : BitVec 6) (s : State) : exec (.qbind sa sb queue) s = execQbind sa sb queue s := rfl
@[simp] theorem exec_zld (z : Slot) (base : SReg) (off : BitVec 9) (s : State) : exec (.zld z base off) s = execZld z base off s := rfl
@[simp] theorem exec_zst (z : Slot) (base : SReg) (off : BitVec 9) (s : State) : exec (.zst z base off) s = execZst z base off s := rfl
@[simp] theorem exec_zset (z : Slot) (sa : SReg) (w : BitVec 4) (s : State) : exec (.zset z sa w) s = execZset z sa w s := rfl
@[simp] theorem exec_zget (sd : SReg) (z : Slot) (w : BitVec 4) (s : State) : exec (.zget sd z w) s = execZget sd z w s := rfl
@[simp] theorem exec_mkset (mk : Slot) (sa : SReg) (w : BitVec 2) (s : State) : exec (.mkset mk sa w) s = execMkset mk sa w s := rfl
@[simp] theorem exec_mksetPre (mk : Slot) (sa : SReg) (s : State) : exec (.mksetPre mk sa) s = execMksetPre mk sa s := rfl
@[simp] theorem exec_ewait (n : BitVec 18) (s : State) : exec (.ewait n) s = execEwait n s := rfl
@[simp] theorem exec_xput (g : Slot) (neg : Bool) (zl : Slot) (sa : SReg) (s : State) : exec (.xput g neg zl sa) s = execXput g neg zl sa s := rfl
@[simp] theorem exec_xget (g : Slot) (neg : Bool) (zl : Slot) (sa : SReg) (s : State) : exec (.xget g neg zl sa) s = execXget g neg zl sa s := rfl
@[simp] theorem exec_xwait (sd : SReg) (n : BitVec 7) (s : State) : exec (.xwait sd n) s = execXwait sd n s := rfl
@[simp] theorem exec_collAred (g : Slot) (neg : Bool) (zd zs : Slot) (sa : SReg) (op : BitVec 2) (s : State) : exec (.collAred g neg zd zs sa op) s = execCollAred g neg zd zs sa op s := rfl
@[simp] theorem exec_collAgath (g : Slot) (neg : Bool) (zd zs : Slot) (sa : SReg) (s : State) : exec (.collAgath g neg zd zs sa) s = execCollAgath g neg zd zs sa s := rfl
@[simp] theorem exec_collRscat (g : Slot) (neg : Bool) (zd zs : Slot) (sa : SReg) (op : BitVec 2) (s : State) : exec (.collRscat g neg zd zs sa op) s = execCollRscat g neg zd zs sa op s := rfl
@[simp] theorem exec_cwait (sd : SReg) (n : BitVec 4) (s : State) : exec (.cwait sd n) s = execCwait sd n s := rfl
@[simp] theorem exec_scsrr (sd : SReg) (csr : BitVec 12) (s : State) : exec (.scsrr sd csr) s = execScsrr sd csr s := rfl
@[simp] theorem exec_scsrw (ss : SReg) (csr : BitVec 12) (s : State) : exec (.scsrw ss csr) s = execScsrw ss csr s := rfl
@[simp] theorem exec_strap (code : BitVec 18) (s : State) : exec (.strap code) s = execStrap code s := rfl
@[simp] theorem exec_stret (s : State) : exec (.stret) s = execStret s := rfl
@[simp] theorem exec_snop (s : State) : exec (.snop) s = execSnop s := rfl
@[simp] theorem exec_sbrk (code : BitVec 18) (s : State) : exec (.sbrk code) s = execSbrk code s := rfl
@[simp] theorem exec_iadd (w : LaneOps) (s : State) : exec (.iadd w) s = execIadd w s := rfl
@[simp] theorem exec_isub (w : LaneOps) (s : State) : exec (.isub w) s = execIsub w s := rfl
@[simp] theorem exec_imul (w : LaneOps) (s : State) : exec (.imul w) s = execImul w s := rfl
@[simp] theorem exec_imulh (w : LaneOps) (s : State) : exec (.imulh w) s = execImulh w s := rfl
@[simp] theorem exec_imad (w : LaneOps) (s : State) : exec (.imad w) s = execImad w s := rfl
@[simp] theorem exec_imin (w : LaneOps) (s : State) : exec (.imin w) s = execImin w s := rfl
@[simp] theorem exec_imax (w : LaneOps) (s : State) : exec (.imax w) s = execImax w s := rfl
@[simp] theorem exec_iabs (w : LaneOps) (s : State) : exec (.iabs w) s = execIabs w s := rfl
@[simp] theorem exec_vand (w : LaneOps) (s : State) : exec (.vand w) s = execVand w s := rfl
@[simp] theorem exec_vor (w : LaneOps) (s : State) : exec (.vor w) s = execVor w s := rfl
@[simp] theorem exec_vxor (w : LaneOps) (s : State) : exec (.vxor w) s = execVxor w s := rfl
@[simp] theorem exec_blut (w : LaneOps) (s : State) : exec (.blut w) s = execBlut w s := rfl
@[simp] theorem exec_shl (w : LaneOps) (s : State) : exec (.shl w) s = execShl w s := rfl
@[simp] theorem exec_shr (w : LaneOps) (s : State) : exec (.shr w) s = execShr w s := rfl
@[simp] theorem exec_sra (w : LaneOps) (s : State) : exec (.sra w) s = execSra w s := rfl
@[simp] theorem exec_rotr (w : LaneOps) (s : State) : exec (.rotr w) s = execRotr w s := rfl
@[simp] theorem exec_popc (w : LaneOps) (s : State) : exec (.popc w) s = execPopc w s := rfl
@[simp] theorem exec_clz (w : LaneOps) (s : State) : exec (.clz w) s = execClz w s := rfl
@[simp] theorem exec_brev (w : LaneOps) (s : State) : exec (.brev w) s = execBrev w s := rfl
@[simp] theorem exec_bfx (w : LaneOps) (s : State) : exec (.bfx w) s = execBfx w s := rfl
@[simp] theorem exec_bfi (w : LaneOps) (s : State) : exec (.bfi w) s = execBfi w s := rfl
@[simp] theorem exec_icmp (w : LaneOps) (s : State) : exec (.icmp w) s = execIcmp w s := rfl
@[simp] theorem exec_sel (w : LaneOps) (s : State) : exec (.sel w) s = execSel w s := rfl
@[simp] theorem exec_mov (w : LaneOps) (s : State) : exec (.mov w) s = execMov w s := rfl
@[simp] theorem exec_movi (w : LaneOps) (s : State) : exec (.movi w) s = execMovi w s := rfl
@[simp] theorem exec_moviLong32 (vd : VReg) (q : PReg) (neg : Bool) (imm : BitVec 64) (s : State) : exec (.moviLong32 vd q neg imm) s = execMoviLong32 vd q neg imm s := rfl
@[simp] theorem exec_moviLong64 (vd : VReg) (q : PReg) (neg : Bool) (imm : BitVec 64) (s : State) : exec (.moviLong64 vd q neg imm) s = execMoviLong64 vd q neg imm s := rfl
@[simp] theorem exec_sregr (w : LaneOps) (s : State) : exec (.sregr w) s = execSregr w s := rfl
@[simp] theorem exec_fadd (w : LaneOps) (s : State) : exec (.fadd w) s = execFadd w s := rfl
@[simp] theorem exec_fsub (w : LaneOps) (s : State) : exec (.fsub w) s = execFsub w s := rfl
@[simp] theorem exec_fmul (w : LaneOps) (s : State) : exec (.fmul w) s = execFmul w s := rfl
@[simp] theorem exec_ffma (w : LaneOps) (s : State) : exec (.ffma w) s = execFfma w s := rfl
@[simp] theorem exec_fmin (w : LaneOps) (s : State) : exec (.fmin w) s = execFmin w s := rfl
@[simp] theorem exec_fmax (w : LaneOps) (s : State) : exec (.fmax w) s = execFmax w s := rfl
@[simp] theorem exec_fcmp (w : LaneOps) (s : State) : exec (.fcmp w) s = execFcmp w s := rfl
@[simp] theorem exec_fdiv (w : LaneOps) (s : State) : exec (.fdiv w) s = execFdiv w s := rfl
@[simp] theorem exec_fsqrt (w : LaneOps) (s : State) : exec (.fsqrt w) s = execFsqrt w s := rfl
@[simp] theorem exec_frcp (w : LaneOps) (s : State) : exec (.frcp w) s = execFrcp w s := rfl
@[simp] theorem exec_frsq (w : LaneOps) (s : State) : exec (.frsq w) s = execFrsq w s := rfl
@[simp] theorem exec_fex2 (w : LaneOps) (s : State) : exec (.fex2 w) s = execFex2 w s := rfl
@[simp] theorem exec_flg2 (w : LaneOps) (s : State) : exec (.flg2 w) s = execFlg2 w s := rfl
@[simp] theorem exec_fsin (w : LaneOps) (s : State) : exec (.fsin w) s = execFsin w s := rfl
@[simp] theorem exec_fcos (w : LaneOps) (s : State) : exec (.fcos w) s = execFcos w s := rfl
@[simp] theorem exec_fsinpi (w : LaneOps) (s : State) : exec (.fsinpi w) s = execFsinpi w s := rfl
@[simp] theorem exec_fcospi (w : LaneOps) (s : State) : exec (.fcospi w) s = execFcospi w s := rfl
@[simp] theorem exec_ftanh (w : LaneOps) (s : State) : exec (.ftanh w) s = execFtanh w s := rfl
@[simp] theorem exec_fclass (w : LaneOps) (s : State) : exec (.fclass w) s = execFclass w s := rfl
@[simp] theorem exec_frnd (w : LaneOps) (s : State) : exec (.frnd w) s = execFrnd w s := rfl
@[simp] theorem exec_cvt (w : LaneOps) (s : State) : exec (.cvt w) s = execCvt w s := rfl
@[simp] theorem exec_pack (w : LaneOps) (s : State) : exec (.pack w) s = execPack w s := rfl
@[simp] theorem exec_unpack (w : LaneOps) (s : State) : exec (.unpack w) s = execUnpack w s := rfl
@[simp] theorem exec_brm (s0 s1 s2 s3 : BrmSlot) (s : State) : exec (.brm s0 s1 s2 s3) s = execBrm s0 s1 s2 s3 s := rfl
@[simp] theorem exec_rcv (w : LaneOps) (s : State) : exec (.rcv w) s = execRcv w s := rfl
@[simp] theorem exec_lend (w : LaneOps) (s : State) : exec (.lend w) s = execLend w s := rfl
@[simp] theorem exec_gset (w : LaneOps) (s : State) : exec (.gset w) s = execGset w s := rfl
@[simp] theorem exec_qlop (w : LaneOps) (s : State) : exec (.qlop w) s = execQlop w s := rfl
@[simp] theorem exec_lnop (w : LaneOps) (s : State) : exec (.lnop w) s = execLnop w s := rfl
@[simp] theorem exec_shfl (w : LaneOps) (s : State) : exec (.shfl w) s = execShfl w s := rfl
@[simp] theorem exec_ballot (w : LaneOps) (s : State) : exec (.ballot w) s = execBallot w s := rfl
@[simp] theorem exec_vote (w : LaneOps) (s : State) : exec (.vote w) s = execVote w s := rfl
@[simp] theorem exec_vmatch (w : LaneOps) (s : State) : exec (.vmatch w) s = execVmatch w s := rfl
@[simp] theorem exec_redux (w : LaneOps) (s : State) : exec (.redux w) s = execRedux w s := rfl
@[simp] theorem exec_psum (w : LaneOps) (s : State) : exec (.psum w) s = execPsum w s := rfl
@[simp] theorem exec_vtos (w : LaneOps) (s : State) : exec (.vtos w) s = execVtos w s := rfl
@[simp] theorem exec_xchg (w : LaneOps) (s : State) : exec (.xchg w) s = execXchg w s := rfl
@[simp] theorem exec_ld (w : LaneOps) (s : State) : exec (.ld w) s = execLd w s := rfl
@[simp] theorem exec_st (w : LaneOps) (s : State) : exec (.st w) s = execSt w s := rfl
@[simp] theorem exec_ldv (w : LaneOps) (s : State) : exec (.ldv w) s = execLdv w s := rfl
@[simp] theorem exec_stv (w : LaneOps) (s : State) : exec (.stv w) s = execStv w s := rfl
@[simp] theorem exec_pref (w : LaneOps) (s : State) : exec (.pref w) s = execPref w s := rfl
@[simp] theorem exec_cwb (w : LaneOps) (s : State) : exec (.cwb w) s = execCwb w s := rfl
@[simp] theorem exec_atom (w : LaneOps) (s : State) : exec (.atom w) s = execAtom w s := rfl
@[simp] theorem exec_cas (w : LaneOps) (s : State) : exec (.cas w) s = execCas w s := rfl
@[simp] theorem exec_red (w : LaneOps) (s : State) : exec (.red w) s = execRed w s := rfl
@[simp] theorem exec_fatom (w : LaneOps) (s : State) : exec (.fatom w) s = execFatom w s := rfl
@[simp] theorem exec_lres (w : LaneOps) (s : State) : exec (.lres w) s = execLres w s := rfl
@[simp] theorem exec_scond (w : LaneOps) (s : State) : exec (.scond w) s = execScond w s := rfl
@[simp] theorem exec_tld (w : LaneOps) (s : State) : exec (.tld w) s = execTld w s := rfl
@[simp] theorem exec_tst (w : LaneOps) (s : State) : exec (.tst w) s = execTst w s := rfl
@[simp] theorem exec_tmk (w : LaneOps) (s : State) : exec (.tmk w) s = execTmk w s := rfl
@[simp] theorem exec_tget (w : LaneOps) (s : State) : exec (.tget w) s = execTget w s := rfl
@[simp] theorem exec_tset (w : LaneOps) (s : State) : exec (.tset w) s = execTset w s := rfl
@[simp] theorem exec_ttest (w : LaneOps) (s : State) : exec (.ttest w) s = execTtest w s := rfl
@[simp] theorem exec_func (w : LaneOps) (s : State) : exec (.func w) s = execFunc w s := rfl
@[simp] theorem exec_deref (w : LaneOps) (s : State) : exec (.deref w) s = execDeref w s := rfl
@[simp] theorem exec_bind (w : LaneOps) (s : State) : exec (.bind w) s = execBind w s := rfl
@[simp] theorem exec_unify (w : LaneOps) (s : State) : exec (.unify w) s = execUnify w s := rfl
@[simp] theorem exec_halloc (w : LaneOps) (s : State) : exec (.halloc w) s = execHalloc w s := rfl
@[simp] theorem exec_choice (w : LaneOps) (s : State) : exec (.choice w) s = execChoice w s := rfl
@[simp] theorem exec_nextalt (w : LaneOps) (s : State) : exec (.nextalt w) s = execNextalt w s := rfl
@[simp] theorem exec_backtrack (w : LaneOps) (s : State) : exec (.backtrack w) s = execBacktrack w s := rfl
@[simp] theorem exec_cut (w : LaneOps) (s : State) : exec (.cut w) s = execCut w s := rfl
@[simp] theorem exec_commit (w : LaneOps) (s : State) : exec (.commit w) s = execCommit w s := rfl
@[simp] theorem exec_mma (w : LaneOps) (s : State) : exec (.mma w) s = execMma w s := rfl
@[simp] theorem exec_mmai (w : LaneOps) (s : State) : exec (.mmai w) s = execMmai w s := rfl
@[simp] theorem exec_mzero (w : LaneOps) (s : State) : exec (.mzero w) s = execMzero w s := rfl
@[simp] theorem exec_mlda (w : LaneOps) (s : State) : exec (.mlda w) s = execMlda w s := rfl
@[simp] theorem exec_msta (w : LaneOps) (s : State) : exec (.msta w) s = execMsta w s := rfl
@[simp] theorem exec_mflag (w : LaneOps) (s : State) : exec (.mflag w) s = execMflag w s := rfl
@[simp] theorem exec_mflagc (w : LaneOps) (s : State) : exec (.mflagc w) s = execMflagc w s := rfl
@[simp] theorem exec_mfence (w : LaneOps) (s : State) : exec (.mfence w) s = execMfence w s := rfl
@[simp] theorem exec_mwait (w : LaneOps) (s : State) : exec (.mwait w) s = execMwait w s := rfl
@[simp] theorem exec_mwaitn (w : LaneOps) (s : State) : exec (.mwaitn w) s = execMwaitn w s := rfl
@[simp] theorem exec_laneBlockStart (group : Nat) (s : State) : exec (.laneBlockStart group) s = execLaneBlockStart group s := rfl
@[simp] theorem exec_guardedEntryDiscard (group : Nat) (queue : QueueKind) (s : State) : exec (.guardedEntryDiscard group queue) s = execGuardedEntryDiscard group queue s := rfl
@[simp] theorem exec_copyCommandStart (group : Nat) (s : State) : exec (.copyCommandStart group) s = execCopyCommandStart group s := rfl
@[simp] theorem exec_engineCommandComplete (cmd : Nat) (s : State) : exec (.engineCommandComplete cmd) s = execEngineCommandComplete cmd s := rfl
@[simp] theorem exec_cpyqPush (cmd : Nat) (s : State) : exec (.cpyqPush cmd) s = execCpyqPush cmd s := rfl
@[simp] theorem exec_mcastDelivery (cmd cluster : Nat) (s : State) : exec (.mcastDelivery cmd cluster) s = execMcastDelivery cmd cluster s := rfl
@[simp] theorem exec_mcastComplete (cmd : Nat) (s : State) : exec (.mcastComplete cmd) s = execMcastComplete cmd s := rfl
@[simp] theorem exec_fabricCommandStart (group : Nat) (s : State) : exec (.fabricCommandStart group) s = execFabricCommandStart group s := rfl
@[simp] theorem exec_fabricPacketReceive (packet : Packet) (s : State) : exec (.fabricPacketReceive packet) s = execFabricPacketReceive packet s := rfl
@[simp] theorem exec_fabricCommandComplete (cmd : Nat) (reply : FabricReply) (s : State) : exec (.fabricCommandComplete cmd reply) s = execFabricCommandComplete cmd reply s := rfl
@[simp] theorem exec_collCommandStart (group : Nat) (s : State) : exec (.collCommandStart group) s = execCollCommandStart group s := rfl
@[simp] theorem exec_collContributionReceive (set : Nat) (seq : BitVec 32) (rank : Nat) (data : Contribution) (s : State) : exec (.collContributionReceive set seq rank data) s = execCollContributionReceive set seq rank data s := rfl
@[simp] theorem exec_collInstanceComplete (cmd : Nat) (s : State) : exec (.collInstanceComplete cmd) s = execCollInstanceComplete cmd s := rfl
@[simp] theorem exec_collAbortReceive (set : Nat) (seq : BitVec 32) (nack : Bool) (s : State) : exec (.collAbortReceive set seq nack) s = execCollAbortReceive set seq nack s := rfl
@[simp] theorem exec_matrixOpStart (core unit : Nat) (s : State) : exec (.matrixOpStart core unit) s = execMatrixOpStart core unit s := rfl
@[simp] theorem exec_matrixOpComplete (op : Nat) (s : State) : exec (.matrixOpComplete op) s = execMatrixOpComplete op s := rfl
@[simp] theorem exec_batchComplete (group : Nat) (s : State) : exec (.batchComplete group) s = execBatchComplete group s := rfl
@[simp] theorem exec_l1WriteRequestSend (l1 line group : Nat) (s : State) : exec (.l1WriteRequestSend l1 line group) s = execL1WriteRequestSend l1 line group s := rfl
@[simp] theorem exec_homeWriteMerge (slice req : Nat) (s : State) : exec (.homeWriteMerge slice req) s = execHomeWriteMerge slice req s := rfl
@[simp] theorem exec_writeAck (req : Nat) (s : State) : exec (.writeAck req) s = execWriteAck req s := rfl
@[simp] theorem exec_homeRead (slice req : Nat) (s : State) : exec (.homeRead slice req) s = execHomeRead slice req s := rfl
@[simp] theorem exec_l1Fill (req : Nat) (s : State) : exec (.l1Fill req) s = execL1Fill req s := rfl
@[simp] theorem exec_visitorFill (req : Nat) (s : State) : exec (.visitorFill req) s = execVisitorFill req s := rfl
@[simp] theorem exec_homeAtomic (slice req : Nat) (s : State) : exec (.homeAtomic slice req) s = execHomeAtomic slice req s := rfl
@[simp] theorem exec_pinRegistration (slice req : Nat) (s : State) : exec (.pinRegistration slice req) s = execPinRegistration slice req s := rfl
@[simp] theorem exec_retryResend (req : Nat) (s : State) : exec (.retryResend req) s = execRetryResend req s := rfl
@[simp] theorem exec_racqDrainOrder (group : Nat) (s : State) : exec (.racqDrainOrder group) s = execRacqDrainOrder group s := rfl
@[simp] theorem exec_racqDrainReply (group : Nat) (s : State) : exec (.racqDrainReply group) s = execRacqDrainReply group s := rfl
@[simp] theorem exec_sliceTokenRefill (slice : Nat) (s : State) : exec (.sliceTokenRefill slice) s = execSliceTokenRefill slice s := rfl
@[simp] theorem exec_sliceRequestService (slice : Nat) (s : State) : exec (.sliceRequestService slice) s = execSliceRequestService slice s := rfl
@[simp] theorem exec_correctedError (point : ErrorPoint) (unit : Nat) (pa : BitVec 52) (s : State) : exec (.correctedError point unit pa) s = execCorrectedError point unit pa s := rfl
@[simp] theorem exec_errorCountInterval (slice : Nat) (s : State) : exec (.errorCountInterval slice) s = execErrorCountInterval slice s := rfl
@[simp] theorem exec_uncorrectableError (site : ErrorSite) (s : State) : exec (.uncorrectableError site) s = execUncorrectableError site s := rfl
@[simp] theorem exec_stackFailure (stack : Nat) (s : State) : exec (.stackFailure stack) s = execStackFailure stack s := rfl
@[simp] theorem exec_linkFailure (s : State) : exec .linkFailure s = execLinkFailure s := rfl
@[simp] theorem exec_sectorFailure (sector : Nat) (s : State) : exec (.sectorFailure sector) s = execSectorFailure sector s := rfl
@[simp] theorem exec_islandFault (cluster : Nat) (s : State) : exec (.islandFault cluster) s = execIslandFault cluster s := rfl
@[simp] theorem exec_flitResend (port : Nat) (ok : Bool) (s : State) : exec (.flitResend port ok) s = execFlitResend port ok s := rfl
@[simp] theorem exec_fabricComplexFailure (s : State) : exec (.fabricComplexFailure) s = execFabricComplexFailure s := rfl
@[simp] theorem exec_handlerEntryDeferred (group : Nat) (s : State) : exec (.handlerEntryDeferred group) s = execHandlerEntryDeferred group s := rfl
@[simp] theorem exec_fragmentWatchdog (group : Nat) (s : State) : exec (.fragmentWatchdog group) s = execFragmentWatchdog group s := rfl
@[simp] theorem exec_fairnessSwitch (group : Nat) (s : State) : exec (.fairnessSwitch group) s = execFairnessSwitch group s := rfl
@[simp] theorem exec_preemptionRequest (group : Nat) (s : State) : exec (.preemptionRequest group) s = execPreemptionRequest group s := rfl
@[simp] theorem exec_tenantTimeout (group : Nat) (s : State) : exec (.tenantTimeout group) s = execTenantTimeout group s := rfl
@[simp] theorem exec_groupRestore (group : Nat) (s : State) : exec (.groupRestore group) s = execGroupRestore group s := rfl
@[simp] theorem exec_castSave (launch core : Nat) (s : State) : exec (.castSave launch core) s = execCastSave launch core s := rfl
@[simp] theorem exec_castRestore (launch core : Nat) (s : State) : exec (.castRestore launch core) s = execCastRestore launch core s := rfl
@[simp] theorem exec_wgrowGrant (core : Nat) (s : State) : exec (.wgrowGrant core) s = execWgrowGrant core s := rfl
@[simp] theorem exec_wgrowDeadlockPreempt (core : Nat) (s : State) : exec (.wgrowDeadlockPreempt core) s = execWgrowDeadlockPreempt core s := rfl
@[simp] theorem exec_wfuseTimeout (group : Nat) (s : State) : exec (.wfuseTimeout group) s = execWfuseTimeout group s := rfl
@[simp] theorem exec_xchgTimeout (group : Nat) (s : State) : exec (.xchgTimeout group) s = execXchgTimeout group s := rfl
@[simp] theorem exec_syieldResume (group : Nat) (s : State) : exec (.syieldResume group) s = execSyieldResume group s := rfl
@[simp] theorem exec_schedulerRotation (launch : Nat) (s : State) : exec (.schedulerRotation launch) s = execSchedulerRotation launch s := rfl
@[simp] theorem exec_admissionPreempt (queue : Nat) (s : State) : exec (.admissionPreempt queue) s = execAdmissionPreempt queue s := rfl
@[simp] theorem exec_callboardSlotRelease (slot : Nat) (s : State) : exec (.callboardSlotRelease slot) s = execCallboardSlotRelease slot s := rfl
@[simp] theorem exec_launchAdmit (s : State) : exec (.launchAdmit) s = execLaunchAdmit s := rfl
@[simp] theorem exec_groupDispatch (launch : Nat) (s : State) : exec (.groupDispatch launch) s = execGroupDispatch launch s := rfl
@[simp] theorem exec_launchComplete (launch : Nat) (s : State) : exec (.launchComplete launch) s = execLaunchComplete launch s := rfl
@[simp] theorem exec_contextTimeSlice (partition : Nat) (s : State) : exec (.contextTimeSlice partition) s = execContextTimeSlice partition s := rfl
@[simp] theorem exec_powerLimitUpdate (cluster : Nat) (limit : PowerLimit) (move : PowerMove) (s : State) : exec (.powerLimitUpdate cluster limit move) s = execPowerLimitUpdate cluster limit move s := rfl
@[simp] theorem exec_fadeStep (launch : Nat) (s : State) : exec (.fadeStep launch) s = execFadeStep launch s := rfl
@[simp] theorem exec_energyUpdate (meters : Meters) (s : State) : exec (.energyUpdate meters) s = execEnergyUpdate meters s := rfl
@[simp] theorem exec_routerPowerDown (router : Nat) (s : State) : exec (.routerPowerDown router) s = execRouterPowerDown router s := rfl
@[simp] theorem exec_routerWake (router : Nat) (s : State) : exec (.routerWake router) s = execRouterWake router s := rfl
@[simp] theorem exec_hostWrite (pa : BitVec 52) (bytes : List Byte) (s : State) : exec (.hostWrite pa bytes) s = execHostWrite pa bytes s := rfl
@[simp] theorem exec_deviceStart (failures : List (Nat × Nat)) (s : State) : exec (.deviceStart failures) s = execDeviceStart failures s := rfl
@[simp] theorem exec_invalidationDone (s : State) : exec (.invalidationDone) s = execInvalidationDone s := rfl
@[simp] theorem exec_notifyStore (queue : Nat) (t : BitVec 32) (s : State) : exec (.notifyStore queue t) s = execNotifyStore queue t s := rfl
@[simp] theorem exec_invctlGo (s : State) : exec (.invctlGo) s = execInvctlGo s := rfl
@[simp] theorem exec_freply (verdict : Bool) (s : State) : exec (.freply verdict) s = execFreply verdict s := rfl
@[simp] theorem exec_frconsWrite (v : BitVec 32) (s : State) : exec (.frconsWrite v) s = execFrconsWrite v s := rfl
@[simp] theorem exec_faultRingConfigWrite (size : Bool) (v : BitVec 64) (s : State) : exec (.faultRingConfigWrite size v) s = execFaultRingConfigWrite size v s := rfl
@[simp] theorem exec_errconsWrite (v : BitVec 32) (s : State) : exec (.errconsWrite v) s = execErrconsWrite v s := rfl
@[simp] theorem exec_corerrRead (core : Nat) (s : State) : exec (.corerrRead core) s = execCorerrRead core s := rfl
@[simp] theorem exec_enaccRead (partition entry : Nat) (s : State) : exec (.enaccRead partition entry) s = execEnaccRead partition entry s := rfl
@[simp] theorem exec_errlostRead (s : State) : exec (.errlostRead) s = execErrlostRead s := rfl
@[simp] theorem exec_imgctlGo (s : State) : exec (.imgctlGo) s = execImgctlGo s := rfl
@[simp] theorem exec_attctlGo (s : State) : exec (.attctlGo) s = execAttctlGo s := rfl
@[simp] theorem exec_fsrclr (s : State) : exec (.fsrclr) s = execFsrclr s := rfl
@[simp] theorem exec_featenWrite (mask : BitVec 128) (s : State) : exec (.featenWrite mask) s = execFeatenWrite mask s := rfl
@[simp] theorem exec_sliceRateWrite (slice context : Nat) (depthReg : Bool) (v : BitVec 32) (s : State) : exec (.sliceRateWrite slice context depthReg v) s = execSliceRateWrite slice context depthReg v s := rfl
@[simp] theorem exec_slwaysWrite (slice context : Nat) (v : BitVec 32) (s : State) : exec (.slwaysWrite slice context v) s = execSlwaysWrite slice context v s := rfl
@[simp] theorem exec_driverRegisterWrite (offset size : Nat) (v : BitVec 64) (s : State) : exec (.driverRegisterWrite offset size v) s = execDriverRegisterWrite offset size v s := rfl
@[simp] theorem exec_hostLinkRequest (write : Bool) (pa : BitVec 52) (bytes : List Byte) (s : State) : exec (.hostLinkRequest write pa bytes) s = execHostLinkRequest write pa bytes s := rfl
@[simp] theorem exec_contextTeardown (context : Nat) (s : State) : exec (.contextTeardown context) s = execContextTeardown context s := rfl
@[simp] theorem exec_launchKill (launch : Nat) (s : State) : exec (.launchKill launch) s = execLaunchKill launch s := rfl
@[simp] theorem exec_sliceMoveComplete (slice : Nat) (s : State) : exec (.sliceMoveComplete slice) s = execSliceMoveComplete slice s := rfl
@[simp] theorem exec_partitionPause (partition : Nat) (s : State) : exec (.partitionPause partition) s = execPartitionPause partition s := rfl

end Sys2Proof.Machine
end

