-- ==== Sys2Proof/Laws/Table.lean ====
section
/-!
SUPPORT. Laws of sparse tables: reads over writes hold of every table, canonical or not, and every operation keeps the
canonical form.
-/
namespace Sys2Proof.Machine

variable {β : Type}

theorem Table.get_put (d : β) (t : Table β) (i j : Nat) (v : β) (h : ∀ kv ∈ t, kv.1 ≠ i) :
    (t.put i v).get d j = if j = i then v else t.get d j := by
  induction t with
  | nil => simp [Table.put, Table.get]
  | cons kv t ih =>
    obtain ⟨k, w⟩ := kv
    unfold Table.put
    split
    · simp [Table.get]
    · have hk : k ≠ i := h (k, w) (by simp)
      simp only [Table.get, ih fun kv hm => h kv (by simp [hm])]
      by_cases hj : j = k
      · subst hj; simp [hk]
      · simp [hj]

theorem Table.get_erase (d : β) (t : Table β) (i j : Nat) : (t.erase i).get d j = if j = i then d else t.get d j := by
  unfold Table.erase
  induction t with
  | nil => simp [Table.get]
  | cons kv t ih =>
    obtain ⟨k, w⟩ := kv
    simp only [List.filter_cons]
    split
    · next hk =>
      have hk : k ≠ i := by simpa using hk
      simp only [Table.get, ih]
      by_cases hj : j = k
      · subst hj; simp [hk]
      · simp [hj]
    · next hk =>
      have hk : k = i := by simpa using hk
      subst hk
      simp only [ih, Table.get]
      by_cases hj : j = k <;> simp [hj]

theorem Table.not_mem_erase (t : Table β) (i : Nat) : ∀ kv ∈ t.erase i, kv.1 ≠ i := by
  intro kv h
  simpa using (List.mem_filter.1 h).2

/-- A read after a write: the written key gives the written value, every other key what it gave. -/
theorem Table.get_set [DecidableEq β] (d : β) (t : Table β) (i j : Nat) (v : β) :
    (t.set d i v).get d j = if j = i then v else t.get d j := by
  unfold Table.set
  split
  · subst v; exact Table.get_erase d t i j
  · rw [Table.get_put d _ i j v (t.not_mem_erase i), Table.get_erase]
    split <;> rfl

theorem Table.erase_eq_self {t : Table β} {i : Nat} (h : ∀ kv ∈ t, kv.1 ≠ i) : t.erase i = t := by
  unfold Table.erase
  rw [List.filter_eq_self]
  intro kv hm
  simp [h kv hm]

theorem Table.erase_put {t : Table β} {i : Nat} (v : β) (h : ∀ kv ∈ t, kv.1 ≠ i) : (t.put i v).erase i = t := by
  induction t with
  | nil => simp [Table.put, Table.erase]
  | cons kv t ih =>
    obtain ⟨k, w⟩ := kv
    have hk : k ≠ i := h (k, w) (by simp)
    have ht : ∀ kv ∈ t, kv.1 ≠ i := fun kv hm => h kv (by simp [hm])
    have e := Table.erase_eq_self ht
    unfold Table.put
    split
    · simpa [Table.erase, hk] using e
    · have e' := ih ht
      simpa [Table.erase, hk] using e'

/-- A second write of a key replaces the first. -/
@[simp] theorem Table.set_set [DecidableEq β] (d : β) (t : Table β) (i : Nat) (v w : β) :
    (t.set d i v).set d i w = t.set d i w := by
  have he : (t.set d i v).erase i = t.erase i := by
    unfold Table.set
    split
    · exact Table.erase_eq_self (t.not_mem_erase i)
    · exact Table.erase_put v (t.not_mem_erase i)
  unfold Table.set at he ⊢
  simp only [he]

@[simp] theorem Table.get_set_self [DecidableEq β] (d : β) (t : Table β) (i : Nat) (v : β) : (t.set d i v).get d i = v := by
  simp [Table.get_set]

theorem Table.get_set_ne [DecidableEq β] (d : β) (t : Table β) {i j : Nat} (v : β) (h : j ≠ i) :
    (t.set d i v).get d j = t.get d j := by
  simp [Table.get_set, h]

@[simp] theorem Table.get_nil (d : β) (i : Nat) : Table.get d ([] : Table β) i = d := rfl

/-! ### The canonical form -/

variable [DecidableEq β]

theorem Table.wfFrom_mono (d : β) {t : Table β} {lo lo' : Nat} (h : lo ≤ lo') (ht : t.wfFrom d lo' = true) : t.wfFrom d lo = true := by
  cases t with
  | nil => rfl
  | cons kv t =>
    simp only [Table.wfFrom, Bool.and_eq_true, decide_eq_true_eq] at *
    exact ⟨⟨Nat.le_trans h ht.1.1, ht.1.2⟩, ht.2⟩

theorem Table.wfFrom_filter (d : β) (p : Nat × β → Bool) {t : Table β} {lo : Nat} (h : t.wfFrom d lo = true) :
    Table.wfFrom d lo (t.filter p) = true := by
  induction t generalizing lo with
  | nil => rfl
  | cons kv t ih =>
    obtain ⟨k, v⟩ := kv
    simp only [Table.wfFrom, Bool.and_eq_true, decide_eq_true_eq] at h
    rw [List.filter_cons]
    split
    · simp only [Table.wfFrom, Bool.and_eq_true, decide_eq_true_eq]
      exact ⟨h.1, ih h.2⟩
    · exact Table.wfFrom_mono d (Nat.le_succ_of_le h.1.1) (ih h.2)

theorem Table.wfFrom_put (d : β) {t : Table β} {lo i : Nat} {v : β} (hv : v ≠ d) (hi : lo ≤ i)
    (hn : ∀ kv ∈ t, kv.1 ≠ i) (h : t.wfFrom d lo = true) : Table.wfFrom d lo (t.put i v) = true := by
  induction t generalizing lo with
  | nil => simp [Table.put, Table.wfFrom, hv, hi]
  | cons kv t ih =>
    obtain ⟨k, w⟩ := kv
    simp only [Table.wfFrom, Bool.and_eq_true, decide_eq_true_eq, Bool.not_eq_true', decide_eq_false_iff_not] at h
    have hk : k ≠ i := hn (k, w) (by simp)
    unfold Table.put
    split
    · next hlt => simp [Table.wfFrom, hv, hi, h.1.2, h.2]; omega
    · simp only [Table.wfFrom, Bool.and_eq_true, decide_eq_true_eq, Bool.not_eq_true', decide_eq_false_iff_not]
      exact ⟨h.1, ih (by omega) (fun kv hm => hn kv (by simp [hm])) h.2⟩

/-- A write keeps the canonical form. -/
theorem Table.wf_set (d : β) {t : Table β} (i : Nat) (v : β) (h : t.wf d = true) : Table.wf d (t.set d i v) = true := by
  unfold Table.set
  split
  · exact Table.wfFrom_filter d _ h
  · next hv => exact Table.wfFrom_put d hv (Nat.zero_le i) (t.not_mem_erase i) (Table.wfFrom_filter d _ h)

theorem Table.wf_clear (d : β) {t : Table β} (lo hi : Nat) (h : t.wf d = true) : Table.wf d (t.clear lo hi) = true :=
  Table.wfFrom_filter d _ h

theorem Table.wf_filter (d : β) (p : Nat × β → Bool) {t : Table β} (h : t.wf d = true) : Table.wf d (t.filter p) = true :=
  Table.wfFrom_filter d p h

theorem Table.wf_setAll (d : β) {t : Table β} (kvs : List (Nat × β)) (h : t.wf d = true) : Table.wf d (t.setAll d kvs) = true := by
  unfold Table.setAll
  induction kvs generalizing t with
  | nil => exact h
  | cons kv kvs ih => exact ih (Table.wf_set d kv.1 kv.2 h)

end Sys2Proof.Machine
end

