-- ==== Sys2Proof/Laws/State.lean ====
section
/-!
SUPPORT. Laws of the state: what each named update leaves alone, and reads of a part after a write of it.
-/
set_option Elab.async false

namespace Sys2Proof.Machine

/-! ### setGroup -/

@[simp] theorem State.setGroup_mem (s : State) (g : Nat) (x : Group) : (s.setGroup g x).mem = s.mem := rfl
@[simp] theorem State.setGroup_tags (s : State) (g : Nat) (x : Group) : (s.setGroup g x).tags = s.tags := rfl
@[simp] theorem State.setGroup_check (s : State) (g : Nat) (x : Group) : (s.setGroup g x).check = s.check := rfl
@[simp] theorem State.setGroup_hostView (s : State) (g : Nat) (x : Group) : (s.setGroup g x).hostView = s.hostView := rfl
@[simp] theorem State.setGroup_hostBad (s : State) (g : Nat) (x : Group) : (s.setGroup g x).hostBad = s.hostBad := rfl
@[simp] theorem State.setGroup_cores (s : State) (g : Nat) (x : Group) : (s.setGroup g x).cores = s.cores := rfl
@[simp] theorem State.setGroup_l1s (s : State) (g : Nat) (x : Group) : (s.setGroup g x).l1s = s.l1s := rfl
@[simp] theorem State.setGroup_fused (s : State) (g : Nat) (x : Group) : (s.setGroup g x).fused = s.fused := rfl
@[simp] theorem State.setGroup_slices (s : State) (g : Nat) (x : Group) : (s.setGroup g x).slices = s.slices := rfl
@[simp] theorem State.setGroup_sectors (s : State) (g : Nat) (x : Group) : (s.setGroup g x).sectors = s.sectors := rfl
@[simp] theorem State.setGroup_reqs (s : State) (g : Nat) (x : Group) : (s.setGroup g x).reqs = s.reqs := rfl
@[simp] theorem State.setGroup_resvs (s : State) (g : Nat) (x : Group) : (s.setGroup g x).resvs = s.resvs := rfl
@[simp] theorem State.setGroup_tlb (s : State) (g : Nat) (x : Group) : (s.setGroup g x).tlb = s.tlb := rfl
@[simp] theorem State.setGroup_copyCmds (s : State) (g : Nat) (x : Group) : (s.setGroup g x).copyCmds = s.copyCmds := rfl
@[simp] theorem State.setGroup_fabCmds (s : State) (g : Nat) (x : Group) : (s.setGroup g x).fabCmds = s.fabCmds := rfl
@[simp] theorem State.setGroup_collCmds (s : State) (g : Nat) (x : Group) : (s.setGroup g x).collCmds = s.collCmds := rfl
@[simp] theorem State.setGroup_landed (s : State) (g : Nat) (x : Group) : (s.setGroup g x).landed = s.landed := rfl
@[simp] theorem State.setGroup_brought (s : State) (g : Nat) (x : Group) : (s.setGroup g x).brought = s.brought := rfl
@[simp] theorem State.setGroup_aborts (s : State) (g : Nat) (x : Group) : (s.setGroup g x).aborts = s.aborts := rfl
@[simp] theorem State.setGroup_collEnded (s : State) (g : Nat) (x : Group) : (s.setGroup g x).collEnded = s.collEnded := rfl
@[simp] theorem State.setGroup_launches (s : State) (g : Nat) (x : Group) : (s.setGroup g x).launches = s.launches := rfl
@[simp] theorem State.setGroup_chains (s : State) (g : Nat) (x : Group) : (s.setGroup g x).chains = s.chains := rfl
@[simp] theorem State.setGroup_workQueues (s : State) (g : Nat) (x : Group) : (s.setGroup g x).workQueues = s.workQueues := rfl
@[simp] theorem State.setGroup_slots (s : State) (g : Nat) (x : Group) : (s.setGroup g x).slots = s.slots := rfl
@[simp] theorem State.setGroup_pendingQueues (s : State) (g : Nat) (x : Group) : (s.setGroup g x).pendingQueues = s.pendingQueues := rfl
@[simp] theorem State.setGroup_faults (s : State) (g : Nat) (x : Group) : (s.setGroup g x).faults = s.faults := rfl
@[simp] theorem State.setGroup_nextFault (s : State) (g : Nat) (x : Group) : (s.setGroup g x).nextFault = s.nextFault := rfl
@[simp] theorem State.setGroup_driver (s : State) (g : Nat) (x : Group) : (s.setGroup g x).driver = s.driver := rfl
@[simp] theorem State.setGroup_boot (s : State) (g : Nat) (x : Group) : (s.setGroup g x).boot = s.boot := rfl
@[simp] theorem State.setGroup_islands (s : State) (g : Nat) (x : Group) : (s.setGroup g x).islands = s.islands := rfl
@[simp] theorem State.setGroup_routers (s : State) (g : Nat) (x : Group) : (s.setGroup g x).routers = s.routers := rfl
@[simp] theorem State.setGroup_fabricUse (s : State) (g : Nat) (x : Group) : (s.setGroup g x).fabricUse = s.fabricUse := rfl
@[simp] theorem State.setGroup_ports (s : State) (g : Nat) (x : Group) : (s.setGroup g x).ports = s.ports := rfl
@[simp] theorem State.setGroup_partitions (s : State) (g : Nat) (x : Group) : (s.setGroup g x).partitions = s.partitions := rfl
@[simp] theorem State.setGroup_deadStacks (s : State) (g : Nat) (x : Group) : (s.setGroup g x).deadStacks = s.deadStacks := rfl
@[simp] theorem State.setGroup_stackErrors (s : State) (g : Nat) (x : Group) : (s.setGroup g x).stackErrors = s.stackErrors := rfl
@[simp] theorem State.setGroup_linkErrors (s : State) (g : Nat) (x : Group) : (s.setGroup g x).linkErrors = s.linkErrors := rfl
@[simp] theorem State.setGroup_linksDown (s : State) (g : Nat) (x : Group) : (s.setGroup g x).linksDown = s.linksDown := rfl
@[simp] theorem State.setGroup_fabricDown (s : State) (g : Nat) (x : Group) : (s.setGroup g x).fabricDown = s.fabricDown := rfl
@[simp] theorem State.setGroup_hostTime (s : State) (g : Nat) (x : Group) : (s.setGroup g x).hostTime = s.hostTime := rfl
@[simp] theorem State.setGroup_clock (s : State) (g : Nat) (x : Group) : (s.setGroup g x).clock = s.clock := rfl
@[simp] theorem State.setGroup_irqs (s : State) (g : Nat) (x : Group) : (s.setGroup g x).irqs = s.irqs := rfl
@[simp] theorem State.setGroup_hostData (s : State) (g : Nat) (x : Group) : (s.setGroup g x).hostData = s.hostData := rfl
@[simp] theorem State.setGroup_hostPoison (s : State) (g : Nat) (x : Group) : (s.setGroup g x).hostPoison = s.hostPoison := rfl
@[simp] theorem State.setGroup_logged (s : State) (g : Nat) (x : Group) : (s.setGroup g x).logged = s.logged := rfl
@[simp] theorem State.setGroup_apertureErrors (s : State) (g : Nat) (x : Group) : (s.setGroup g x).apertureErrors = s.apertureErrors := rfl
@[simp] theorem State.setGroup_cur (s : State) (g : Nat) (x : Group) : (s.setGroup g x).cur = s.cur := rfl
@[simp] theorem State.setGroup_fresh (s : State) (g : Nat) (x : Group) : (s.setGroup g x).fresh = s.fresh := rfl
@[simp] theorem State.setGroup_free (s : State) (g : Nat) (x : Group) : (s.setGroup g x).free = s.free := rfl
@[simp] theorem State.setGroup_rr (s : State) (g : Nat) (x : Group) : (s.setGroup g x).rr = s.rr := rfl
@[simp] theorem State.setGroup_agenda (s : State) (g : Nat) (x : Group) : (s.setGroup g x).agenda = s.agenda := rfl

/-! ### setGrp -/

@[simp] theorem State.setGrp_mem (s : State) (x : Group) : (s.setGrp x).mem = s.mem := rfl
@[simp] theorem State.setGrp_tags (s : State) (x : Group) : (s.setGrp x).tags = s.tags := rfl
@[simp] theorem State.setGrp_check (s : State) (x : Group) : (s.setGrp x).check = s.check := rfl
@[simp] theorem State.setGrp_hostView (s : State) (x : Group) : (s.setGrp x).hostView = s.hostView := rfl
@[simp] theorem State.setGrp_hostBad (s : State) (x : Group) : (s.setGrp x).hostBad = s.hostBad := rfl
@[simp] theorem State.setGrp_cores (s : State) (x : Group) : (s.setGrp x).cores = s.cores := rfl
@[simp] theorem State.setGrp_l1s (s : State) (x : Group) : (s.setGrp x).l1s = s.l1s := rfl
@[simp] theorem State.setGrp_fused (s : State) (x : Group) : (s.setGrp x).fused = s.fused := rfl
@[simp] theorem State.setGrp_slices (s : State) (x : Group) : (s.setGrp x).slices = s.slices := rfl
@[simp] theorem State.setGrp_sectors (s : State) (x : Group) : (s.setGrp x).sectors = s.sectors := rfl
@[simp] theorem State.setGrp_reqs (s : State) (x : Group) : (s.setGrp x).reqs = s.reqs := rfl
@[simp] theorem State.setGrp_resvs (s : State) (x : Group) : (s.setGrp x).resvs = s.resvs := rfl
@[simp] theorem State.setGrp_tlb (s : State) (x : Group) : (s.setGrp x).tlb = s.tlb := rfl
@[simp] theorem State.setGrp_copyCmds (s : State) (x : Group) : (s.setGrp x).copyCmds = s.copyCmds := rfl
@[simp] theorem State.setGrp_fabCmds (s : State) (x : Group) : (s.setGrp x).fabCmds = s.fabCmds := rfl
@[simp] theorem State.setGrp_collCmds (s : State) (x : Group) : (s.setGrp x).collCmds = s.collCmds := rfl
@[simp] theorem State.setGrp_landed (s : State) (x : Group) : (s.setGrp x).landed = s.landed := rfl
@[simp] theorem State.setGrp_brought (s : State) (x : Group) : (s.setGrp x).brought = s.brought := rfl
@[simp] theorem State.setGrp_aborts (s : State) (x : Group) : (s.setGrp x).aborts = s.aborts := rfl
@[simp] theorem State.setGrp_collEnded (s : State) (x : Group) : (s.setGrp x).collEnded = s.collEnded := rfl
@[simp] theorem State.setGrp_launches (s : State) (x : Group) : (s.setGrp x).launches = s.launches := rfl
@[simp] theorem State.setGrp_chains (s : State) (x : Group) : (s.setGrp x).chains = s.chains := rfl
@[simp] theorem State.setGrp_workQueues (s : State) (x : Group) : (s.setGrp x).workQueues = s.workQueues := rfl
@[simp] theorem State.setGrp_slots (s : State) (x : Group) : (s.setGrp x).slots = s.slots := rfl
@[simp] theorem State.setGrp_pendingQueues (s : State) (x : Group) : (s.setGrp x).pendingQueues = s.pendingQueues := rfl
@[simp] theorem State.setGrp_faults (s : State) (x : Group) : (s.setGrp x).faults = s.faults := rfl
@[simp] theorem State.setGrp_nextFault (s : State) (x : Group) : (s.setGrp x).nextFault = s.nextFault := rfl
@[simp] theorem State.setGrp_driver (s : State) (x : Group) : (s.setGrp x).driver = s.driver := rfl
@[simp] theorem State.setGrp_boot (s : State) (x : Group) : (s.setGrp x).boot = s.boot := rfl
@[simp] theorem State.setGrp_islands (s : State) (x : Group) : (s.setGrp x).islands = s.islands := rfl
@[simp] theorem State.setGrp_routers (s : State) (x : Group) : (s.setGrp x).routers = s.routers := rfl
@[simp] theorem State.setGrp_fabricUse (s : State) (x : Group) : (s.setGrp x).fabricUse = s.fabricUse := rfl
@[simp] theorem State.setGrp_ports (s : State) (x : Group) : (s.setGrp x).ports = s.ports := rfl
@[simp] theorem State.setGrp_partitions (s : State) (x : Group) : (s.setGrp x).partitions = s.partitions := rfl
@[simp] theorem State.setGrp_deadStacks (s : State) (x : Group) : (s.setGrp x).deadStacks = s.deadStacks := rfl
@[simp] theorem State.setGrp_stackErrors (s : State) (x : Group) : (s.setGrp x).stackErrors = s.stackErrors := rfl
@[simp] theorem State.setGrp_linkErrors (s : State) (x : Group) : (s.setGrp x).linkErrors = s.linkErrors := rfl
@[simp] theorem State.setGrp_linksDown (s : State) (x : Group) : (s.setGrp x).linksDown = s.linksDown := rfl
@[simp] theorem State.setGrp_fabricDown (s : State) (x : Group) : (s.setGrp x).fabricDown = s.fabricDown := rfl
@[simp] theorem State.setGrp_hostTime (s : State) (x : Group) : (s.setGrp x).hostTime = s.hostTime := rfl
@[simp] theorem State.setGrp_clock (s : State) (x : Group) : (s.setGrp x).clock = s.clock := rfl
@[simp] theorem State.setGrp_irqs (s : State) (x : Group) : (s.setGrp x).irqs = s.irqs := rfl
@[simp] theorem State.setGrp_hostData (s : State) (x : Group) : (s.setGrp x).hostData = s.hostData := rfl
@[simp] theorem State.setGrp_hostPoison (s : State) (x : Group) : (s.setGrp x).hostPoison = s.hostPoison := rfl
@[simp] theorem State.setGrp_logged (s : State) (x : Group) : (s.setGrp x).logged = s.logged := rfl
@[simp] theorem State.setGrp_apertureErrors (s : State) (x : Group) : (s.setGrp x).apertureErrors = s.apertureErrors := rfl
@[simp] theorem State.setGrp_cur (s : State) (x : Group) : (s.setGrp x).cur = s.cur := rfl
@[simp] theorem State.setGrp_fresh (s : State) (x : Group) : (s.setGrp x).fresh = s.fresh := rfl
@[simp] theorem State.setGrp_free (s : State) (x : Group) : (s.setGrp x).free = s.free := rfl
@[simp] theorem State.setGrp_rr (s : State) (x : Group) : (s.setGrp x).rr = s.rr := rfl
@[simp] theorem State.setGrp_agenda (s : State) (x : Group) : (s.setGrp x).agenda = s.agenda := rfl

/-! ### upd -/

@[simp] theorem State.upd_mem (s : State) (f : Group → Group) : (s.upd f).mem = s.mem := rfl
@[simp] theorem State.upd_tags (s : State) (f : Group → Group) : (s.upd f).tags = s.tags := rfl
@[simp] theorem State.upd_check (s : State) (f : Group → Group) : (s.upd f).check = s.check := rfl
@[simp] theorem State.upd_hostView (s : State) (f : Group → Group) : (s.upd f).hostView = s.hostView := rfl
@[simp] theorem State.upd_hostBad (s : State) (f : Group → Group) : (s.upd f).hostBad = s.hostBad := rfl
@[simp] theorem State.upd_cores (s : State) (f : Group → Group) : (s.upd f).cores = s.cores := rfl
@[simp] theorem State.upd_l1s (s : State) (f : Group → Group) : (s.upd f).l1s = s.l1s := rfl
@[simp] theorem State.upd_fused (s : State) (f : Group → Group) : (s.upd f).fused = s.fused := rfl
@[simp] theorem State.upd_slices (s : State) (f : Group → Group) : (s.upd f).slices = s.slices := rfl
@[simp] theorem State.upd_sectors (s : State) (f : Group → Group) : (s.upd f).sectors = s.sectors := rfl
@[simp] theorem State.upd_reqs (s : State) (f : Group → Group) : (s.upd f).reqs = s.reqs := rfl
@[simp] theorem State.upd_resvs (s : State) (f : Group → Group) : (s.upd f).resvs = s.resvs := rfl
@[simp] theorem State.upd_tlb (s : State) (f : Group → Group) : (s.upd f).tlb = s.tlb := rfl
@[simp] theorem State.upd_copyCmds (s : State) (f : Group → Group) : (s.upd f).copyCmds = s.copyCmds := rfl
@[simp] theorem State.upd_fabCmds (s : State) (f : Group → Group) : (s.upd f).fabCmds = s.fabCmds := rfl
@[simp] theorem State.upd_collCmds (s : State) (f : Group → Group) : (s.upd f).collCmds = s.collCmds := rfl
@[simp] theorem State.upd_landed (s : State) (f : Group → Group) : (s.upd f).landed = s.landed := rfl
@[simp] theorem State.upd_brought (s : State) (f : Group → Group) : (s.upd f).brought = s.brought := rfl
@[simp] theorem State.upd_aborts (s : State) (f : Group → Group) : (s.upd f).aborts = s.aborts := rfl
@[simp] theorem State.upd_collEnded (s : State) (f : Group → Group) : (s.upd f).collEnded = s.collEnded := rfl
@[simp] theorem State.upd_launches (s : State) (f : Group → Group) : (s.upd f).launches = s.launches := rfl
@[simp] theorem State.upd_chains (s : State) (f : Group → Group) : (s.upd f).chains = s.chains := rfl
@[simp] theorem State.upd_workQueues (s : State) (f : Group → Group) : (s.upd f).workQueues = s.workQueues := rfl
@[simp] theorem State.upd_slots (s : State) (f : Group → Group) : (s.upd f).slots = s.slots := rfl
@[simp] theorem State.upd_pendingQueues (s : State) (f : Group → Group) : (s.upd f).pendingQueues = s.pendingQueues := rfl
@[simp] theorem State.upd_faults (s : State) (f : Group → Group) : (s.upd f).faults = s.faults := rfl
@[simp] theorem State.upd_nextFault (s : State) (f : Group → Group) : (s.upd f).nextFault = s.nextFault := rfl
@[simp] theorem State.upd_driver (s : State) (f : Group → Group) : (s.upd f).driver = s.driver := rfl
@[simp] theorem State.upd_boot (s : State) (f : Group → Group) : (s.upd f).boot = s.boot := rfl
@[simp] theorem State.upd_islands (s : State) (f : Group → Group) : (s.upd f).islands = s.islands := rfl
@[simp] theorem State.upd_routers (s : State) (f : Group → Group) : (s.upd f).routers = s.routers := rfl
@[simp] theorem State.upd_fabricUse (s : State) (f : Group → Group) : (s.upd f).fabricUse = s.fabricUse := rfl
@[simp] theorem State.upd_ports (s : State) (f : Group → Group) : (s.upd f).ports = s.ports := rfl
@[simp] theorem State.upd_partitions (s : State) (f : Group → Group) : (s.upd f).partitions = s.partitions := rfl
@[simp] theorem State.upd_deadStacks (s : State) (f : Group → Group) : (s.upd f).deadStacks = s.deadStacks := rfl
@[simp] theorem State.upd_stackErrors (s : State) (f : Group → Group) : (s.upd f).stackErrors = s.stackErrors := rfl
@[simp] theorem State.upd_linkErrors (s : State) (f : Group → Group) : (s.upd f).linkErrors = s.linkErrors := rfl
@[simp] theorem State.upd_linksDown (s : State) (f : Group → Group) : (s.upd f).linksDown = s.linksDown := rfl
@[simp] theorem State.upd_fabricDown (s : State) (f : Group → Group) : (s.upd f).fabricDown = s.fabricDown := rfl
@[simp] theorem State.upd_hostTime (s : State) (f : Group → Group) : (s.upd f).hostTime = s.hostTime := rfl
@[simp] theorem State.upd_clock (s : State) (f : Group → Group) : (s.upd f).clock = s.clock := rfl
@[simp] theorem State.upd_irqs (s : State) (f : Group → Group) : (s.upd f).irqs = s.irqs := rfl
@[simp] theorem State.upd_hostData (s : State) (f : Group → Group) : (s.upd f).hostData = s.hostData := rfl
@[simp] theorem State.upd_hostPoison (s : State) (f : Group → Group) : (s.upd f).hostPoison = s.hostPoison := rfl
@[simp] theorem State.upd_logged (s : State) (f : Group → Group) : (s.upd f).logged = s.logged := rfl
@[simp] theorem State.upd_apertureErrors (s : State) (f : Group → Group) : (s.upd f).apertureErrors = s.apertureErrors := rfl
@[simp] theorem State.upd_cur (s : State) (f : Group → Group) : (s.upd f).cur = s.cur := rfl
@[simp] theorem State.upd_fresh (s : State) (f : Group → Group) : (s.upd f).fresh = s.fresh := rfl
@[simp] theorem State.upd_free (s : State) (f : Group → Group) : (s.upd f).free = s.free := rfl
@[simp] theorem State.upd_rr (s : State) (f : Group → Group) : (s.upd f).rr = s.rr := rfl
@[simp] theorem State.upd_agenda (s : State) (f : Group → Group) : (s.upd f).agenda = s.agenda := rfl

/-! ### setCore -/

@[simp] theorem State.setCore_mem (s : State) (n : Nat) (x : Core) : (s.setCore n x).mem = s.mem := rfl
@[simp] theorem State.setCore_tags (s : State) (n : Nat) (x : Core) : (s.setCore n x).tags = s.tags := rfl
@[simp] theorem State.setCore_check (s : State) (n : Nat) (x : Core) : (s.setCore n x).check = s.check := rfl
@[simp] theorem State.setCore_hostView (s : State) (n : Nat) (x : Core) : (s.setCore n x).hostView = s.hostView := rfl
@[simp] theorem State.setCore_hostBad (s : State) (n : Nat) (x : Core) : (s.setCore n x).hostBad = s.hostBad := rfl
@[simp] theorem State.setCore_groups (s : State) (n : Nat) (x : Core) : (s.setCore n x).groups = s.groups := rfl
@[simp] theorem State.setCore_l1s (s : State) (n : Nat) (x : Core) : (s.setCore n x).l1s = s.l1s := rfl
@[simp] theorem State.setCore_fused (s : State) (n : Nat) (x : Core) : (s.setCore n x).fused = s.fused := rfl
@[simp] theorem State.setCore_slices (s : State) (n : Nat) (x : Core) : (s.setCore n x).slices = s.slices := rfl
@[simp] theorem State.setCore_sectors (s : State) (n : Nat) (x : Core) : (s.setCore n x).sectors = s.sectors := rfl
@[simp] theorem State.setCore_reqs (s : State) (n : Nat) (x : Core) : (s.setCore n x).reqs = s.reqs := rfl
@[simp] theorem State.setCore_resvs (s : State) (n : Nat) (x : Core) : (s.setCore n x).resvs = s.resvs := rfl
@[simp] theorem State.setCore_tlb (s : State) (n : Nat) (x : Core) : (s.setCore n x).tlb = s.tlb := rfl
@[simp] theorem State.setCore_copyCmds (s : State) (n : Nat) (x : Core) : (s.setCore n x).copyCmds = s.copyCmds := rfl
@[simp] theorem State.setCore_fabCmds (s : State) (n : Nat) (x : Core) : (s.setCore n x).fabCmds = s.fabCmds := rfl
@[simp] theorem State.setCore_collCmds (s : State) (n : Nat) (x : Core) : (s.setCore n x).collCmds = s.collCmds := rfl
@[simp] theorem State.setCore_landed (s : State) (n : Nat) (x : Core) : (s.setCore n x).landed = s.landed := rfl
@[simp] theorem State.setCore_brought (s : State) (n : Nat) (x : Core) : (s.setCore n x).brought = s.brought := rfl
@[simp] theorem State.setCore_aborts (s : State) (n : Nat) (x : Core) : (s.setCore n x).aborts = s.aborts := rfl
@[simp] theorem State.setCore_collEnded (s : State) (n : Nat) (x : Core) : (s.setCore n x).collEnded = s.collEnded := rfl
@[simp] theorem State.setCore_launches (s : State) (n : Nat) (x : Core) : (s.setCore n x).launches = s.launches := rfl
@[simp] theorem State.setCore_chains (s : State) (n : Nat) (x : Core) : (s.setCore n x).chains = s.chains := rfl
@[simp] theorem State.setCore_workQueues (s : State) (n : Nat) (x : Core) : (s.setCore n x).workQueues = s.workQueues := rfl
@[simp] theorem State.setCore_slots (s : State) (n : Nat) (x : Core) : (s.setCore n x).slots = s.slots := rfl
@[simp] theorem State.setCore_pendingQueues (s : State) (n : Nat) (x : Core) : (s.setCore n x).pendingQueues = s.pendingQueues := rfl
@[simp] theorem State.setCore_faults (s : State) (n : Nat) (x : Core) : (s.setCore n x).faults = s.faults := rfl
@[simp] theorem State.setCore_nextFault (s : State) (n : Nat) (x : Core) : (s.setCore n x).nextFault = s.nextFault := rfl
@[simp] theorem State.setCore_driver (s : State) (n : Nat) (x : Core) : (s.setCore n x).driver = s.driver := rfl
@[simp] theorem State.setCore_boot (s : State) (n : Nat) (x : Core) : (s.setCore n x).boot = s.boot := rfl
@[simp] theorem State.setCore_islands (s : State) (n : Nat) (x : Core) : (s.setCore n x).islands = s.islands := rfl
@[simp] theorem State.setCore_routers (s : State) (n : Nat) (x : Core) : (s.setCore n x).routers = s.routers := rfl
@[simp] theorem State.setCore_fabricUse (s : State) (n : Nat) (x : Core) : (s.setCore n x).fabricUse = s.fabricUse := rfl
@[simp] theorem State.setCore_ports (s : State) (n : Nat) (x : Core) : (s.setCore n x).ports = s.ports := rfl
@[simp] theorem State.setCore_partitions (s : State) (n : Nat) (x : Core) : (s.setCore n x).partitions = s.partitions := rfl
@[simp] theorem State.setCore_deadStacks (s : State) (n : Nat) (x : Core) : (s.setCore n x).deadStacks = s.deadStacks := rfl
@[simp] theorem State.setCore_stackErrors (s : State) (n : Nat) (x : Core) : (s.setCore n x).stackErrors = s.stackErrors := rfl
@[simp] theorem State.setCore_linkErrors (s : State) (n : Nat) (x : Core) : (s.setCore n x).linkErrors = s.linkErrors := rfl
@[simp] theorem State.setCore_linksDown (s : State) (n : Nat) (x : Core) : (s.setCore n x).linksDown = s.linksDown := rfl
@[simp] theorem State.setCore_fabricDown (s : State) (n : Nat) (x : Core) : (s.setCore n x).fabricDown = s.fabricDown := rfl
@[simp] theorem State.setCore_hostTime (s : State) (n : Nat) (x : Core) : (s.setCore n x).hostTime = s.hostTime := rfl
@[simp] theorem State.setCore_clock (s : State) (n : Nat) (x : Core) : (s.setCore n x).clock = s.clock := rfl
@[simp] theorem State.setCore_irqs (s : State) (n : Nat) (x : Core) : (s.setCore n x).irqs = s.irqs := rfl
@[simp] theorem State.setCore_hostData (s : State) (n : Nat) (x : Core) : (s.setCore n x).hostData = s.hostData := rfl
@[simp] theorem State.setCore_hostPoison (s : State) (n : Nat) (x : Core) : (s.setCore n x).hostPoison = s.hostPoison := rfl
@[simp] theorem State.setCore_logged (s : State) (n : Nat) (x : Core) : (s.setCore n x).logged = s.logged := rfl
@[simp] theorem State.setCore_apertureErrors (s : State) (n : Nat) (x : Core) : (s.setCore n x).apertureErrors = s.apertureErrors := rfl
@[simp] theorem State.setCore_cur (s : State) (n : Nat) (x : Core) : (s.setCore n x).cur = s.cur := rfl
@[simp] theorem State.setCore_fresh (s : State) (n : Nat) (x : Core) : (s.setCore n x).fresh = s.fresh := rfl
@[simp] theorem State.setCore_free (s : State) (n : Nat) (x : Core) : (s.setCore n x).free = s.free := rfl
@[simp] theorem State.setCore_rr (s : State) (n : Nat) (x : Core) : (s.setCore n x).rr = s.rr := rfl
@[simp] theorem State.setCore_agenda (s : State) (n : Nat) (x : Core) : (s.setCore n x).agenda = s.agenda := rfl

/-! ### setL1 -/

@[simp] theorem State.setL1_mem (s : State) (n : Nat) (x : L1) : (s.setL1 n x).mem = s.mem := rfl
@[simp] theorem State.setL1_tags (s : State) (n : Nat) (x : L1) : (s.setL1 n x).tags = s.tags := rfl
@[simp] theorem State.setL1_check (s : State) (n : Nat) (x : L1) : (s.setL1 n x).check = s.check := rfl
@[simp] theorem State.setL1_hostView (s : State) (n : Nat) (x : L1) : (s.setL1 n x).hostView = s.hostView := rfl
@[simp] theorem State.setL1_hostBad (s : State) (n : Nat) (x : L1) : (s.setL1 n x).hostBad = s.hostBad := rfl
@[simp] theorem State.setL1_groups (s : State) (n : Nat) (x : L1) : (s.setL1 n x).groups = s.groups := rfl
@[simp] theorem State.setL1_cores (s : State) (n : Nat) (x : L1) : (s.setL1 n x).cores = s.cores := rfl
@[simp] theorem State.setL1_fused (s : State) (n : Nat) (x : L1) : (s.setL1 n x).fused = s.fused := rfl
@[simp] theorem State.setL1_slices (s : State) (n : Nat) (x : L1) : (s.setL1 n x).slices = s.slices := rfl
@[simp] theorem State.setL1_sectors (s : State) (n : Nat) (x : L1) : (s.setL1 n x).sectors = s.sectors := rfl
@[simp] theorem State.setL1_reqs (s : State) (n : Nat) (x : L1) : (s.setL1 n x).reqs = s.reqs := rfl
@[simp] theorem State.setL1_resvs (s : State) (n : Nat) (x : L1) : (s.setL1 n x).resvs = s.resvs := rfl
@[simp] theorem State.setL1_tlb (s : State) (n : Nat) (x : L1) : (s.setL1 n x).tlb = s.tlb := rfl
@[simp] theorem State.setL1_copyCmds (s : State) (n : Nat) (x : L1) : (s.setL1 n x).copyCmds = s.copyCmds := rfl
@[simp] theorem State.setL1_fabCmds (s : State) (n : Nat) (x : L1) : (s.setL1 n x).fabCmds = s.fabCmds := rfl
@[simp] theorem State.setL1_collCmds (s : State) (n : Nat) (x : L1) : (s.setL1 n x).collCmds = s.collCmds := rfl
@[simp] theorem State.setL1_landed (s : State) (n : Nat) (x : L1) : (s.setL1 n x).landed = s.landed := rfl
@[simp] theorem State.setL1_brought (s : State) (n : Nat) (x : L1) : (s.setL1 n x).brought = s.brought := rfl
@[simp] theorem State.setL1_aborts (s : State) (n : Nat) (x : L1) : (s.setL1 n x).aborts = s.aborts := rfl
@[simp] theorem State.setL1_collEnded (s : State) (n : Nat) (x : L1) : (s.setL1 n x).collEnded = s.collEnded := rfl
@[simp] theorem State.setL1_launches (s : State) (n : Nat) (x : L1) : (s.setL1 n x).launches = s.launches := rfl
@[simp] theorem State.setL1_chains (s : State) (n : Nat) (x : L1) : (s.setL1 n x).chains = s.chains := rfl
@[simp] theorem State.setL1_workQueues (s : State) (n : Nat) (x : L1) : (s.setL1 n x).workQueues = s.workQueues := rfl
@[simp] theorem State.setL1_slots (s : State) (n : Nat) (x : L1) : (s.setL1 n x).slots = s.slots := rfl
@[simp] theorem State.setL1_pendingQueues (s : State) (n : Nat) (x : L1) : (s.setL1 n x).pendingQueues = s.pendingQueues := rfl
@[simp] theorem State.setL1_faults (s : State) (n : Nat) (x : L1) : (s.setL1 n x).faults = s.faults := rfl
@[simp] theorem State.setL1_nextFault (s : State) (n : Nat) (x : L1) : (s.setL1 n x).nextFault = s.nextFault := rfl
@[simp] theorem State.setL1_driver (s : State) (n : Nat) (x : L1) : (s.setL1 n x).driver = s.driver := rfl
@[simp] theorem State.setL1_boot (s : State) (n : Nat) (x : L1) : (s.setL1 n x).boot = s.boot := rfl
@[simp] theorem State.setL1_islands (s : State) (n : Nat) (x : L1) : (s.setL1 n x).islands = s.islands := rfl
@[simp] theorem State.setL1_routers (s : State) (n : Nat) (x : L1) : (s.setL1 n x).routers = s.routers := rfl
@[simp] theorem State.setL1_fabricUse (s : State) (n : Nat) (x : L1) : (s.setL1 n x).fabricUse = s.fabricUse := rfl
@[simp] theorem State.setL1_ports (s : State) (n : Nat) (x : L1) : (s.setL1 n x).ports = s.ports := rfl
@[simp] theorem State.setL1_partitions (s : State) (n : Nat) (x : L1) : (s.setL1 n x).partitions = s.partitions := rfl
@[simp] theorem State.setL1_deadStacks (s : State) (n : Nat) (x : L1) : (s.setL1 n x).deadStacks = s.deadStacks := rfl
@[simp] theorem State.setL1_stackErrors (s : State) (n : Nat) (x : L1) : (s.setL1 n x).stackErrors = s.stackErrors := rfl
@[simp] theorem State.setL1_linkErrors (s : State) (n : Nat) (x : L1) : (s.setL1 n x).linkErrors = s.linkErrors := rfl
@[simp] theorem State.setL1_linksDown (s : State) (n : Nat) (x : L1) : (s.setL1 n x).linksDown = s.linksDown := rfl
@[simp] theorem State.setL1_fabricDown (s : State) (n : Nat) (x : L1) : (s.setL1 n x).fabricDown = s.fabricDown := rfl
@[simp] theorem State.setL1_hostTime (s : State) (n : Nat) (x : L1) : (s.setL1 n x).hostTime = s.hostTime := rfl
@[simp] theorem State.setL1_clock (s : State) (n : Nat) (x : L1) : (s.setL1 n x).clock = s.clock := rfl
@[simp] theorem State.setL1_irqs (s : State) (n : Nat) (x : L1) : (s.setL1 n x).irqs = s.irqs := rfl
@[simp] theorem State.setL1_hostData (s : State) (n : Nat) (x : L1) : (s.setL1 n x).hostData = s.hostData := rfl
@[simp] theorem State.setL1_hostPoison (s : State) (n : Nat) (x : L1) : (s.setL1 n x).hostPoison = s.hostPoison := rfl
@[simp] theorem State.setL1_logged (s : State) (n : Nat) (x : L1) : (s.setL1 n x).logged = s.logged := rfl
@[simp] theorem State.setL1_apertureErrors (s : State) (n : Nat) (x : L1) : (s.setL1 n x).apertureErrors = s.apertureErrors := rfl
@[simp] theorem State.setL1_cur (s : State) (n : Nat) (x : L1) : (s.setL1 n x).cur = s.cur := rfl
@[simp] theorem State.setL1_fresh (s : State) (n : Nat) (x : L1) : (s.setL1 n x).fresh = s.fresh := rfl
@[simp] theorem State.setL1_free (s : State) (n : Nat) (x : L1) : (s.setL1 n x).free = s.free := rfl
@[simp] theorem State.setL1_rr (s : State) (n : Nat) (x : L1) : (s.setL1 n x).rr = s.rr := rfl
@[simp] theorem State.setL1_agenda (s : State) (n : Nat) (x : L1) : (s.setL1 n x).agenda = s.agenda := rfl

/-! ### setSlice -/

@[simp] theorem State.setSlice_mem (s : State) (k : Nat) (x : Slice) : (s.setSlice k x).mem = s.mem := rfl
@[simp] theorem State.setSlice_tags (s : State) (k : Nat) (x : Slice) : (s.setSlice k x).tags = s.tags := rfl
@[simp] theorem State.setSlice_check (s : State) (k : Nat) (x : Slice) : (s.setSlice k x).check = s.check := rfl
@[simp] theorem State.setSlice_hostView (s : State) (k : Nat) (x : Slice) : (s.setSlice k x).hostView = s.hostView := rfl
@[simp] theorem State.setSlice_hostBad (s : State) (k : Nat) (x : Slice) : (s.setSlice k x).hostBad = s.hostBad := rfl
@[simp] theorem State.setSlice_groups (s : State) (k : Nat) (x : Slice) : (s.setSlice k x).groups = s.groups := rfl
@[simp] theorem State.setSlice_cores (s : State) (k : Nat) (x : Slice) : (s.setSlice k x).cores = s.cores := rfl
@[simp] theorem State.setSlice_l1s (s : State) (k : Nat) (x : Slice) : (s.setSlice k x).l1s = s.l1s := rfl
@[simp] theorem State.setSlice_fused (s : State) (k : Nat) (x : Slice) : (s.setSlice k x).fused = s.fused := rfl
@[simp] theorem State.setSlice_sectors (s : State) (k : Nat) (x : Slice) : (s.setSlice k x).sectors = s.sectors := rfl
@[simp] theorem State.setSlice_reqs (s : State) (k : Nat) (x : Slice) : (s.setSlice k x).reqs = s.reqs := rfl
@[simp] theorem State.setSlice_resvs (s : State) (k : Nat) (x : Slice) : (s.setSlice k x).resvs = s.resvs := rfl
@[simp] theorem State.setSlice_tlb (s : State) (k : Nat) (x : Slice) : (s.setSlice k x).tlb = s.tlb := rfl
@[simp] theorem State.setSlice_copyCmds (s : State) (k : Nat) (x : Slice) : (s.setSlice k x).copyCmds = s.copyCmds := rfl
@[simp] theorem State.setSlice_fabCmds (s : State) (k : Nat) (x : Slice) : (s.setSlice k x).fabCmds = s.fabCmds := rfl
@[simp] theorem State.setSlice_collCmds (s : State) (k : Nat) (x : Slice) : (s.setSlice k x).collCmds = s.collCmds := rfl
@[simp] theorem State.setSlice_landed (s : State) (k : Nat) (x : Slice) : (s.setSlice k x).landed = s.landed := rfl
@[simp] theorem State.setSlice_brought (s : State) (k : Nat) (x : Slice) : (s.setSlice k x).brought = s.brought := rfl
@[simp] theorem State.setSlice_aborts (s : State) (k : Nat) (x : Slice) : (s.setSlice k x).aborts = s.aborts := rfl
@[simp] theorem State.setSlice_collEnded (s : State) (k : Nat) (x : Slice) : (s.setSlice k x).collEnded = s.collEnded := rfl
@[simp] theorem State.setSlice_launches (s : State) (k : Nat) (x : Slice) : (s.setSlice k x).launches = s.launches := rfl
@[simp] theorem State.setSlice_chains (s : State) (k : Nat) (x : Slice) : (s.setSlice k x).chains = s.chains := rfl
@[simp] theorem State.setSlice_workQueues (s : State) (k : Nat) (x : Slice) : (s.setSlice k x).workQueues = s.workQueues := rfl
@[simp] theorem State.setSlice_slots (s : State) (k : Nat) (x : Slice) : (s.setSlice k x).slots = s.slots := rfl
@[simp] theorem State.setSlice_pendingQueues (s : State) (k : Nat) (x : Slice) : (s.setSlice k x).pendingQueues = s.pendingQueues := rfl
@[simp] theorem State.setSlice_faults (s : State) (k : Nat) (x : Slice) : (s.setSlice k x).faults = s.faults := rfl
@[simp] theorem State.setSlice_nextFault (s : State) (k : Nat) (x : Slice) : (s.setSlice k x).nextFault = s.nextFault := rfl
@[simp] theorem State.setSlice_driver (s : State) (k : Nat) (x : Slice) : (s.setSlice k x).driver = s.driver := rfl
@[simp] theorem State.setSlice_boot (s : State) (k : Nat) (x : Slice) : (s.setSlice k x).boot = s.boot := rfl
@[simp] theorem State.setSlice_islands (s : State) (k : Nat) (x : Slice) : (s.setSlice k x).islands = s.islands := rfl
@[simp] theorem State.setSlice_routers (s : State) (k : Nat) (x : Slice) : (s.setSlice k x).routers = s.routers := rfl
@[simp] theorem State.setSlice_fabricUse (s : State) (k : Nat) (x : Slice) : (s.setSlice k x).fabricUse = s.fabricUse := rfl
@[simp] theorem State.setSlice_ports (s : State) (k : Nat) (x : Slice) : (s.setSlice k x).ports = s.ports := rfl
@[simp] theorem State.setSlice_partitions (s : State) (k : Nat) (x : Slice) : (s.setSlice k x).partitions = s.partitions := rfl
@[simp] theorem State.setSlice_deadStacks (s : State) (k : Nat) (x : Slice) : (s.setSlice k x).deadStacks = s.deadStacks := rfl
@[simp] theorem State.setSlice_stackErrors (s : State) (k : Nat) (x : Slice) : (s.setSlice k x).stackErrors = s.stackErrors := rfl
@[simp] theorem State.setSlice_linkErrors (s : State) (k : Nat) (x : Slice) : (s.setSlice k x).linkErrors = s.linkErrors := rfl
@[simp] theorem State.setSlice_linksDown (s : State) (k : Nat) (x : Slice) : (s.setSlice k x).linksDown = s.linksDown := rfl
@[simp] theorem State.setSlice_fabricDown (s : State) (k : Nat) (x : Slice) : (s.setSlice k x).fabricDown = s.fabricDown := rfl
@[simp] theorem State.setSlice_hostTime (s : State) (k : Nat) (x : Slice) : (s.setSlice k x).hostTime = s.hostTime := rfl
@[simp] theorem State.setSlice_clock (s : State) (k : Nat) (x : Slice) : (s.setSlice k x).clock = s.clock := rfl
@[simp] theorem State.setSlice_irqs (s : State) (k : Nat) (x : Slice) : (s.setSlice k x).irqs = s.irqs := rfl
@[simp] theorem State.setSlice_hostData (s : State) (k : Nat) (x : Slice) : (s.setSlice k x).hostData = s.hostData := rfl
@[simp] theorem State.setSlice_hostPoison (s : State) (k : Nat) (x : Slice) : (s.setSlice k x).hostPoison = s.hostPoison := rfl
@[simp] theorem State.setSlice_logged (s : State) (k : Nat) (x : Slice) : (s.setSlice k x).logged = s.logged := rfl
@[simp] theorem State.setSlice_apertureErrors (s : State) (k : Nat) (x : Slice) : (s.setSlice k x).apertureErrors = s.apertureErrors := rfl
@[simp] theorem State.setSlice_cur (s : State) (k : Nat) (x : Slice) : (s.setSlice k x).cur = s.cur := rfl
@[simp] theorem State.setSlice_fresh (s : State) (k : Nat) (x : Slice) : (s.setSlice k x).fresh = s.fresh := rfl
@[simp] theorem State.setSlice_free (s : State) (k : Nat) (x : Slice) : (s.setSlice k x).free = s.free := rfl
@[simp] theorem State.setSlice_rr (s : State) (k : Nat) (x : Slice) : (s.setSlice k x).rr = s.rr := rfl
@[simp] theorem State.setSlice_agenda (s : State) (k : Nat) (x : Slice) : (s.setSlice k x).agenda = s.agenda := rfl

/-! ### setSector -/

@[simp] theorem State.setSector_mem (s : State) (h : Nat) (x : Sector) : (s.setSector h x).mem = s.mem := rfl
@[simp] theorem State.setSector_tags (s : State) (h : Nat) (x : Sector) : (s.setSector h x).tags = s.tags := rfl
@[simp] theorem State.setSector_check (s : State) (h : Nat) (x : Sector) : (s.setSector h x).check = s.check := rfl
@[simp] theorem State.setSector_hostView (s : State) (h : Nat) (x : Sector) : (s.setSector h x).hostView = s.hostView := rfl
@[simp] theorem State.setSector_hostBad (s : State) (h : Nat) (x : Sector) : (s.setSector h x).hostBad = s.hostBad := rfl
@[simp] theorem State.setSector_groups (s : State) (h : Nat) (x : Sector) : (s.setSector h x).groups = s.groups := rfl
@[simp] theorem State.setSector_cores (s : State) (h : Nat) (x : Sector) : (s.setSector h x).cores = s.cores := rfl
@[simp] theorem State.setSector_l1s (s : State) (h : Nat) (x : Sector) : (s.setSector h x).l1s = s.l1s := rfl
@[simp] theorem State.setSector_fused (s : State) (h : Nat) (x : Sector) : (s.setSector h x).fused = s.fused := rfl
@[simp] theorem State.setSector_slices (s : State) (h : Nat) (x : Sector) : (s.setSector h x).slices = s.slices := rfl
@[simp] theorem State.setSector_reqs (s : State) (h : Nat) (x : Sector) : (s.setSector h x).reqs = s.reqs := rfl
@[simp] theorem State.setSector_resvs (s : State) (h : Nat) (x : Sector) : (s.setSector h x).resvs = s.resvs := rfl
@[simp] theorem State.setSector_tlb (s : State) (h : Nat) (x : Sector) : (s.setSector h x).tlb = s.tlb := rfl
@[simp] theorem State.setSector_copyCmds (s : State) (h : Nat) (x : Sector) : (s.setSector h x).copyCmds = s.copyCmds := rfl
@[simp] theorem State.setSector_fabCmds (s : State) (h : Nat) (x : Sector) : (s.setSector h x).fabCmds = s.fabCmds := rfl
@[simp] theorem State.setSector_collCmds (s : State) (h : Nat) (x : Sector) : (s.setSector h x).collCmds = s.collCmds := rfl
@[simp] theorem State.setSector_landed (s : State) (h : Nat) (x : Sector) : (s.setSector h x).landed = s.landed := rfl
@[simp] theorem State.setSector_brought (s : State) (h : Nat) (x : Sector) : (s.setSector h x).brought = s.brought := rfl
@[simp] theorem State.setSector_aborts (s : State) (h : Nat) (x : Sector) : (s.setSector h x).aborts = s.aborts := rfl
@[simp] theorem State.setSector_collEnded (s : State) (h : Nat) (x : Sector) : (s.setSector h x).collEnded = s.collEnded := rfl
@[simp] theorem State.setSector_launches (s : State) (h : Nat) (x : Sector) : (s.setSector h x).launches = s.launches := rfl
@[simp] theorem State.setSector_chains (s : State) (h : Nat) (x : Sector) : (s.setSector h x).chains = s.chains := rfl
@[simp] theorem State.setSector_workQueues (s : State) (h : Nat) (x : Sector) : (s.setSector h x).workQueues = s.workQueues := rfl
@[simp] theorem State.setSector_slots (s : State) (h : Nat) (x : Sector) : (s.setSector h x).slots = s.slots := rfl
@[simp] theorem State.setSector_pendingQueues (s : State) (h : Nat) (x : Sector) : (s.setSector h x).pendingQueues = s.pendingQueues := rfl
@[simp] theorem State.setSector_faults (s : State) (h : Nat) (x : Sector) : (s.setSector h x).faults = s.faults := rfl
@[simp] theorem State.setSector_nextFault (s : State) (h : Nat) (x : Sector) : (s.setSector h x).nextFault = s.nextFault := rfl
@[simp] theorem State.setSector_driver (s : State) (h : Nat) (x : Sector) : (s.setSector h x).driver = s.driver := rfl
@[simp] theorem State.setSector_boot (s : State) (h : Nat) (x : Sector) : (s.setSector h x).boot = s.boot := rfl
@[simp] theorem State.setSector_islands (s : State) (h : Nat) (x : Sector) : (s.setSector h x).islands = s.islands := rfl
@[simp] theorem State.setSector_routers (s : State) (h : Nat) (x : Sector) : (s.setSector h x).routers = s.routers := rfl
@[simp] theorem State.setSector_fabricUse (s : State) (h : Nat) (x : Sector) : (s.setSector h x).fabricUse = s.fabricUse := rfl
@[simp] theorem State.setSector_ports (s : State) (h : Nat) (x : Sector) : (s.setSector h x).ports = s.ports := rfl
@[simp] theorem State.setSector_partitions (s : State) (h : Nat) (x : Sector) : (s.setSector h x).partitions = s.partitions := rfl
@[simp] theorem State.setSector_deadStacks (s : State) (h : Nat) (x : Sector) : (s.setSector h x).deadStacks = s.deadStacks := rfl
@[simp] theorem State.setSector_stackErrors (s : State) (h : Nat) (x : Sector) : (s.setSector h x).stackErrors = s.stackErrors := rfl
@[simp] theorem State.setSector_linkErrors (s : State) (h : Nat) (x : Sector) : (s.setSector h x).linkErrors = s.linkErrors := rfl
@[simp] theorem State.setSector_linksDown (s : State) (h : Nat) (x : Sector) : (s.setSector h x).linksDown = s.linksDown := rfl
@[simp] theorem State.setSector_fabricDown (s : State) (h : Nat) (x : Sector) : (s.setSector h x).fabricDown = s.fabricDown := rfl
@[simp] theorem State.setSector_hostTime (s : State) (h : Nat) (x : Sector) : (s.setSector h x).hostTime = s.hostTime := rfl
@[simp] theorem State.setSector_clock (s : State) (h : Nat) (x : Sector) : (s.setSector h x).clock = s.clock := rfl
@[simp] theorem State.setSector_irqs (s : State) (h : Nat) (x : Sector) : (s.setSector h x).irqs = s.irqs := rfl
@[simp] theorem State.setSector_hostData (s : State) (h : Nat) (x : Sector) : (s.setSector h x).hostData = s.hostData := rfl
@[simp] theorem State.setSector_hostPoison (s : State) (h : Nat) (x : Sector) : (s.setSector h x).hostPoison = s.hostPoison := rfl
@[simp] theorem State.setSector_logged (s : State) (h : Nat) (x : Sector) : (s.setSector h x).logged = s.logged := rfl
@[simp] theorem State.setSector_apertureErrors (s : State) (h : Nat) (x : Sector) : (s.setSector h x).apertureErrors = s.apertureErrors := rfl
@[simp] theorem State.setSector_cur (s : State) (h : Nat) (x : Sector) : (s.setSector h x).cur = s.cur := rfl
@[simp] theorem State.setSector_fresh (s : State) (h : Nat) (x : Sector) : (s.setSector h x).fresh = s.fresh := rfl
@[simp] theorem State.setSector_free (s : State) (h : Nat) (x : Sector) : (s.setSector h x).free = s.free := rfl
@[simp] theorem State.setSector_rr (s : State) (h : Nat) (x : Sector) : (s.setSector h x).rr = s.rr := rfl
@[simp] theorem State.setSector_agenda (s : State) (h : Nat) (x : Sector) : (s.setSector h x).agenda = s.agenda := rfl

/-! ### setLaunch -/

@[simp] theorem State.setLaunch_mem (s : State) (l : Nat) (x : Option Launch) : (s.setLaunch l x).mem = s.mem := rfl
@[simp] theorem State.setLaunch_tags (s : State) (l : Nat) (x : Option Launch) : (s.setLaunch l x).tags = s.tags := rfl
@[simp] theorem State.setLaunch_check (s : State) (l : Nat) (x : Option Launch) : (s.setLaunch l x).check = s.check := rfl
@[simp] theorem State.setLaunch_hostView (s : State) (l : Nat) (x : Option Launch) : (s.setLaunch l x).hostView = s.hostView := rfl
@[simp] theorem State.setLaunch_hostBad (s : State) (l : Nat) (x : Option Launch) : (s.setLaunch l x).hostBad = s.hostBad := rfl
@[simp] theorem State.setLaunch_groups (s : State) (l : Nat) (x : Option Launch) : (s.setLaunch l x).groups = s.groups := rfl
@[simp] theorem State.setLaunch_cores (s : State) (l : Nat) (x : Option Launch) : (s.setLaunch l x).cores = s.cores := rfl
@[simp] theorem State.setLaunch_l1s (s : State) (l : Nat) (x : Option Launch) : (s.setLaunch l x).l1s = s.l1s := rfl
@[simp] theorem State.setLaunch_fused (s : State) (l : Nat) (x : Option Launch) : (s.setLaunch l x).fused = s.fused := rfl
@[simp] theorem State.setLaunch_slices (s : State) (l : Nat) (x : Option Launch) : (s.setLaunch l x).slices = s.slices := rfl
@[simp] theorem State.setLaunch_sectors (s : State) (l : Nat) (x : Option Launch) : (s.setLaunch l x).sectors = s.sectors := rfl
@[simp] theorem State.setLaunch_reqs (s : State) (l : Nat) (x : Option Launch) : (s.setLaunch l x).reqs = s.reqs := rfl
@[simp] theorem State.setLaunch_resvs (s : State) (l : Nat) (x : Option Launch) : (s.setLaunch l x).resvs = s.resvs := rfl
@[simp] theorem State.setLaunch_tlb (s : State) (l : Nat) (x : Option Launch) : (s.setLaunch l x).tlb = s.tlb := rfl
@[simp] theorem State.setLaunch_copyCmds (s : State) (l : Nat) (x : Option Launch) : (s.setLaunch l x).copyCmds = s.copyCmds := rfl
@[simp] theorem State.setLaunch_fabCmds (s : State) (l : Nat) (x : Option Launch) : (s.setLaunch l x).fabCmds = s.fabCmds := rfl
@[simp] theorem State.setLaunch_collCmds (s : State) (l : Nat) (x : Option Launch) : (s.setLaunch l x).collCmds = s.collCmds := rfl
@[simp] theorem State.setLaunch_landed (s : State) (l : Nat) (x : Option Launch) : (s.setLaunch l x).landed = s.landed := rfl
@[simp] theorem State.setLaunch_brought (s : State) (l : Nat) (x : Option Launch) : (s.setLaunch l x).brought = s.brought := rfl
@[simp] theorem State.setLaunch_aborts (s : State) (l : Nat) (x : Option Launch) : (s.setLaunch l x).aborts = s.aborts := rfl
@[simp] theorem State.setLaunch_collEnded (s : State) (l : Nat) (x : Option Launch) : (s.setLaunch l x).collEnded = s.collEnded := rfl
@[simp] theorem State.setLaunch_chains (s : State) (l : Nat) (x : Option Launch) : (s.setLaunch l x).chains = s.chains := rfl
@[simp] theorem State.setLaunch_workQueues (s : State) (l : Nat) (x : Option Launch) : (s.setLaunch l x).workQueues = s.workQueues := rfl
@[simp] theorem State.setLaunch_slots (s : State) (l : Nat) (x : Option Launch) : (s.setLaunch l x).slots = s.slots := rfl
@[simp] theorem State.setLaunch_pendingQueues (s : State) (l : Nat) (x : Option Launch) : (s.setLaunch l x).pendingQueues = s.pendingQueues := rfl
@[simp] theorem State.setLaunch_faults (s : State) (l : Nat) (x : Option Launch) : (s.setLaunch l x).faults = s.faults := rfl
@[simp] theorem State.setLaunch_nextFault (s : State) (l : Nat) (x : Option Launch) : (s.setLaunch l x).nextFault = s.nextFault := rfl
@[simp] theorem State.setLaunch_driver (s : State) (l : Nat) (x : Option Launch) : (s.setLaunch l x).driver = s.driver := rfl
@[simp] theorem State.setLaunch_boot (s : State) (l : Nat) (x : Option Launch) : (s.setLaunch l x).boot = s.boot := rfl
@[simp] theorem State.setLaunch_islands (s : State) (l : Nat) (x : Option Launch) : (s.setLaunch l x).islands = s.islands := rfl
@[simp] theorem State.setLaunch_routers (s : State) (l : Nat) (x : Option Launch) : (s.setLaunch l x).routers = s.routers := rfl
@[simp] theorem State.setLaunch_fabricUse (s : State) (l : Nat) (x : Option Launch) : (s.setLaunch l x).fabricUse = s.fabricUse := rfl
@[simp] theorem State.setLaunch_ports (s : State) (l : Nat) (x : Option Launch) : (s.setLaunch l x).ports = s.ports := rfl
@[simp] theorem State.setLaunch_partitions (s : State) (l : Nat) (x : Option Launch) : (s.setLaunch l x).partitions = s.partitions := rfl
@[simp] theorem State.setLaunch_deadStacks (s : State) (l : Nat) (x : Option Launch) : (s.setLaunch l x).deadStacks = s.deadStacks := rfl
@[simp] theorem State.setLaunch_stackErrors (s : State) (l : Nat) (x : Option Launch) : (s.setLaunch l x).stackErrors = s.stackErrors := rfl
@[simp] theorem State.setLaunch_linkErrors (s : State) (l : Nat) (x : Option Launch) : (s.setLaunch l x).linkErrors = s.linkErrors := rfl
@[simp] theorem State.setLaunch_linksDown (s : State) (l : Nat) (x : Option Launch) : (s.setLaunch l x).linksDown = s.linksDown := rfl
@[simp] theorem State.setLaunch_fabricDown (s : State) (l : Nat) (x : Option Launch) : (s.setLaunch l x).fabricDown = s.fabricDown := rfl
@[simp] theorem State.setLaunch_hostTime (s : State) (l : Nat) (x : Option Launch) : (s.setLaunch l x).hostTime = s.hostTime := rfl
@[simp] theorem State.setLaunch_clock (s : State) (l : Nat) (x : Option Launch) : (s.setLaunch l x).clock = s.clock := rfl
@[simp] theorem State.setLaunch_irqs (s : State) (l : Nat) (x : Option Launch) : (s.setLaunch l x).irqs = s.irqs := rfl
@[simp] theorem State.setLaunch_hostData (s : State) (l : Nat) (x : Option Launch) : (s.setLaunch l x).hostData = s.hostData := rfl
@[simp] theorem State.setLaunch_hostPoison (s : State) (l : Nat) (x : Option Launch) : (s.setLaunch l x).hostPoison = s.hostPoison := rfl
@[simp] theorem State.setLaunch_logged (s : State) (l : Nat) (x : Option Launch) : (s.setLaunch l x).logged = s.logged := rfl
@[simp] theorem State.setLaunch_apertureErrors (s : State) (l : Nat) (x : Option Launch) : (s.setLaunch l x).apertureErrors = s.apertureErrors := rfl
@[simp] theorem State.setLaunch_cur (s : State) (l : Nat) (x : Option Launch) : (s.setLaunch l x).cur = s.cur := rfl
@[simp] theorem State.setLaunch_fresh (s : State) (l : Nat) (x : Option Launch) : (s.setLaunch l x).fresh = s.fresh := rfl
@[simp] theorem State.setLaunch_free (s : State) (l : Nat) (x : Option Launch) : (s.setLaunch l x).free = s.free := rfl
@[simp] theorem State.setLaunch_rr (s : State) (l : Nat) (x : Option Launch) : (s.setLaunch l x).rr = s.rr := rfl
@[simp] theorem State.setLaunch_agenda (s : State) (l : Nat) (x : Option Launch) : (s.setLaunch l x).agenda = s.agenda := rfl

/-! ### setReq -/

@[simp] theorem State.setReq_mem (s : State) (r : Nat) (x : Option Req) : (s.setReq r x).mem = s.mem := rfl
@[simp] theorem State.setReq_tags (s : State) (r : Nat) (x : Option Req) : (s.setReq r x).tags = s.tags := rfl
@[simp] theorem State.setReq_check (s : State) (r : Nat) (x : Option Req) : (s.setReq r x).check = s.check := rfl
@[simp] theorem State.setReq_hostView (s : State) (r : Nat) (x : Option Req) : (s.setReq r x).hostView = s.hostView := rfl
@[simp] theorem State.setReq_hostBad (s : State) (r : Nat) (x : Option Req) : (s.setReq r x).hostBad = s.hostBad := rfl
@[simp] theorem State.setReq_groups (s : State) (r : Nat) (x : Option Req) : (s.setReq r x).groups = s.groups := rfl
@[simp] theorem State.setReq_cores (s : State) (r : Nat) (x : Option Req) : (s.setReq r x).cores = s.cores := rfl
@[simp] theorem State.setReq_l1s (s : State) (r : Nat) (x : Option Req) : (s.setReq r x).l1s = s.l1s := rfl
@[simp] theorem State.setReq_fused (s : State) (r : Nat) (x : Option Req) : (s.setReq r x).fused = s.fused := rfl
@[simp] theorem State.setReq_slices (s : State) (r : Nat) (x : Option Req) : (s.setReq r x).slices = s.slices := rfl
@[simp] theorem State.setReq_sectors (s : State) (r : Nat) (x : Option Req) : (s.setReq r x).sectors = s.sectors := rfl
@[simp] theorem State.setReq_resvs (s : State) (r : Nat) (x : Option Req) : (s.setReq r x).resvs = s.resvs := rfl
@[simp] theorem State.setReq_tlb (s : State) (r : Nat) (x : Option Req) : (s.setReq r x).tlb = s.tlb := rfl
@[simp] theorem State.setReq_copyCmds (s : State) (r : Nat) (x : Option Req) : (s.setReq r x).copyCmds = s.copyCmds := rfl
@[simp] theorem State.setReq_fabCmds (s : State) (r : Nat) (x : Option Req) : (s.setReq r x).fabCmds = s.fabCmds := rfl
@[simp] theorem State.setReq_collCmds (s : State) (r : Nat) (x : Option Req) : (s.setReq r x).collCmds = s.collCmds := rfl
@[simp] theorem State.setReq_landed (s : State) (r : Nat) (x : Option Req) : (s.setReq r x).landed = s.landed := rfl
@[simp] theorem State.setReq_brought (s : State) (r : Nat) (x : Option Req) : (s.setReq r x).brought = s.brought := rfl
@[simp] theorem State.setReq_aborts (s : State) (r : Nat) (x : Option Req) : (s.setReq r x).aborts = s.aborts := rfl
@[simp] theorem State.setReq_collEnded (s : State) (r : Nat) (x : Option Req) : (s.setReq r x).collEnded = s.collEnded := rfl
@[simp] theorem State.setReq_launches (s : State) (r : Nat) (x : Option Req) : (s.setReq r x).launches = s.launches := rfl
@[simp] theorem State.setReq_chains (s : State) (r : Nat) (x : Option Req) : (s.setReq r x).chains = s.chains := rfl
@[simp] theorem State.setReq_workQueues (s : State) (r : Nat) (x : Option Req) : (s.setReq r x).workQueues = s.workQueues := rfl
@[simp] theorem State.setReq_slots (s : State) (r : Nat) (x : Option Req) : (s.setReq r x).slots = s.slots := rfl
@[simp] theorem State.setReq_pendingQueues (s : State) (r : Nat) (x : Option Req) : (s.setReq r x).pendingQueues = s.pendingQueues := rfl
@[simp] theorem State.setReq_faults (s : State) (r : Nat) (x : Option Req) : (s.setReq r x).faults = s.faults := rfl
@[simp] theorem State.setReq_nextFault (s : State) (r : Nat) (x : Option Req) : (s.setReq r x).nextFault = s.nextFault := rfl
@[simp] theorem State.setReq_driver (s : State) (r : Nat) (x : Option Req) : (s.setReq r x).driver = s.driver := rfl
@[simp] theorem State.setReq_boot (s : State) (r : Nat) (x : Option Req) : (s.setReq r x).boot = s.boot := rfl
@[simp] theorem State.setReq_islands (s : State) (r : Nat) (x : Option Req) : (s.setReq r x).islands = s.islands := rfl
@[simp] theorem State.setReq_routers (s : State) (r : Nat) (x : Option Req) : (s.setReq r x).routers = s.routers := rfl
@[simp] theorem State.setReq_fabricUse (s : State) (r : Nat) (x : Option Req) : (s.setReq r x).fabricUse = s.fabricUse := rfl
@[simp] theorem State.setReq_ports (s : State) (r : Nat) (x : Option Req) : (s.setReq r x).ports = s.ports := rfl
@[simp] theorem State.setReq_partitions (s : State) (r : Nat) (x : Option Req) : (s.setReq r x).partitions = s.partitions := rfl
@[simp] theorem State.setReq_deadStacks (s : State) (r : Nat) (x : Option Req) : (s.setReq r x).deadStacks = s.deadStacks := rfl
@[simp] theorem State.setReq_stackErrors (s : State) (r : Nat) (x : Option Req) : (s.setReq r x).stackErrors = s.stackErrors := rfl
@[simp] theorem State.setReq_linkErrors (s : State) (r : Nat) (x : Option Req) : (s.setReq r x).linkErrors = s.linkErrors := rfl
@[simp] theorem State.setReq_linksDown (s : State) (r : Nat) (x : Option Req) : (s.setReq r x).linksDown = s.linksDown := rfl
@[simp] theorem State.setReq_fabricDown (s : State) (r : Nat) (x : Option Req) : (s.setReq r x).fabricDown = s.fabricDown := rfl
@[simp] theorem State.setReq_hostTime (s : State) (r : Nat) (x : Option Req) : (s.setReq r x).hostTime = s.hostTime := rfl
@[simp] theorem State.setReq_clock (s : State) (r : Nat) (x : Option Req) : (s.setReq r x).clock = s.clock := rfl
@[simp] theorem State.setReq_irqs (s : State) (r : Nat) (x : Option Req) : (s.setReq r x).irqs = s.irqs := rfl
@[simp] theorem State.setReq_hostData (s : State) (r : Nat) (x : Option Req) : (s.setReq r x).hostData = s.hostData := rfl
@[simp] theorem State.setReq_hostPoison (s : State) (r : Nat) (x : Option Req) : (s.setReq r x).hostPoison = s.hostPoison := rfl
@[simp] theorem State.setReq_logged (s : State) (r : Nat) (x : Option Req) : (s.setReq r x).logged = s.logged := rfl
@[simp] theorem State.setReq_apertureErrors (s : State) (r : Nat) (x : Option Req) : (s.setReq r x).apertureErrors = s.apertureErrors := rfl
@[simp] theorem State.setReq_cur (s : State) (r : Nat) (x : Option Req) : (s.setReq r x).cur = s.cur := rfl
@[simp] theorem State.setReq_fresh (s : State) (r : Nat) (x : Option Req) : (s.setReq r x).fresh = s.fresh := rfl
@[simp] theorem State.setReq_free (s : State) (r : Nat) (x : Option Req) : (s.setReq r x).free = s.free := rfl
@[simp] theorem State.setReq_rr (s : State) (r : Nat) (x : Option Req) : (s.setReq r x).rr = s.rr := rfl
@[simp] theorem State.setReq_agenda (s : State) (r : Nat) (x : Option Req) : (s.setReq r x).agenda = s.agenda := rfl

/-! ### setByte -/

@[simp] theorem State.setByte_tags (s : State) (pa : Nat) (b : Byte) : (s.setByte pa b).tags = s.tags := rfl
@[simp] theorem State.setByte_check (s : State) (pa : Nat) (b : Byte) : (s.setByte pa b).check = s.check := rfl
@[simp] theorem State.setByte_hostView (s : State) (pa : Nat) (b : Byte) : (s.setByte pa b).hostView = s.hostView := rfl
@[simp] theorem State.setByte_hostBad (s : State) (pa : Nat) (b : Byte) : (s.setByte pa b).hostBad = s.hostBad := rfl
@[simp] theorem State.setByte_groups (s : State) (pa : Nat) (b : Byte) : (s.setByte pa b).groups = s.groups := rfl
@[simp] theorem State.setByte_cores (s : State) (pa : Nat) (b : Byte) : (s.setByte pa b).cores = s.cores := rfl
@[simp] theorem State.setByte_l1s (s : State) (pa : Nat) (b : Byte) : (s.setByte pa b).l1s = s.l1s := rfl
@[simp] theorem State.setByte_fused (s : State) (pa : Nat) (b : Byte) : (s.setByte pa b).fused = s.fused := rfl
@[simp] theorem State.setByte_slices (s : State) (pa : Nat) (b : Byte) : (s.setByte pa b).slices = s.slices := rfl
@[simp] theorem State.setByte_sectors (s : State) (pa : Nat) (b : Byte) : (s.setByte pa b).sectors = s.sectors := rfl
@[simp] theorem State.setByte_reqs (s : State) (pa : Nat) (b : Byte) : (s.setByte pa b).reqs = s.reqs := rfl
@[simp] theorem State.setByte_resvs (s : State) (pa : Nat) (b : Byte) : (s.setByte pa b).resvs = s.resvs := rfl
@[simp] theorem State.setByte_tlb (s : State) (pa : Nat) (b : Byte) : (s.setByte pa b).tlb = s.tlb := rfl
@[simp] theorem State.setByte_copyCmds (s : State) (pa : Nat) (b : Byte) : (s.setByte pa b).copyCmds = s.copyCmds := rfl
@[simp] theorem State.setByte_fabCmds (s : State) (pa : Nat) (b : Byte) : (s.setByte pa b).fabCmds = s.fabCmds := rfl
@[simp] theorem State.setByte_collCmds (s : State) (pa : Nat) (b : Byte) : (s.setByte pa b).collCmds = s.collCmds := rfl
@[simp] theorem State.setByte_landed (s : State) (pa : Nat) (b : Byte) : (s.setByte pa b).landed = s.landed := rfl
@[simp] theorem State.setByte_brought (s : State) (pa : Nat) (b : Byte) : (s.setByte pa b).brought = s.brought := rfl
@[simp] theorem State.setByte_aborts (s : State) (pa : Nat) (b : Byte) : (s.setByte pa b).aborts = s.aborts := rfl
@[simp] theorem State.setByte_collEnded (s : State) (pa : Nat) (b : Byte) : (s.setByte pa b).collEnded = s.collEnded := rfl
@[simp] theorem State.setByte_launches (s : State) (pa : Nat) (b : Byte) : (s.setByte pa b).launches = s.launches := rfl
@[simp] theorem State.setByte_chains (s : State) (pa : Nat) (b : Byte) : (s.setByte pa b).chains = s.chains := rfl
@[simp] theorem State.setByte_workQueues (s : State) (pa : Nat) (b : Byte) : (s.setByte pa b).workQueues = s.workQueues := rfl
@[simp] theorem State.setByte_slots (s : State) (pa : Nat) (b : Byte) : (s.setByte pa b).slots = s.slots := rfl
@[simp] theorem State.setByte_pendingQueues (s : State) (pa : Nat) (b : Byte) : (s.setByte pa b).pendingQueues = s.pendingQueues := rfl
@[simp] theorem State.setByte_faults (s : State) (pa : Nat) (b : Byte) : (s.setByte pa b).faults = s.faults := rfl
@[simp] theorem State.setByte_nextFault (s : State) (pa : Nat) (b : Byte) : (s.setByte pa b).nextFault = s.nextFault := rfl
@[simp] theorem State.setByte_driver (s : State) (pa : Nat) (b : Byte) : (s.setByte pa b).driver = s.driver := rfl
@[simp] theorem State.setByte_boot (s : State) (pa : Nat) (b : Byte) : (s.setByte pa b).boot = s.boot := rfl
@[simp] theorem State.setByte_islands (s : State) (pa : Nat) (b : Byte) : (s.setByte pa b).islands = s.islands := rfl
@[simp] theorem State.setByte_routers (s : State) (pa : Nat) (b : Byte) : (s.setByte pa b).routers = s.routers := rfl
@[simp] theorem State.setByte_fabricUse (s : State) (pa : Nat) (b : Byte) : (s.setByte pa b).fabricUse = s.fabricUse := rfl
@[simp] theorem State.setByte_ports (s : State) (pa : Nat) (b : Byte) : (s.setByte pa b).ports = s.ports := rfl
@[simp] theorem State.setByte_partitions (s : State) (pa : Nat) (b : Byte) : (s.setByte pa b).partitions = s.partitions := rfl
@[simp] theorem State.setByte_deadStacks (s : State) (pa : Nat) (b : Byte) : (s.setByte pa b).deadStacks = s.deadStacks := rfl
@[simp] theorem State.setByte_stackErrors (s : State) (pa : Nat) (b : Byte) : (s.setByte pa b).stackErrors = s.stackErrors := rfl
@[simp] theorem State.setByte_linkErrors (s : State) (pa : Nat) (b : Byte) : (s.setByte pa b).linkErrors = s.linkErrors := rfl
@[simp] theorem State.setByte_linksDown (s : State) (pa : Nat) (b : Byte) : (s.setByte pa b).linksDown = s.linksDown := rfl
@[simp] theorem State.setByte_fabricDown (s : State) (pa : Nat) (b : Byte) : (s.setByte pa b).fabricDown = s.fabricDown := rfl
@[simp] theorem State.setByte_hostTime (s : State) (pa : Nat) (b : Byte) : (s.setByte pa b).hostTime = s.hostTime := rfl
@[simp] theorem State.setByte_clock (s : State) (pa : Nat) (b : Byte) : (s.setByte pa b).clock = s.clock := rfl
@[simp] theorem State.setByte_irqs (s : State) (pa : Nat) (b : Byte) : (s.setByte pa b).irqs = s.irqs := rfl
@[simp] theorem State.setByte_hostData (s : State) (pa : Nat) (b : Byte) : (s.setByte pa b).hostData = s.hostData := rfl
@[simp] theorem State.setByte_hostPoison (s : State) (pa : Nat) (b : Byte) : (s.setByte pa b).hostPoison = s.hostPoison := rfl
@[simp] theorem State.setByte_logged (s : State) (pa : Nat) (b : Byte) : (s.setByte pa b).logged = s.logged := rfl
@[simp] theorem State.setByte_apertureErrors (s : State) (pa : Nat) (b : Byte) : (s.setByte pa b).apertureErrors = s.apertureErrors := rfl
@[simp] theorem State.setByte_cur (s : State) (pa : Nat) (b : Byte) : (s.setByte pa b).cur = s.cur := rfl
@[simp] theorem State.setByte_fresh (s : State) (pa : Nat) (b : Byte) : (s.setByte pa b).fresh = s.fresh := rfl
@[simp] theorem State.setByte_free (s : State) (pa : Nat) (b : Byte) : (s.setByte pa b).free = s.free := rfl
@[simp] theorem State.setByte_rr (s : State) (pa : Nat) (b : Byte) : (s.setByte pa b).rr = s.rr := rfl
@[simp] theorem State.setByte_agenda (s : State) (pa : Nat) (b : Byte) : (s.setByte pa b).agenda = s.agenda := rfl

/-! ### setWordTag -/

@[simp] theorem State.setWordTag_hostView (s : State) (pa : Nat) (t : Tag) : (s.setWordTag pa t).hostView = s.hostView := rfl
@[simp] theorem State.setWordTag_hostBad (s : State) (pa : Nat) (t : Tag) : (s.setWordTag pa t).hostBad = s.hostBad := rfl
@[simp] theorem State.setWordTag_groups (s : State) (pa : Nat) (t : Tag) : (s.setWordTag pa t).groups = s.groups := rfl
@[simp] theorem State.setWordTag_cores (s : State) (pa : Nat) (t : Tag) : (s.setWordTag pa t).cores = s.cores := rfl
@[simp] theorem State.setWordTag_l1s (s : State) (pa : Nat) (t : Tag) : (s.setWordTag pa t).l1s = s.l1s := rfl
@[simp] theorem State.setWordTag_fused (s : State) (pa : Nat) (t : Tag) : (s.setWordTag pa t).fused = s.fused := rfl
@[simp] theorem State.setWordTag_slices (s : State) (pa : Nat) (t : Tag) : (s.setWordTag pa t).slices = s.slices := rfl
@[simp] theorem State.setWordTag_sectors (s : State) (pa : Nat) (t : Tag) : (s.setWordTag pa t).sectors = s.sectors := rfl
@[simp] theorem State.setWordTag_reqs (s : State) (pa : Nat) (t : Tag) : (s.setWordTag pa t).reqs = s.reqs := rfl
@[simp] theorem State.setWordTag_resvs (s : State) (pa : Nat) (t : Tag) : (s.setWordTag pa t).resvs = s.resvs := rfl
@[simp] theorem State.setWordTag_tlb (s : State) (pa : Nat) (t : Tag) : (s.setWordTag pa t).tlb = s.tlb := rfl
@[simp] theorem State.setWordTag_copyCmds (s : State) (pa : Nat) (t : Tag) : (s.setWordTag pa t).copyCmds = s.copyCmds := rfl
@[simp] theorem State.setWordTag_fabCmds (s : State) (pa : Nat) (t : Tag) : (s.setWordTag pa t).fabCmds = s.fabCmds := rfl
@[simp] theorem State.setWordTag_collCmds (s : State) (pa : Nat) (t : Tag) : (s.setWordTag pa t).collCmds = s.collCmds := rfl
@[simp] theorem State.setWordTag_landed (s : State) (pa : Nat) (t : Tag) : (s.setWordTag pa t).landed = s.landed := rfl
@[simp] theorem State.setWordTag_brought (s : State) (pa : Nat) (t : Tag) : (s.setWordTag pa t).brought = s.brought := rfl
@[simp] theorem State.setWordTag_aborts (s : State) (pa : Nat) (t : Tag) : (s.setWordTag pa t).aborts = s.aborts := rfl
@[simp] theorem State.setWordTag_collEnded (s : State) (pa : Nat) (t : Tag) : (s.setWordTag pa t).collEnded = s.collEnded := rfl
@[simp] theorem State.setWordTag_launches (s : State) (pa : Nat) (t : Tag) : (s.setWordTag pa t).launches = s.launches := rfl
@[simp] theorem State.setWordTag_chains (s : State) (pa : Nat) (t : Tag) : (s.setWordTag pa t).chains = s.chains := rfl
@[simp] theorem State.setWordTag_workQueues (s : State) (pa : Nat) (t : Tag) : (s.setWordTag pa t).workQueues = s.workQueues := rfl
@[simp] theorem State.setWordTag_slots (s : State) (pa : Nat) (t : Tag) : (s.setWordTag pa t).slots = s.slots := rfl
@[simp] theorem State.setWordTag_pendingQueues (s : State) (pa : Nat) (t : Tag) : (s.setWordTag pa t).pendingQueues = s.pendingQueues := rfl
@[simp] theorem State.setWordTag_faults (s : State) (pa : Nat) (t : Tag) : (s.setWordTag pa t).faults = s.faults := rfl
@[simp] theorem State.setWordTag_nextFault (s : State) (pa : Nat) (t : Tag) : (s.setWordTag pa t).nextFault = s.nextFault := rfl
@[simp] theorem State.setWordTag_driver (s : State) (pa : Nat) (t : Tag) : (s.setWordTag pa t).driver = s.driver := rfl
@[simp] theorem State.setWordTag_boot (s : State) (pa : Nat) (t : Tag) : (s.setWordTag pa t).boot = s.boot := rfl
@[simp] theorem State.setWordTag_islands (s : State) (pa : Nat) (t : Tag) : (s.setWordTag pa t).islands = s.islands := rfl
@[simp] theorem State.setWordTag_routers (s : State) (pa : Nat) (t : Tag) : (s.setWordTag pa t).routers = s.routers := rfl
@[simp] theorem State.setWordTag_fabricUse (s : State) (pa : Nat) (t : Tag) : (s.setWordTag pa t).fabricUse = s.fabricUse := rfl
@[simp] theorem State.setWordTag_ports (s : State) (pa : Nat) (t : Tag) : (s.setWordTag pa t).ports = s.ports := rfl
@[simp] theorem State.setWordTag_partitions (s : State) (pa : Nat) (t : Tag) : (s.setWordTag pa t).partitions = s.partitions := rfl
@[simp] theorem State.setWordTag_deadStacks (s : State) (pa : Nat) (t : Tag) : (s.setWordTag pa t).deadStacks = s.deadStacks := rfl
@[simp] theorem State.setWordTag_stackErrors (s : State) (pa : Nat) (t : Tag) : (s.setWordTag pa t).stackErrors = s.stackErrors := rfl
@[simp] theorem State.setWordTag_linkErrors (s : State) (pa : Nat) (t : Tag) : (s.setWordTag pa t).linkErrors = s.linkErrors := rfl
@[simp] theorem State.setWordTag_linksDown (s : State) (pa : Nat) (t : Tag) : (s.setWordTag pa t).linksDown = s.linksDown := rfl
@[simp] theorem State.setWordTag_fabricDown (s : State) (pa : Nat) (t : Tag) : (s.setWordTag pa t).fabricDown = s.fabricDown := rfl
@[simp] theorem State.setWordTag_hostTime (s : State) (pa : Nat) (t : Tag) : (s.setWordTag pa t).hostTime = s.hostTime := rfl
@[simp] theorem State.setWordTag_clock (s : State) (pa : Nat) (t : Tag) : (s.setWordTag pa t).clock = s.clock := rfl
@[simp] theorem State.setWordTag_irqs (s : State) (pa : Nat) (t : Tag) : (s.setWordTag pa t).irqs = s.irqs := rfl
@[simp] theorem State.setWordTag_hostData (s : State) (pa : Nat) (t : Tag) : (s.setWordTag pa t).hostData = s.hostData := rfl
@[simp] theorem State.setWordTag_hostPoison (s : State) (pa : Nat) (t : Tag) : (s.setWordTag pa t).hostPoison = s.hostPoison := rfl
@[simp] theorem State.setWordTag_logged (s : State) (pa : Nat) (t : Tag) : (s.setWordTag pa t).logged = s.logged := rfl
@[simp] theorem State.setWordTag_apertureErrors (s : State) (pa : Nat) (t : Tag) : (s.setWordTag pa t).apertureErrors = s.apertureErrors := rfl
@[simp] theorem State.setWordTag_cur (s : State) (pa : Nat) (t : Tag) : (s.setWordTag pa t).cur = s.cur := rfl
@[simp] theorem State.setWordTag_fresh (s : State) (pa : Nat) (t : Tag) : (s.setWordTag pa t).fresh = s.fresh := rfl
@[simp] theorem State.setWordTag_free (s : State) (pa : Nat) (t : Tag) : (s.setWordTag pa t).free = s.free := rfl
@[simp] theorem State.setWordTag_rr (s : State) (pa : Nat) (t : Tag) : (s.setWordTag pa t).rr = s.rr := rfl
@[simp] theorem State.setWordTag_agenda (s : State) (pa : Nat) (t : Tag) : (s.setWordTag pa t).agenda = s.agenda := rfl

/-! ### recheck -/

@[simp] theorem State.recheck_mem (s : State) (pa : Nat) : (s.recheck pa).mem = s.mem := rfl
@[simp] theorem State.recheck_tags (s : State) (pa : Nat) : (s.recheck pa).tags = s.tags := rfl
@[simp] theorem State.recheck_hostView (s : State) (pa : Nat) : (s.recheck pa).hostView = s.hostView := rfl
@[simp] theorem State.recheck_hostBad (s : State) (pa : Nat) : (s.recheck pa).hostBad = s.hostBad := rfl
@[simp] theorem State.recheck_groups (s : State) (pa : Nat) : (s.recheck pa).groups = s.groups := rfl
@[simp] theorem State.recheck_cores (s : State) (pa : Nat) : (s.recheck pa).cores = s.cores := rfl
@[simp] theorem State.recheck_l1s (s : State) (pa : Nat) : (s.recheck pa).l1s = s.l1s := rfl
@[simp] theorem State.recheck_fused (s : State) (pa : Nat) : (s.recheck pa).fused = s.fused := rfl
@[simp] theorem State.recheck_slices (s : State) (pa : Nat) : (s.recheck pa).slices = s.slices := rfl
@[simp] theorem State.recheck_sectors (s : State) (pa : Nat) : (s.recheck pa).sectors = s.sectors := rfl
@[simp] theorem State.recheck_reqs (s : State) (pa : Nat) : (s.recheck pa).reqs = s.reqs := rfl
@[simp] theorem State.recheck_resvs (s : State) (pa : Nat) : (s.recheck pa).resvs = s.resvs := rfl
@[simp] theorem State.recheck_tlb (s : State) (pa : Nat) : (s.recheck pa).tlb = s.tlb := rfl
@[simp] theorem State.recheck_copyCmds (s : State) (pa : Nat) : (s.recheck pa).copyCmds = s.copyCmds := rfl
@[simp] theorem State.recheck_fabCmds (s : State) (pa : Nat) : (s.recheck pa).fabCmds = s.fabCmds := rfl
@[simp] theorem State.recheck_collCmds (s : State) (pa : Nat) : (s.recheck pa).collCmds = s.collCmds := rfl
@[simp] theorem State.recheck_landed (s : State) (pa : Nat) : (s.recheck pa).landed = s.landed := rfl
@[simp] theorem State.recheck_brought (s : State) (pa : Nat) : (s.recheck pa).brought = s.brought := rfl
@[simp] theorem State.recheck_aborts (s : State) (pa : Nat) : (s.recheck pa).aborts = s.aborts := rfl
@[simp] theorem State.recheck_collEnded (s : State) (pa : Nat) : (s.recheck pa).collEnded = s.collEnded := rfl
@[simp] theorem State.recheck_launches (s : State) (pa : Nat) : (s.recheck pa).launches = s.launches := rfl
@[simp] theorem State.recheck_chains (s : State) (pa : Nat) : (s.recheck pa).chains = s.chains := rfl
@[simp] theorem State.recheck_workQueues (s : State) (pa : Nat) : (s.recheck pa).workQueues = s.workQueues := rfl
@[simp] theorem State.recheck_slots (s : State) (pa : Nat) : (s.recheck pa).slots = s.slots := rfl
@[simp] theorem State.recheck_pendingQueues (s : State) (pa : Nat) : (s.recheck pa).pendingQueues = s.pendingQueues := rfl
@[simp] theorem State.recheck_faults (s : State) (pa : Nat) : (s.recheck pa).faults = s.faults := rfl
@[simp] theorem State.recheck_nextFault (s : State) (pa : Nat) : (s.recheck pa).nextFault = s.nextFault := rfl
@[simp] theorem State.recheck_driver (s : State) (pa : Nat) : (s.recheck pa).driver = s.driver := rfl
@[simp] theorem State.recheck_boot (s : State) (pa : Nat) : (s.recheck pa).boot = s.boot := rfl
@[simp] theorem State.recheck_islands (s : State) (pa : Nat) : (s.recheck pa).islands = s.islands := rfl
@[simp] theorem State.recheck_routers (s : State) (pa : Nat) : (s.recheck pa).routers = s.routers := rfl
@[simp] theorem State.recheck_fabricUse (s : State) (pa : Nat) : (s.recheck pa).fabricUse = s.fabricUse := rfl
@[simp] theorem State.recheck_ports (s : State) (pa : Nat) : (s.recheck pa).ports = s.ports := rfl
@[simp] theorem State.recheck_partitions (s : State) (pa : Nat) : (s.recheck pa).partitions = s.partitions := rfl
@[simp] theorem State.recheck_deadStacks (s : State) (pa : Nat) : (s.recheck pa).deadStacks = s.deadStacks := rfl
@[simp] theorem State.recheck_stackErrors (s : State) (pa : Nat) : (s.recheck pa).stackErrors = s.stackErrors := rfl
@[simp] theorem State.recheck_linkErrors (s : State) (pa : Nat) : (s.recheck pa).linkErrors = s.linkErrors := rfl
@[simp] theorem State.recheck_linksDown (s : State) (pa : Nat) : (s.recheck pa).linksDown = s.linksDown := rfl
@[simp] theorem State.recheck_fabricDown (s : State) (pa : Nat) : (s.recheck pa).fabricDown = s.fabricDown := rfl
@[simp] theorem State.recheck_hostTime (s : State) (pa : Nat) : (s.recheck pa).hostTime = s.hostTime := rfl
@[simp] theorem State.recheck_clock (s : State) (pa : Nat) : (s.recheck pa).clock = s.clock := rfl
@[simp] theorem State.recheck_irqs (s : State) (pa : Nat) : (s.recheck pa).irqs = s.irqs := rfl
@[simp] theorem State.recheck_hostData (s : State) (pa : Nat) : (s.recheck pa).hostData = s.hostData := rfl
@[simp] theorem State.recheck_hostPoison (s : State) (pa : Nat) : (s.recheck pa).hostPoison = s.hostPoison := rfl
@[simp] theorem State.recheck_logged (s : State) (pa : Nat) : (s.recheck pa).logged = s.logged := rfl
@[simp] theorem State.recheck_apertureErrors (s : State) (pa : Nat) : (s.recheck pa).apertureErrors = s.apertureErrors := rfl
@[simp] theorem State.recheck_cur (s : State) (pa : Nat) : (s.recheck pa).cur = s.cur := rfl
@[simp] theorem State.recheck_fresh (s : State) (pa : Nat) : (s.recheck pa).fresh = s.fresh := rfl
@[simp] theorem State.recheck_free (s : State) (pa : Nat) : (s.recheck pa).free = s.free := rfl
@[simp] theorem State.recheck_rr (s : State) (pa : Nat) : (s.recheck pa).rr = s.rr := rfl
@[simp] theorem State.recheck_agenda (s : State) (pa : Nat) : (s.recheck pa).agenda = s.agenda := rfl

/-! ### killResvs -/

@[simp] theorem State.killResvs_mem (s : State) (pa n : Nat) : (s.killResvs pa n).mem = s.mem := rfl
@[simp] theorem State.killResvs_tags (s : State) (pa n : Nat) : (s.killResvs pa n).tags = s.tags := rfl
@[simp] theorem State.killResvs_check (s : State) (pa n : Nat) : (s.killResvs pa n).check = s.check := rfl
@[simp] theorem State.killResvs_hostView (s : State) (pa n : Nat) : (s.killResvs pa n).hostView = s.hostView := rfl
@[simp] theorem State.killResvs_hostBad (s : State) (pa n : Nat) : (s.killResvs pa n).hostBad = s.hostBad := rfl
@[simp] theorem State.killResvs_groups (s : State) (pa n : Nat) : (s.killResvs pa n).groups = s.groups := rfl
@[simp] theorem State.killResvs_cores (s : State) (pa n : Nat) : (s.killResvs pa n).cores = s.cores := rfl
@[simp] theorem State.killResvs_l1s (s : State) (pa n : Nat) : (s.killResvs pa n).l1s = s.l1s := rfl
@[simp] theorem State.killResvs_fused (s : State) (pa n : Nat) : (s.killResvs pa n).fused = s.fused := rfl
@[simp] theorem State.killResvs_slices (s : State) (pa n : Nat) : (s.killResvs pa n).slices = s.slices := rfl
@[simp] theorem State.killResvs_sectors (s : State) (pa n : Nat) : (s.killResvs pa n).sectors = s.sectors := rfl
@[simp] theorem State.killResvs_reqs (s : State) (pa n : Nat) : (s.killResvs pa n).reqs = s.reqs := rfl
@[simp] theorem State.killResvs_tlb (s : State) (pa n : Nat) : (s.killResvs pa n).tlb = s.tlb := rfl
@[simp] theorem State.killResvs_copyCmds (s : State) (pa n : Nat) : (s.killResvs pa n).copyCmds = s.copyCmds := rfl
@[simp] theorem State.killResvs_fabCmds (s : State) (pa n : Nat) : (s.killResvs pa n).fabCmds = s.fabCmds := rfl
@[simp] theorem State.killResvs_collCmds (s : State) (pa n : Nat) : (s.killResvs pa n).collCmds = s.collCmds := rfl
@[simp] theorem State.killResvs_landed (s : State) (pa n : Nat) : (s.killResvs pa n).landed = s.landed := rfl
@[simp] theorem State.killResvs_brought (s : State) (pa n : Nat) : (s.killResvs pa n).brought = s.brought := rfl
@[simp] theorem State.killResvs_aborts (s : State) (pa n : Nat) : (s.killResvs pa n).aborts = s.aborts := rfl
@[simp] theorem State.killResvs_collEnded (s : State) (pa n : Nat) : (s.killResvs pa n).collEnded = s.collEnded := rfl
@[simp] theorem State.killResvs_launches (s : State) (pa n : Nat) : (s.killResvs pa n).launches = s.launches := rfl
@[simp] theorem State.killResvs_chains (s : State) (pa n : Nat) : (s.killResvs pa n).chains = s.chains := rfl
@[simp] theorem State.killResvs_workQueues (s : State) (pa n : Nat) : (s.killResvs pa n).workQueues = s.workQueues := rfl
@[simp] theorem State.killResvs_slots (s : State) (pa n : Nat) : (s.killResvs pa n).slots = s.slots := rfl
@[simp] theorem State.killResvs_pendingQueues (s : State) (pa n : Nat) : (s.killResvs pa n).pendingQueues = s.pendingQueues := rfl
@[simp] theorem State.killResvs_faults (s : State) (pa n : Nat) : (s.killResvs pa n).faults = s.faults := rfl
@[simp] theorem State.killResvs_nextFault (s : State) (pa n : Nat) : (s.killResvs pa n).nextFault = s.nextFault := rfl
@[simp] theorem State.killResvs_driver (s : State) (pa n : Nat) : (s.killResvs pa n).driver = s.driver := rfl
@[simp] theorem State.killResvs_boot (s : State) (pa n : Nat) : (s.killResvs pa n).boot = s.boot := rfl
@[simp] theorem State.killResvs_islands (s : State) (pa n : Nat) : (s.killResvs pa n).islands = s.islands := rfl
@[simp] theorem State.killResvs_routers (s : State) (pa n : Nat) : (s.killResvs pa n).routers = s.routers := rfl
@[simp] theorem State.killResvs_fabricUse (s : State) (pa n : Nat) : (s.killResvs pa n).fabricUse = s.fabricUse := rfl
@[simp] theorem State.killResvs_ports (s : State) (pa n : Nat) : (s.killResvs pa n).ports = s.ports := rfl
@[simp] theorem State.killResvs_partitions (s : State) (pa n : Nat) : (s.killResvs pa n).partitions = s.partitions := rfl
@[simp] theorem State.killResvs_deadStacks (s : State) (pa n : Nat) : (s.killResvs pa n).deadStacks = s.deadStacks := rfl
@[simp] theorem State.killResvs_stackErrors (s : State) (pa n : Nat) : (s.killResvs pa n).stackErrors = s.stackErrors := rfl
@[simp] theorem State.killResvs_linkErrors (s : State) (pa n : Nat) : (s.killResvs pa n).linkErrors = s.linkErrors := rfl
@[simp] theorem State.killResvs_linksDown (s : State) (pa n : Nat) : (s.killResvs pa n).linksDown = s.linksDown := rfl
@[simp] theorem State.killResvs_fabricDown (s : State) (pa n : Nat) : (s.killResvs pa n).fabricDown = s.fabricDown := rfl
@[simp] theorem State.killResvs_hostTime (s : State) (pa n : Nat) : (s.killResvs pa n).hostTime = s.hostTime := rfl
@[simp] theorem State.killResvs_clock (s : State) (pa n : Nat) : (s.killResvs pa n).clock = s.clock := rfl
@[simp] theorem State.killResvs_irqs (s : State) (pa n : Nat) : (s.killResvs pa n).irqs = s.irqs := rfl
@[simp] theorem State.killResvs_hostData (s : State) (pa n : Nat) : (s.killResvs pa n).hostData = s.hostData := rfl
@[simp] theorem State.killResvs_hostPoison (s : State) (pa n : Nat) : (s.killResvs pa n).hostPoison = s.hostPoison := rfl
@[simp] theorem State.killResvs_logged (s : State) (pa n : Nat) : (s.killResvs pa n).logged = s.logged := rfl
@[simp] theorem State.killResvs_apertureErrors (s : State) (pa n : Nat) : (s.killResvs pa n).apertureErrors = s.apertureErrors := rfl
@[simp] theorem State.killResvs_cur (s : State) (pa n : Nat) : (s.killResvs pa n).cur = s.cur := rfl
@[simp] theorem State.killResvs_fresh (s : State) (pa n : Nat) : (s.killResvs pa n).fresh = s.fresh := rfl
@[simp] theorem State.killResvs_free (s : State) (pa n : Nat) : (s.killResvs pa n).free = s.free := rfl
@[simp] theorem State.killResvs_rr (s : State) (pa n : Nat) : (s.killResvs pa n).rr = s.rr := rfl
@[simp] theorem State.killResvs_agenda (s : State) (pa n : Nat) : (s.killResvs pa n).agenda = s.agenda := rfl

/-! ### clearResvs -/

@[simp] theorem State.clearResvs_mem (s : State) (g : Nat) : (s.clearResvs g).mem = s.mem := rfl
@[simp] theorem State.clearResvs_tags (s : State) (g : Nat) : (s.clearResvs g).tags = s.tags := rfl
@[simp] theorem State.clearResvs_check (s : State) (g : Nat) : (s.clearResvs g).check = s.check := rfl
@[simp] theorem State.clearResvs_hostView (s : State) (g : Nat) : (s.clearResvs g).hostView = s.hostView := rfl
@[simp] theorem State.clearResvs_hostBad (s : State) (g : Nat) : (s.clearResvs g).hostBad = s.hostBad := rfl
@[simp] theorem State.clearResvs_groups (s : State) (g : Nat) : (s.clearResvs g).groups = s.groups := rfl
@[simp] theorem State.clearResvs_cores (s : State) (g : Nat) : (s.clearResvs g).cores = s.cores := rfl
@[simp] theorem State.clearResvs_l1s (s : State) (g : Nat) : (s.clearResvs g).l1s = s.l1s := rfl
@[simp] theorem State.clearResvs_fused (s : State) (g : Nat) : (s.clearResvs g).fused = s.fused := rfl
@[simp] theorem State.clearResvs_slices (s : State) (g : Nat) : (s.clearResvs g).slices = s.slices := rfl
@[simp] theorem State.clearResvs_sectors (s : State) (g : Nat) : (s.clearResvs g).sectors = s.sectors := rfl
@[simp] theorem State.clearResvs_reqs (s : State) (g : Nat) : (s.clearResvs g).reqs = s.reqs := rfl
@[simp] theorem State.clearResvs_tlb (s : State) (g : Nat) : (s.clearResvs g).tlb = s.tlb := rfl
@[simp] theorem State.clearResvs_copyCmds (s : State) (g : Nat) : (s.clearResvs g).copyCmds = s.copyCmds := rfl
@[simp] theorem State.clearResvs_fabCmds (s : State) (g : Nat) : (s.clearResvs g).fabCmds = s.fabCmds := rfl
@[simp] theorem State.clearResvs_collCmds (s : State) (g : Nat) : (s.clearResvs g).collCmds = s.collCmds := rfl
@[simp] theorem State.clearResvs_landed (s : State) (g : Nat) : (s.clearResvs g).landed = s.landed := rfl
@[simp] theorem State.clearResvs_brought (s : State) (g : Nat) : (s.clearResvs g).brought = s.brought := rfl
@[simp] theorem State.clearResvs_aborts (s : State) (g : Nat) : (s.clearResvs g).aborts = s.aborts := rfl
@[simp] theorem State.clearResvs_collEnded (s : State) (g : Nat) : (s.clearResvs g).collEnded = s.collEnded := rfl
@[simp] theorem State.clearResvs_launches (s : State) (g : Nat) : (s.clearResvs g).launches = s.launches := rfl
@[simp] theorem State.clearResvs_chains (s : State) (g : Nat) : (s.clearResvs g).chains = s.chains := rfl
@[simp] theorem State.clearResvs_workQueues (s : State) (g : Nat) : (s.clearResvs g).workQueues = s.workQueues := rfl
@[simp] theorem State.clearResvs_slots (s : State) (g : Nat) : (s.clearResvs g).slots = s.slots := rfl
@[simp] theorem State.clearResvs_pendingQueues (s : State) (g : Nat) : (s.clearResvs g).pendingQueues = s.pendingQueues := rfl
@[simp] theorem State.clearResvs_faults (s : State) (g : Nat) : (s.clearResvs g).faults = s.faults := rfl
@[simp] theorem State.clearResvs_nextFault (s : State) (g : Nat) : (s.clearResvs g).nextFault = s.nextFault := rfl
@[simp] theorem State.clearResvs_driver (s : State) (g : Nat) : (s.clearResvs g).driver = s.driver := rfl
@[simp] theorem State.clearResvs_boot (s : State) (g : Nat) : (s.clearResvs g).boot = s.boot := rfl
@[simp] theorem State.clearResvs_islands (s : State) (g : Nat) : (s.clearResvs g).islands = s.islands := rfl
@[simp] theorem State.clearResvs_routers (s : State) (g : Nat) : (s.clearResvs g).routers = s.routers := rfl
@[simp] theorem State.clearResvs_fabricUse (s : State) (g : Nat) : (s.clearResvs g).fabricUse = s.fabricUse := rfl
@[simp] theorem State.clearResvs_ports (s : State) (g : Nat) : (s.clearResvs g).ports = s.ports := rfl
@[simp] theorem State.clearResvs_partitions (s : State) (g : Nat) : (s.clearResvs g).partitions = s.partitions := rfl
@[simp] theorem State.clearResvs_deadStacks (s : State) (g : Nat) : (s.clearResvs g).deadStacks = s.deadStacks := rfl
@[simp] theorem State.clearResvs_stackErrors (s : State) (g : Nat) : (s.clearResvs g).stackErrors = s.stackErrors := rfl
@[simp] theorem State.clearResvs_linkErrors (s : State) (g : Nat) : (s.clearResvs g).linkErrors = s.linkErrors := rfl
@[simp] theorem State.clearResvs_linksDown (s : State) (g : Nat) : (s.clearResvs g).linksDown = s.linksDown := rfl
@[simp] theorem State.clearResvs_fabricDown (s : State) (g : Nat) : (s.clearResvs g).fabricDown = s.fabricDown := rfl
@[simp] theorem State.clearResvs_hostTime (s : State) (g : Nat) : (s.clearResvs g).hostTime = s.hostTime := rfl
@[simp] theorem State.clearResvs_clock (s : State) (g : Nat) : (s.clearResvs g).clock = s.clock := rfl
@[simp] theorem State.clearResvs_irqs (s : State) (g : Nat) : (s.clearResvs g).irqs = s.irqs := rfl
@[simp] theorem State.clearResvs_hostData (s : State) (g : Nat) : (s.clearResvs g).hostData = s.hostData := rfl
@[simp] theorem State.clearResvs_hostPoison (s : State) (g : Nat) : (s.clearResvs g).hostPoison = s.hostPoison := rfl
@[simp] theorem State.clearResvs_logged (s : State) (g : Nat) : (s.clearResvs g).logged = s.logged := rfl
@[simp] theorem State.clearResvs_apertureErrors (s : State) (g : Nat) : (s.clearResvs g).apertureErrors = s.apertureErrors := rfl
@[simp] theorem State.clearResvs_cur (s : State) (g : Nat) : (s.clearResvs g).cur = s.cur := rfl
@[simp] theorem State.clearResvs_fresh (s : State) (g : Nat) : (s.clearResvs g).fresh = s.fresh := rfl
@[simp] theorem State.clearResvs_free (s : State) (g : Nat) : (s.clearResvs g).free = s.free := rfl
@[simp] theorem State.clearResvs_rr (s : State) (g : Nat) : (s.clearResvs g).rr = s.rr := rfl
@[simp] theorem State.clearResvs_agenda (s : State) (g : Nat) : (s.clearResvs g).agenda = s.agenda := rfl

/-! ### clearResv -/

@[simp] theorem State.clearResv_mem (s : State) (g t : Nat) : (s.clearResv g t).mem = s.mem := rfl
@[simp] theorem State.clearResv_tags (s : State) (g t : Nat) : (s.clearResv g t).tags = s.tags := rfl
@[simp] theorem State.clearResv_check (s : State) (g t : Nat) : (s.clearResv g t).check = s.check := rfl
@[simp] theorem State.clearResv_hostView (s : State) (g t : Nat) : (s.clearResv g t).hostView = s.hostView := rfl
@[simp] theorem State.clearResv_hostBad (s : State) (g t : Nat) : (s.clearResv g t).hostBad = s.hostBad := rfl
@[simp] theorem State.clearResv_groups (s : State) (g t : Nat) : (s.clearResv g t).groups = s.groups := rfl
@[simp] theorem State.clearResv_cores (s : State) (g t : Nat) : (s.clearResv g t).cores = s.cores := rfl
@[simp] theorem State.clearResv_l1s (s : State) (g t : Nat) : (s.clearResv g t).l1s = s.l1s := rfl
@[simp] theorem State.clearResv_fused (s : State) (g t : Nat) : (s.clearResv g t).fused = s.fused := rfl
@[simp] theorem State.clearResv_slices (s : State) (g t : Nat) : (s.clearResv g t).slices = s.slices := rfl
@[simp] theorem State.clearResv_sectors (s : State) (g t : Nat) : (s.clearResv g t).sectors = s.sectors := rfl
@[simp] theorem State.clearResv_reqs (s : State) (g t : Nat) : (s.clearResv g t).reqs = s.reqs := rfl
@[simp] theorem State.clearResv_tlb (s : State) (g t : Nat) : (s.clearResv g t).tlb = s.tlb := rfl
@[simp] theorem State.clearResv_copyCmds (s : State) (g t : Nat) : (s.clearResv g t).copyCmds = s.copyCmds := rfl
@[simp] theorem State.clearResv_fabCmds (s : State) (g t : Nat) : (s.clearResv g t).fabCmds = s.fabCmds := rfl
@[simp] theorem State.clearResv_collCmds (s : State) (g t : Nat) : (s.clearResv g t).collCmds = s.collCmds := rfl
@[simp] theorem State.clearResv_landed (s : State) (g t : Nat) : (s.clearResv g t).landed = s.landed := rfl
@[simp] theorem State.clearResv_brought (s : State) (g t : Nat) : (s.clearResv g t).brought = s.brought := rfl
@[simp] theorem State.clearResv_aborts (s : State) (g t : Nat) : (s.clearResv g t).aborts = s.aborts := rfl
@[simp] theorem State.clearResv_collEnded (s : State) (g t : Nat) : (s.clearResv g t).collEnded = s.collEnded := rfl
@[simp] theorem State.clearResv_launches (s : State) (g t : Nat) : (s.clearResv g t).launches = s.launches := rfl
@[simp] theorem State.clearResv_chains (s : State) (g t : Nat) : (s.clearResv g t).chains = s.chains := rfl
@[simp] theorem State.clearResv_workQueues (s : State) (g t : Nat) : (s.clearResv g t).workQueues = s.workQueues := rfl
@[simp] theorem State.clearResv_slots (s : State) (g t : Nat) : (s.clearResv g t).slots = s.slots := rfl
@[simp] theorem State.clearResv_pendingQueues (s : State) (g t : Nat) : (s.clearResv g t).pendingQueues = s.pendingQueues := rfl
@[simp] theorem State.clearResv_faults (s : State) (g t : Nat) : (s.clearResv g t).faults = s.faults := rfl
@[simp] theorem State.clearResv_nextFault (s : State) (g t : Nat) : (s.clearResv g t).nextFault = s.nextFault := rfl
@[simp] theorem State.clearResv_driver (s : State) (g t : Nat) : (s.clearResv g t).driver = s.driver := rfl
@[simp] theorem State.clearResv_boot (s : State) (g t : Nat) : (s.clearResv g t).boot = s.boot := rfl
@[simp] theorem State.clearResv_islands (s : State) (g t : Nat) : (s.clearResv g t).islands = s.islands := rfl
@[simp] theorem State.clearResv_routers (s : State) (g t : Nat) : (s.clearResv g t).routers = s.routers := rfl
@[simp] theorem State.clearResv_fabricUse (s : State) (g t : Nat) : (s.clearResv g t).fabricUse = s.fabricUse := rfl
@[simp] theorem State.clearResv_ports (s : State) (g t : Nat) : (s.clearResv g t).ports = s.ports := rfl
@[simp] theorem State.clearResv_partitions (s : State) (g t : Nat) : (s.clearResv g t).partitions = s.partitions := rfl
@[simp] theorem State.clearResv_deadStacks (s : State) (g t : Nat) : (s.clearResv g t).deadStacks = s.deadStacks := rfl
@[simp] theorem State.clearResv_stackErrors (s : State) (g t : Nat) : (s.clearResv g t).stackErrors = s.stackErrors := rfl
@[simp] theorem State.clearResv_linkErrors (s : State) (g t : Nat) : (s.clearResv g t).linkErrors = s.linkErrors := rfl
@[simp] theorem State.clearResv_linksDown (s : State) (g t : Nat) : (s.clearResv g t).linksDown = s.linksDown := rfl
@[simp] theorem State.clearResv_fabricDown (s : State) (g t : Nat) : (s.clearResv g t).fabricDown = s.fabricDown := rfl
@[simp] theorem State.clearResv_hostTime (s : State) (g t : Nat) : (s.clearResv g t).hostTime = s.hostTime := rfl
@[simp] theorem State.clearResv_clock (s : State) (g t : Nat) : (s.clearResv g t).clock = s.clock := rfl
@[simp] theorem State.clearResv_irqs (s : State) (g t : Nat) : (s.clearResv g t).irqs = s.irqs := rfl
@[simp] theorem State.clearResv_hostData (s : State) (g t : Nat) : (s.clearResv g t).hostData = s.hostData := rfl
@[simp] theorem State.clearResv_hostPoison (s : State) (g t : Nat) : (s.clearResv g t).hostPoison = s.hostPoison := rfl
@[simp] theorem State.clearResv_logged (s : State) (g t : Nat) : (s.clearResv g t).logged = s.logged := rfl
@[simp] theorem State.clearResv_apertureErrors (s : State) (g t : Nat) : (s.clearResv g t).apertureErrors = s.apertureErrors := rfl
@[simp] theorem State.clearResv_cur (s : State) (g t : Nat) : (s.clearResv g t).cur = s.cur := rfl
@[simp] theorem State.clearResv_fresh (s : State) (g t : Nat) : (s.clearResv g t).fresh = s.fresh := rfl
@[simp] theorem State.clearResv_free (s : State) (g t : Nat) : (s.clearResv g t).free = s.free := rfl
@[simp] theorem State.clearResv_rr (s : State) (g t : Nat) : (s.clearResv g t).rr = s.rr := rfl
@[simp] theorem State.clearResv_agenda (s : State) (g t : Nat) : (s.clearResv g t).agenda = s.agenda := rfl

/-! ### Reads after writes -/

@[simp] theorem State.group_setGroup (s : State) (k j : Nat) (x : Group) :
    (s.setGroup k x).group j = if j = k then x else s.group j := by
  simp [State.group, State.setGroup, Table.get_set]
@[simp] theorem State.grp_setGrp (s : State) (x : Group) : (s.setGrp x).grp = x := by
  simp [State.grp, State.setGrp]
@[simp] theorem State.grp_upd (s : State) (f : Group → Group) : (s.upd f).grp = f s.grp := by
  simp [State.upd]
@[simp] theorem State.group_setGrp (s : State) (x : Group) (j : Nat) :
    (s.setGrp x).group j = if j = s.cur then x else s.group j := by
  simp [State.setGrp]
@[simp] theorem State.core_setCore (s : State) (k j : Nat) (x : Core) : (s.setCore k x).core j = if j = k then x else s.core j := by
  simp [State.core, State.setCore, Table.get_set]
@[simp] theorem State.l1_setL1 (s : State) (k j : Nat) (x : L1) : (s.setL1 k x).l1 j = if j = k then x else s.l1 j := by
  simp [State.l1, State.setL1, Table.get_set]
@[simp] theorem State.slice_setSlice (s : State) (k j : Nat) (x : Slice) :
    (s.setSlice k x).slice j = if j = k then x else s.slice j := by
  simp [State.slice, State.setSlice, Table.get_set]
@[simp] theorem State.sector_setSector (s : State) (k j : Nat) (x : Sector) :
    (s.setSector k x).sector j = if j = k then x else s.sector j := by
  simp [State.sector, State.setSector, Table.get_set]
@[simp] theorem State.launch?_setLaunch (s : State) (k j : Nat) (x : Option Launch) :
    (s.setLaunch k x).launch? j = if j = k then x else s.launch? j := by
  simp [State.launch?, State.setLaunch, Table.get_set]
@[simp] theorem State.req?_setReq (s : State) (k j : Nat) (x : Option Req) :
    (s.setReq k x).req? j = if j = k then x else s.req? j := by
  simp [State.req?, State.setReq, Table.get_set]
@[simp] theorem State.byte_setByte (s : State) (pa qa : Nat) (b : Byte) :
    (s.setByte pa b).byte qa = if qa = pa then b else s.byte qa := by
  simp [State.byte, State.setByte, Table.get_set]

/-! ### A second write of a part replaces the first -/

@[simp] theorem State.setGroup_setGroup (s : State) (k : Nat) (x y : Group) : (s.setGroup k x).setGroup k y = s.setGroup k y := by
  simp [State.setGroup]
@[simp] theorem State.setGrp_setGrp (s : State) (x y : Group) : (s.setGrp x).setGrp y = s.setGrp y := by
  simp [State.setGrp]
@[simp] theorem State.upd_setGrp (s : State) (x : Group) (f : Group → Group) : (s.setGrp x).upd f = s.setGrp (f x) := by
  simp [State.upd]
@[simp] theorem State.upd_upd (s : State) (f g : Group → Group) : (s.upd f).upd g = s.upd fun x => g (f x) := by
  simp [State.upd]
@[simp] theorem State.setCore_setCore (s : State) (k : Nat) (x y : Core) : (s.setCore k x).setCore k y = s.setCore k y := by
  simp [State.setCore]
@[simp] theorem State.setL1_setL1 (s : State) (k : Nat) (x y : L1) : (s.setL1 k x).setL1 k y = s.setL1 k y := by
  simp [State.setL1]

/-! ### Reads of a part after a write of another -/

@[simp] theorem State.group_setCore (s : State) (n : Nat) (x : Core) (j : Nat) : (s.setCore n x).group j = s.group j := rfl
@[simp] theorem State.group_setL1 (s : State) (n : Nat) (x : L1) (j : Nat) : (s.setL1 n x).group j = s.group j := rfl
@[simp] theorem State.group_setSlice (s : State) (k : Nat) (x : Slice) (j : Nat) : (s.setSlice k x).group j = s.group j := rfl
@[simp] theorem State.group_setSector (s : State) (h : Nat) (x : Sector) (j : Nat) : (s.setSector h x).group j = s.group j := rfl
@[simp] theorem State.group_setLaunch (s : State) (l : Nat) (x : Option Launch) (j : Nat) : (s.setLaunch l x).group j = s.group j := rfl
@[simp] theorem State.group_setReq (s : State) (r : Nat) (x : Option Req) (j : Nat) : (s.setReq r x).group j = s.group j := rfl
@[simp] theorem State.group_setByte (s : State) (pa : Nat) (b : Byte) (j : Nat) : (s.setByte pa b).group j = s.group j := rfl
@[simp] theorem State.group_setWordTag (s : State) (pa : Nat) (t : Tag) (j : Nat) : (s.setWordTag pa t).group j = s.group j := rfl
@[simp] theorem State.group_recheck (s : State) (pa : Nat) (j : Nat) : (s.recheck pa).group j = s.group j := rfl
@[simp] theorem State.group_killResvs (s : State) (pa n : Nat) (j : Nat) : (s.killResvs pa n).group j = s.group j := rfl
@[simp] theorem State.group_clearResvs (s : State) (g : Nat) (j : Nat) : (s.clearResvs g).group j = s.group j := rfl
@[simp] theorem State.group_clearResv (s : State) (g t : Nat) (j : Nat) : (s.clearResv g t).group j = s.group j := rfl
@[simp] theorem State.grp_setCore (s : State) (n : Nat) (x : Core) : (s.setCore n x).grp = s.grp := rfl
@[simp] theorem State.grp_setL1 (s : State) (n : Nat) (x : L1) : (s.setL1 n x).grp = s.grp := rfl
@[simp] theorem State.grp_setSlice (s : State) (k : Nat) (x : Slice) : (s.setSlice k x).grp = s.grp := rfl
@[simp] theorem State.grp_setSector (s : State) (h : Nat) (x : Sector) : (s.setSector h x).grp = s.grp := rfl
@[simp] theorem State.grp_setLaunch (s : State) (l : Nat) (x : Option Launch) : (s.setLaunch l x).grp = s.grp := rfl
@[simp] theorem State.grp_setReq (s : State) (r : Nat) (x : Option Req) : (s.setReq r x).grp = s.grp := rfl
@[simp] theorem State.grp_setByte (s : State) (pa : Nat) (b : Byte) : (s.setByte pa b).grp = s.grp := rfl
@[simp] theorem State.grp_setWordTag (s : State) (pa : Nat) (t : Tag) : (s.setWordTag pa t).grp = s.grp := rfl
@[simp] theorem State.grp_recheck (s : State) (pa : Nat) : (s.recheck pa).grp = s.grp := rfl
@[simp] theorem State.grp_killResvs (s : State) (pa n : Nat) : (s.killResvs pa n).grp = s.grp := rfl
@[simp] theorem State.grp_clearResvs (s : State) (g : Nat) : (s.clearResvs g).grp = s.grp := rfl
@[simp] theorem State.grp_clearResv (s : State) (g t : Nat) : (s.clearResv g t).grp = s.grp := rfl
@[simp] theorem State.core_setGroup (s : State) (g : Nat) (x : Group) (j : Nat) : (s.setGroup g x).core j = s.core j := rfl
@[simp] theorem State.core_setGrp (s : State) (x : Group) (j : Nat) : (s.setGrp x).core j = s.core j := rfl
@[simp] theorem State.core_upd (s : State) (f : Group → Group) (j : Nat) : (s.upd f).core j = s.core j := rfl
@[simp] theorem State.core_setL1 (s : State) (n : Nat) (x : L1) (j : Nat) : (s.setL1 n x).core j = s.core j := rfl
@[simp] theorem State.core_setSlice (s : State) (k : Nat) (x : Slice) (j : Nat) : (s.setSlice k x).core j = s.core j := rfl
@[simp] theorem State.core_setSector (s : State) (h : Nat) (x : Sector) (j : Nat) : (s.setSector h x).core j = s.core j := rfl
@[simp] theorem State.core_setLaunch (s : State) (l : Nat) (x : Option Launch) (j : Nat) : (s.setLaunch l x).core j = s.core j := rfl
@[simp] theorem State.core_setReq (s : State) (r : Nat) (x : Option Req) (j : Nat) : (s.setReq r x).core j = s.core j := rfl
@[simp] theorem State.core_setByte (s : State) (pa : Nat) (b : Byte) (j : Nat) : (s.setByte pa b).core j = s.core j := rfl
@[simp] theorem State.core_setWordTag (s : State) (pa : Nat) (t : Tag) (j : Nat) : (s.setWordTag pa t).core j = s.core j := rfl
@[simp] theorem State.core_recheck (s : State) (pa : Nat) (j : Nat) : (s.recheck pa).core j = s.core j := rfl
@[simp] theorem State.core_killResvs (s : State) (pa n : Nat) (j : Nat) : (s.killResvs pa n).core j = s.core j := rfl
@[simp] theorem State.core_clearResvs (s : State) (g : Nat) (j : Nat) : (s.clearResvs g).core j = s.core j := rfl
@[simp] theorem State.core_clearResv (s : State) (g t : Nat) (j : Nat) : (s.clearResv g t).core j = s.core j := rfl
@[simp] theorem State.l1_setGroup (s : State) (g : Nat) (x : Group) (j : Nat) : (s.setGroup g x).l1 j = s.l1 j := rfl
@[simp] theorem State.l1_setGrp (s : State) (x : Group) (j : Nat) : (s.setGrp x).l1 j = s.l1 j := rfl
@[simp] theorem State.l1_upd (s : State) (f : Group → Group) (j : Nat) : (s.upd f).l1 j = s.l1 j := rfl
@[simp] theorem State.l1_setCore (s : State) (n : Nat) (x : Core) (j : Nat) : (s.setCore n x).l1 j = s.l1 j := rfl
@[simp] theorem State.l1_setSlice (s : State) (k : Nat) (x : Slice) (j : Nat) : (s.setSlice k x).l1 j = s.l1 j := rfl
@[simp] theorem State.l1_setSector (s : State) (h : Nat) (x : Sector) (j : Nat) : (s.setSector h x).l1 j = s.l1 j := rfl
@[simp] theorem State.l1_setLaunch (s : State) (l : Nat) (x : Option Launch) (j : Nat) : (s.setLaunch l x).l1 j = s.l1 j := rfl
@[simp] theorem State.l1_setReq (s : State) (r : Nat) (x : Option Req) (j : Nat) : (s.setReq r x).l1 j = s.l1 j := rfl
@[simp] theorem State.l1_setByte (s : State) (pa : Nat) (b : Byte) (j : Nat) : (s.setByte pa b).l1 j = s.l1 j := rfl
@[simp] theorem State.l1_setWordTag (s : State) (pa : Nat) (t : Tag) (j : Nat) : (s.setWordTag pa t).l1 j = s.l1 j := rfl
@[simp] theorem State.l1_recheck (s : State) (pa : Nat) (j : Nat) : (s.recheck pa).l1 j = s.l1 j := rfl
@[simp] theorem State.l1_killResvs (s : State) (pa n : Nat) (j : Nat) : (s.killResvs pa n).l1 j = s.l1 j := rfl
@[simp] theorem State.l1_clearResvs (s : State) (g : Nat) (j : Nat) : (s.clearResvs g).l1 j = s.l1 j := rfl
@[simp] theorem State.l1_clearResv (s : State) (g t : Nat) (j : Nat) : (s.clearResv g t).l1 j = s.l1 j := rfl
@[simp] theorem State.byte_setGroup (s : State) (g : Nat) (x : Group) (j : Nat) : (s.setGroup g x).byte j = s.byte j := rfl
@[simp] theorem State.byte_setGrp (s : State) (x : Group) (j : Nat) : (s.setGrp x).byte j = s.byte j := rfl
@[simp] theorem State.byte_upd (s : State) (f : Group → Group) (j : Nat) : (s.upd f).byte j = s.byte j := rfl
@[simp] theorem State.byte_setCore (s : State) (n : Nat) (x : Core) (j : Nat) : (s.setCore n x).byte j = s.byte j := rfl
@[simp] theorem State.byte_setL1 (s : State) (n : Nat) (x : L1) (j : Nat) : (s.setL1 n x).byte j = s.byte j := rfl
@[simp] theorem State.byte_setSlice (s : State) (k : Nat) (x : Slice) (j : Nat) : (s.setSlice k x).byte j = s.byte j := rfl
@[simp] theorem State.byte_setSector (s : State) (h : Nat) (x : Sector) (j : Nat) : (s.setSector h x).byte j = s.byte j := rfl
@[simp] theorem State.byte_setLaunch (s : State) (l : Nat) (x : Option Launch) (j : Nat) : (s.setLaunch l x).byte j = s.byte j := rfl
@[simp] theorem State.byte_setReq (s : State) (r : Nat) (x : Option Req) (j : Nat) : (s.setReq r x).byte j = s.byte j := rfl
@[simp] theorem State.byte_recheck (s : State) (pa : Nat) (j : Nat) : (s.recheck pa).byte j = s.byte j := rfl
@[simp] theorem State.byte_killResvs (s : State) (pa n : Nat) (j : Nat) : (s.killResvs pa n).byte j = s.byte j := rfl
@[simp] theorem State.byte_clearResvs (s : State) (g : Nat) (j : Nat) : (s.clearResvs g).byte j = s.byte j := rfl
@[simp] theorem State.byte_clearResv (s : State) (g t : Nat) (j : Nat) : (s.clearResv g t).byte j = s.byte j := rfl
@[simp] theorem State.launch?_setGroup (s : State) (g : Nat) (x : Group) (j : Nat) : (s.setGroup g x).launch? j = s.launch? j := rfl
@[simp] theorem State.launch?_setGrp (s : State) (x : Group) (j : Nat) : (s.setGrp x).launch? j = s.launch? j := rfl
@[simp] theorem State.launch?_upd (s : State) (f : Group → Group) (j : Nat) : (s.upd f).launch? j = s.launch? j := rfl
@[simp] theorem State.launch?_setCore (s : State) (n : Nat) (x : Core) (j : Nat) : (s.setCore n x).launch? j = s.launch? j := rfl
@[simp] theorem State.launch?_setL1 (s : State) (n : Nat) (x : L1) (j : Nat) : (s.setL1 n x).launch? j = s.launch? j := rfl
@[simp] theorem State.launch?_setSlice (s : State) (k : Nat) (x : Slice) (j : Nat) : (s.setSlice k x).launch? j = s.launch? j := rfl
@[simp] theorem State.launch?_setSector (s : State) (h : Nat) (x : Sector) (j : Nat) : (s.setSector h x).launch? j = s.launch? j := rfl
@[simp] theorem State.launch?_setReq (s : State) (r : Nat) (x : Option Req) (j : Nat) : (s.setReq r x).launch? j = s.launch? j := rfl
@[simp] theorem State.launch?_setByte (s : State) (pa : Nat) (b : Byte) (j : Nat) : (s.setByte pa b).launch? j = s.launch? j := rfl
@[simp] theorem State.launch?_setWordTag (s : State) (pa : Nat) (t : Tag) (j : Nat) : (s.setWordTag pa t).launch? j = s.launch? j := rfl
@[simp] theorem State.launch?_recheck (s : State) (pa : Nat) (j : Nat) : (s.recheck pa).launch? j = s.launch? j := rfl
@[simp] theorem State.launch?_killResvs (s : State) (pa n : Nat) (j : Nat) : (s.killResvs pa n).launch? j = s.launch? j := rfl
@[simp] theorem State.launch?_clearResvs (s : State) (g : Nat) (j : Nat) : (s.clearResvs g).launch? j = s.launch? j := rfl
@[simp] theorem State.launch?_clearResv (s : State) (g t : Nat) (j : Nat) : (s.clearResv g t).launch? j = s.launch? j := rfl
@[simp] theorem State.slice_setGroup (s : State) (g : Nat) (x : Group) (j : Nat) : (s.setGroup g x).slice j = s.slice j := rfl
@[simp] theorem State.slice_setGrp (s : State) (x : Group) (j : Nat) : (s.setGrp x).slice j = s.slice j := rfl
@[simp] theorem State.slice_upd (s : State) (f : Group → Group) (j : Nat) : (s.upd f).slice j = s.slice j := rfl
@[simp] theorem State.slice_setCore (s : State) (n : Nat) (x : Core) (j : Nat) : (s.setCore n x).slice j = s.slice j := rfl
@[simp] theorem State.slice_setL1 (s : State) (n : Nat) (x : L1) (j : Nat) : (s.setL1 n x).slice j = s.slice j := rfl
@[simp] theorem State.slice_setSector (s : State) (h : Nat) (x : Sector) (j : Nat) : (s.setSector h x).slice j = s.slice j := rfl
@[simp] theorem State.slice_setLaunch (s : State) (l : Nat) (x : Option Launch) (j : Nat) : (s.setLaunch l x).slice j = s.slice j := rfl
@[simp] theorem State.slice_setReq (s : State) (r : Nat) (x : Option Req) (j : Nat) : (s.setReq r x).slice j = s.slice j := rfl
@[simp] theorem State.slice_setByte (s : State) (pa : Nat) (b : Byte) (j : Nat) : (s.setByte pa b).slice j = s.slice j := rfl
@[simp] theorem State.slice_setWordTag (s : State) (pa : Nat) (t : Tag) (j : Nat) : (s.setWordTag pa t).slice j = s.slice j := rfl
@[simp] theorem State.slice_recheck (s : State) (pa : Nat) (j : Nat) : (s.recheck pa).slice j = s.slice j := rfl
@[simp] theorem State.slice_killResvs (s : State) (pa n : Nat) (j : Nat) : (s.killResvs pa n).slice j = s.slice j := rfl
@[simp] theorem State.slice_clearResvs (s : State) (g : Nat) (j : Nat) : (s.clearResvs g).slice j = s.slice j := rfl
@[simp] theorem State.slice_clearResv (s : State) (g t : Nat) (j : Nat) : (s.clearResv g t).slice j = s.slice j := rfl
@[simp] theorem State.sector_setGroup (s : State) (g : Nat) (x : Group) (j : Nat) : (s.setGroup g x).sector j = s.sector j := rfl
@[simp] theorem State.sector_setGrp (s : State) (x : Group) (j : Nat) : (s.setGrp x).sector j = s.sector j := rfl
@[simp] theorem State.sector_upd (s : State) (f : Group → Group) (j : Nat) : (s.upd f).sector j = s.sector j := rfl
@[simp] theorem State.sector_setCore (s : State) (n : Nat) (x : Core) (j : Nat) : (s.setCore n x).sector j = s.sector j := rfl
@[simp] theorem State.sector_setL1 (s : State) (n : Nat) (x : L1) (j : Nat) : (s.setL1 n x).sector j = s.sector j := rfl
@[simp] theorem State.sector_setSlice (s : State) (k : Nat) (x : Slice) (j : Nat) : (s.setSlice k x).sector j = s.sector j := rfl
@[simp] theorem State.sector_setLaunch (s : State) (l : Nat) (x : Option Launch) (j : Nat) : (s.setLaunch l x).sector j = s.sector j := rfl
@[simp] theorem State.sector_setReq (s : State) (r : Nat) (x : Option Req) (j : Nat) : (s.setReq r x).sector j = s.sector j := rfl
@[simp] theorem State.sector_setByte (s : State) (pa : Nat) (b : Byte) (j : Nat) : (s.setByte pa b).sector j = s.sector j := rfl
@[simp] theorem State.sector_setWordTag (s : State) (pa : Nat) (t : Tag) (j : Nat) : (s.setWordTag pa t).sector j = s.sector j := rfl
@[simp] theorem State.sector_recheck (s : State) (pa : Nat) (j : Nat) : (s.recheck pa).sector j = s.sector j := rfl
@[simp] theorem State.sector_killResvs (s : State) (pa n : Nat) (j : Nat) : (s.killResvs pa n).sector j = s.sector j := rfl
@[simp] theorem State.sector_clearResvs (s : State) (g : Nat) (j : Nat) : (s.clearResvs g).sector j = s.sector j := rfl
@[simp] theorem State.sector_clearResv (s : State) (g t : Nat) (j : Nat) : (s.clearResv g t).sector j = s.sector j := rfl
@[simp] theorem State.req?_setGroup (s : State) (g : Nat) (x : Group) (j : Nat) : (s.setGroup g x).req? j = s.req? j := rfl
@[simp] theorem State.req?_setGrp (s : State) (x : Group) (j : Nat) : (s.setGrp x).req? j = s.req? j := rfl
@[simp] theorem State.req?_upd (s : State) (f : Group → Group) (j : Nat) : (s.upd f).req? j = s.req? j := rfl
@[simp] theorem State.req?_setCore (s : State) (n : Nat) (x : Core) (j : Nat) : (s.setCore n x).req? j = s.req? j := rfl
@[simp] theorem State.req?_setL1 (s : State) (n : Nat) (x : L1) (j : Nat) : (s.setL1 n x).req? j = s.req? j := rfl
@[simp] theorem State.req?_setSlice (s : State) (k : Nat) (x : Slice) (j : Nat) : (s.setSlice k x).req? j = s.req? j := rfl
@[simp] theorem State.req?_setSector (s : State) (h : Nat) (x : Sector) (j : Nat) : (s.setSector h x).req? j = s.req? j := rfl
@[simp] theorem State.req?_setLaunch (s : State) (l : Nat) (x : Option Launch) (j : Nat) : (s.setLaunch l x).req? j = s.req? j := rfl
@[simp] theorem State.req?_setByte (s : State) (pa : Nat) (b : Byte) (j : Nat) : (s.setByte pa b).req? j = s.req? j := rfl
@[simp] theorem State.req?_setWordTag (s : State) (pa : Nat) (t : Tag) (j : Nat) : (s.setWordTag pa t).req? j = s.req? j := rfl
@[simp] theorem State.req?_recheck (s : State) (pa : Nat) (j : Nat) : (s.recheck pa).req? j = s.req? j := rfl
@[simp] theorem State.req?_killResvs (s : State) (pa n : Nat) (j : Nat) : (s.killResvs pa n).req? j = s.req? j := rfl
@[simp] theorem State.req?_clearResvs (s : State) (g : Nat) (j : Nat) : (s.clearResvs g).req? j = s.req? j := rfl
@[simp] theorem State.req?_clearResv (s : State) (g t : Nat) (j : Nat) : (s.clearResv g t).req? j = s.req? j := rfl

end Sys2Proof.Machine
end

