-- ==== Sys2Proof/Laws/Ops.lean ====
section
/-!
SUPPORT. Laws of the shared operations of the scalar stream: registers, the PC, waits, guard slots, the issue of an instruction.
-/
set_option Elab.async false

namespace Sys2Proof.Machine

/-! ### Scalar registers -/

/-- A read after a write: s0 reads zero and takes no write (R27). -/
theorem Group.rdS_wrS (g : Group) (r q : Nat) (v : Word) : (g.wrS r v).rdS q = if q = r ∧ q ≠ 0 then v else g.rdS q := by
  by_cases hq : q = 0
  · simp [Group.rdS, hq]
  by_cases hr : r = 0
  · have hqr : q ≠ r := by omega
    simp [Group.wrS, hr]
  rcases hh : g.handler with _ | h
  · simp [Group.wrS, Group.rdS, hr, hq, hh, Table.get_set]
  · by_cases h48 : 48 ≤ r
    · by_cases hq48 : 48 ≤ q
      · simp [Group.wrS, Group.rdS, hr, hq, hh, h48, hq48, Table.get_set]
      · have : q ≠ r := by omega
        simp [Group.wrS, Group.rdS, hr, hq, hh, h48, hq48, this]
    · by_cases hq48 : 48 ≤ q
      · have : q ≠ r := by omega
        simp [Group.wrS, Group.rdS, hr, hq, hh, h48, hq48, this]
      · simp [Group.wrS, Group.rdS, hr, hq, hh, h48, hq48, Table.get_set]

@[simp] theorem Group.wrS_pc (g : Group) (r : Nat) (v : Word) : (g.wrS r v).pc = g.pc := by
  unfold Group.wrS; (repeat' split) <;> rfl
@[simp] theorem Group.wrPair_pc (g : Group) (r : Nat) (v : Dword) : (g.wrPair r v).pc = g.pc := by
  simp [Group.wrPair]
@[simp] theorem Group.rdS_advance (g : Group) (r : Nat) : g.advance.rdS r = g.rdS r := rfl
@[simp] theorem Group.rdS_goto (g : Group) (pc : Dword) (r : Nat) : (g.goto pc).rdS r = g.rdS r := rfl
@[simp] theorem Group.pc_advance (g : Group) : g.advance.pc = g.nextPc := rfl
@[simp] theorem Group.pc_goto (g : Group) (pc : Dword) : (g.goto pc).pc = pc := rfl

/-- A pair write: the low half is discarded on s0 (R28). -/
theorem Group.rdS_wrPair (g : Group) (r q : Nat) (v : Dword) :
    (g.wrPair r v).rdS q = if q = r + 1 then hiHalf v else if q = r ∧ q ≠ 0 then loHalf v else g.rdS q := by
  unfold Group.wrPair
  rw [Group.rdS_wrS, Group.rdS_wrS]
  by_cases h : q = r + 1 <;> simp [h]

/-- What a scalar register write leaves alone. -/
theorem Group.wrS_frame (g : Group) (r : Nat) (v : Word) : ScalarFrame g (g.wrS r v) := by
  unfold Group.wrS ScalarFrame
  split
  · exact ⟨rfl, rfl⟩
  · split
    · next h hh => split <;> exact ⟨rfl, by simp [hh]⟩
    · next hh => exact ⟨rfl, by simp [hh]⟩

theorem ScalarFrame.trans {a b c : Group} (h : ScalarFrame a b) (h' : ScalarFrame b c) : ScalarFrame a c := by
  obtain ⟨h1, h2⟩ := h
  obtain ⟨h3, h4⟩ := h'
  refine ⟨?_, h4.trans h2⟩
  have e := congrArg (fun z : Group => { z with
    scalars := a.scalars, handler := a.handler, pc := a.pc, waitS := a.waitS, work := a.work }) h3
  exact e.trans h1

theorem Group.advance_frame (g : Group) : ScalarFrame g g.advance := ⟨rfl, rfl⟩
theorem Group.goto_frame (g : Group) (pc : Dword) : ScalarFrame g (g.goto pc) := ⟨rfl, rfl⟩

/-! ### Updates of the executing group -/

theorem State.onlyGroup_upd (s : State) (f : Group → Group) : OnlyGroup s (s.upd f) := by
  unfold OnlyGroup; simp [State.upd]
theorem State.onlyGroup_setGrp (s : State) (x : Group) : OnlyGroup s (s.setGrp x) := by
  unfold OnlyGroup; simp
theorem State.sameMemory_upd (s : State) (f : Group → Group) : SameMemory s (s.upd f) := ⟨rfl, rfl, rfl⟩
theorem State.sameMemory_setGrp (s : State) (x : Group) : SameMemory s (s.setGrp x) := ⟨rfl, rfl, rfl⟩

/-! ### Issue -/

theorem issueScalar_legal {i : Instr} {s : State} (h : s.scalarLegal i = true) (body : State → Res) :
    issueScalar i s body = finishScalar (body s) := by simp [issueScalar, h]
theorem issueScalar_illegal {i : Instr} {s : State} (h : s.scalarLegal i = false) (body : State → Res) :
    issueScalar i s body = .next (s.trapScalar cILLOP (opcodeInfo i)) := by simp [issueScalar, h]
/-- Without a feature of its own an instruction is legal exactly when its encoding is. -/
theorem scalarLegal_of {i : Instr} {s : State} (h : featureScalar i = none) : s.scalarLegal i = i.wf := by
  simp [State.scalarLegal, h]

/-! ### Guard slots (R72, R73) -/

theorem Group.guard_resolve (g : Group) (k j : Slot) (v : Bool) (hk : k ≠ 0) :
    (g.resolve k v).guard j = if j = k then .resolved v else g.guard j := by
  unfold Group.resolve Group.guard
  by_cases hj : j = 0
  · simp only [hj, if_true]
    rw [if_neg (fun h => hk h.symm)]
  · by_cases h : j = k
    · subst h; simp only [if_neg hk, if_true, Table.get_set_self]
    · have : j.toNat ≠ k.toNat := fun e => h (BitVec.eq_of_toNat_eq e)
      simp [h, this, Table.get_set]

end Sys2Proof.Machine
end

