-- ==== Sys2Proof/Laws/Lane.lean ====
section
/-!
SUPPORT. Laws of the issue of lane instructions: an instruction that passes its checks has its effect, and what its results
change.
-/
set_option Elab.async false

namespace Sys2Proof.Machine

/-- A lane instruction that passes its checks has its effect. -/
theorem issueLane_ok {i : Instr} {slots : State → Nat} {s : State} {body : State → Res} (h : s.Issues i) :
    issueLane i slots s body = finishLane (slots s) (body s) := by
  obtain ⟨h1, h2⟩ := h
  simp only [issueLane, h1, h2]

/-- One that does not is ILLOP (R62). -/
theorem issueLane_illegal {i : Instr} {slots : State → Nat} {s : State} {body : State → Res} {info : Dword}
    (h : s.laneIllegal i = some info) : issueLane i slots s body = .next (s.trapLane cILLOP info) := by
  simp only [issueLane, h]

/-- A register-only instruction writes its results and its fragment passes. -/
theorem aluLane_ok {i : Instr} {w : LaneOps} {s : State} {f : State → Nat → Out} (h : s.Issues i) (hc : s.Clean w i) :
    aluLane i w s f = .next (s.wrote w (f s)) := by
  have hc' : s.firstPoison (s.active w) i.sources = none := hc
  unfold aluLane
  rw [issueLane_ok h]
  simp only [hc', finishLane]
  rfl

/-- A cross-lane instruction has its effect on the active threads. -/
theorem crossLane_ok {i : Instr} {w : LaneOps} {s : State} {f : State → List Nat → State} (h : s.Issues i) (hc : s.Clean w i) :
    crossLane i w s f = .next ((f s (s.active w)).passLane (laneSlots w s)) := by
  have hc' : s.firstPoison (s.active w) i.sources = none := hc
  unfold crossLane
  rw [issueLane_ok h]
  simp only [hc', finishLane]

end Sys2Proof.Machine
end

