-- ==== Sys2Proof/Laws/Memory.lean ====
section
/-!
SUPPORT. Memory: what a write changes and leaves, and that every operation that writes bytes or tags keeps the canonical form.
-/
set_option Elab.async false

namespace Sys2Proof.Machine

/-! ### Reads after writes -/

@[simp] theorem byte_setByte (s : State) (pa a : Nat) (b : Byte) :
    (s.setByte pa b).byte a = if a = pa then b else s.byte a := by
  simp [State.byte, State.setByte, Table.get_set]

@[simp] theorem wordTag_setWordTag (s : State) (pa a : Nat) (t : Tag) :
    (s.setWordTag pa t).wordTag a = if a / 8 = pa / 8 then t else s.wordTag a := by
  simp [State.wordTag, State.setWordTag, State.setTagOf, State.backTag, Table.get_set]

@[simp] theorem byte_recheck (s : State) (pa a : Nat) : (s.recheck pa).byte a = s.byte a := rfl
@[simp] theorem byte_killResvs (s : State) (pa n a : Nat) : (s.killResvs pa n).byte a = s.byte a := rfl

/-- A tag written changes no byte but one of the tag-backing area, where the word lies in host memory. -/
theorem byte_setTagOf (s : State) (k a : Nat) (t : Tag) (h : 8 * k < hostBit ∨ a ≠ s.tagByte (k - hostBit / 8)) :
    (s.setTagOf k t).byte a = s.byte a := by
  unfold State.setTagOf State.byte State.backTag
  dsimp only
  split
  · rename_i hc
    have : hostBit ≤ 8 * k := by simpa using (Bool.and_eq_true _ _ |>.mp hc).2
    rw [Table.get_set, if_neg (h.resolve_left (by omega))]
  · rfl

/-- Bytes set one after the other, as `writeMem` and `pokeBytes` do. -/
def setBytes (s : State) (pa : Nat) (bs : List Byte) : State :=
  (bs.foldl (fun (p : State × Nat) b => (p.1.setByte p.2 b, p.2 + 1)) (s, pa)).1

theorem setBytes_nil (s : State) (pa : Nat) : setBytes s pa [] = s := rfl
theorem setBytes_cons (s : State) (pa : Nat) (b : Byte) (bs : List Byte) :
    setBytes s pa (b :: bs) = setBytes (s.setByte pa b) (pa + 1) bs := rfl

/-- What bytes set one after the other read as. -/
theorem byte_setBytes (bs : List Byte) : ∀ (s : State) (pa a : Nat),
    (setBytes s pa bs).byte a = if pa ≤ a ∧ a < pa + bs.length then bs.getD (a - pa) 0 else s.byte a := by
  induction bs with
  | nil => intro s pa a; simp [setBytes_nil] <;> omega
  | cons b bs ih =>
    intro s pa a
    rw [setBytes_cons, ih, byte_setByte]
    by_cases h1 : a = pa
    · subst h1; rw [if_neg (by omega), if_pos (by simp)]; simp
    · by_cases h2 : pa + 1 ≤ a ∧ a < pa + 1 + bs.length
      · have h3 : pa ≤ a ∧ a < pa + (b :: bs).length := by simp; omega
        have h4 : a - pa = (a - (pa + 1)) + 1 := by omega
        rw [if_pos h2, if_pos h3, h4]; simp
      · have h3 : ¬(pa ≤ a ∧ a < pa + (b :: bs).length) := by simp at h2 ⊢; omega
        rw [if_neg h2, if_neg h3, if_neg h1]

theorem writeMem_eq (s : State) (pa : Nat) (bs : List Byte) :
    s.writeMem pa bs = (setBytes (s.killResvs pa bs.length) pa bs).recheckAll pa bs.length := rfl

/-- A fold of rechecks changes no byte and no tag. -/
theorem recheck_foldl (pa : Nat) : ∀ (xs : List Nat) (s : State),
    (xs.foldl (fun s i => s.recheck (pa + 64 * i)) s).mem = s.mem ∧ (xs.foldl (fun s i => s.recheck (pa + 64 * i)) s).tags = s.tags
  | [], _ => ⟨rfl, rfl⟩
  | x :: xs, s => recheck_foldl pa xs (s.recheck (pa + 64 * x))

@[simp] theorem mem_recheckAll (s : State) (pa n : Nat) : (s.recheckAll pa n).mem = s.mem := (recheck_foldl pa _ s).1
@[simp] theorem tags_recheckAll (s : State) (pa n : Nat) : (s.recheckAll pa n).tags = s.tags := (recheck_foldl pa _ s).2
@[simp] theorem byte_recheckAll (s : State) (pa n a : Nat) : (s.recheckAll pa n).byte a = s.byte a := by
  simp [State.byte]

theorem pokeBytes_eq (s : State) (pa : Nat) (bs : List Byte) : s.pokeBytes pa bs = setBytes s pa bs := rfl

/-- What a write at the home changes. -/
theorem byte_writeMem (s : State) (pa a : Nat) (bs : List Byte) :
    (s.writeMem pa bs).byte a = if pa ≤ a ∧ a < pa + bs.length then bs.getD (a - pa) 0 else s.byte a := by
  rw [writeMem_eq, byte_recheckAll, byte_setBytes]; rfl

/-! ### The canonical form is kept -/

/-- The form rests on the bytes and the tags alone. -/
theorem State.MemoryOk.of_same {s t : State} (h : s.MemoryOk) (hm : t.mem = s.mem) (ht : t.tags = s.tags) : t.MemoryOk := by
  unfold State.MemoryOk; rw [hm, ht]; exact h

theorem State.MemoryOk.reset : State.reset.MemoryOk := by unfold State.MemoryOk Memory.wf; decide

theorem State.MemoryOk.setByte {s : State} (h : s.MemoryOk) (pa : Nat) (b : Byte) : (s.setByte pa b).MemoryOk :=
  ⟨Table.wf_set _ _ _ h.1, h.2⟩

theorem State.MemoryOk.setTagOf {s : State} (h : s.MemoryOk) (k : Nat) (t : Tag) : (s.setTagOf k t).MemoryOk := by
  refine ⟨?_, Table.wf_set _ _ _ h.2⟩
  show Memory.wf (s.backTag k t).mem
  unfold State.backTag
  dsimp only
  split
  · exact Table.wf_set _ _ _ h.1
  · exact h.1

theorem State.MemoryOk.setWordTag {s : State} (h : s.MemoryOk) (pa : Nat) (t : Tag) : (s.setWordTag pa t).MemoryOk :=
  h.setTagOf (pa / 8) t

theorem State.MemoryOk.recheck {s : State} (h : s.MemoryOk) (pa : Nat) : (s.recheck pa).MemoryOk := h
theorem State.MemoryOk.killResvs {s : State} (h : s.MemoryOk) (pa n : Nat) : (s.killResvs pa n).MemoryOk := h

/-- A fold keeps what each of its steps keeps. -/
theorem State.MemoryOk.foldl {α : Type} {f : State → α → State} (hf : ∀ s a, s.MemoryOk → (f s a).MemoryOk) :
    ∀ (xs : List α) (s : State), s.MemoryOk → (xs.foldl f s).MemoryOk
  | [], _, h => h
  | x :: xs, s, h => State.MemoryOk.foldl hf xs (f s x) (hf s x h)

theorem State.MemoryOk.setBytes {bs : List Byte} : ∀ {s : State} (_ : s.MemoryOk) (pa : Nat), (setBytes s pa bs).MemoryOk := by
  induction bs with
  | nil => intro s h _; exact h
  | cons b bs ih => intro s h pa; exact ih (h.setByte pa b) (pa + 1)

theorem State.MemoryOk.writeMem {s : State} (h : s.MemoryOk) (pa : Nat) (bs : List Byte) : (s.writeMem pa bs).MemoryOk :=
  (State.MemoryOk.setBytes (s := s.killResvs pa bs.length) h pa).of_same (mem_recheckAll _ _ _) (tags_recheckAll _ _ _)

theorem State.MemoryOk.deviceWrite {s : State} (h : s.MemoryOk) (pa : Nat) (bs : List Byte) : (s.deviceWrite pa bs).MemoryOk := by
  unfold State.deviceWrite
  split
  · exact h
  · exact h.writeMem pa bs

theorem State.MemoryOk.hideFromHost {s : State} (h : s.MemoryOk) (pa n : Nat) : (s.hideFromHost pa n).MemoryOk := by
  unfold State.hideFromHost
  split <;> exact h

theorem State.MemoryOk.pokeBytes {s : State} (h : s.MemoryOk) (pa : Nat) (bs : List Byte) : (s.pokeBytes pa bs).MemoryOk :=
  State.MemoryOk.setBytes h pa

theorem State.MemoryOk.mergeHome {s : State} (h : s.MemoryOk) (line : Nat) (data : BitVec 1024) (mask : BitVec 128) (tags : BitVec 64)
    (tagMask : BitVec 16) : (s.mergeHome line data mask tags tagMask).MemoryOk := by
  have h1 := State.MemoryOk.foldl (f := fun (s : State) i =>
    if mask.getLsbD i then
      (s.hideFromHost (128 * line + i) 1).setByte (128 * line + i) (BitVec.ofNat 8 (data.toNat / 2 ^ (8 * i)))
    else s)
    (fun s i hs => by
      split
      · exact (hs.hideFromHost _ _).setByte _ _
      · exact hs) (List.range 128) s h
  have h2 := State.MemoryOk.foldl (f := fun (s : State) i =>
    if tagMask.getLsbD i then s.setTagOf (16 * line + i) (BitVec.ofNat 4 (tags.toNat / 2 ^ (4 * i))) else s)
    (fun s i hs => by
      split
      · exact hs.setTagOf _ _
      · exact hs) (List.range 16) _ h1
  unfold State.mergeHome
  split <;> split <;> split <;> exact h2

/-- Tags of a range of bytes set. -/
theorem State.MemoryOk.setTagsOf {s : State} (h : s.MemoryOk) (pa n : Nat) (t : Tag) : (s.setTagsOf pa n t).MemoryOk :=
  State.MemoryOk.foldl (f := fun (s : State) i => s.setTagOf (pa / 8 + i) t) (fun _ _ hs => hs.setTagOf _ _) _ s h

theorem State.MemoryOk.poisonHome {s : State} (h : s.MemoryOk) (block : Nat) : (s.poisonHome block).MemoryOk :=
  h.setTagsOf (64 * block) 64 tagPOI

/-- A change behind a check value is as sound as the change. -/
theorem State.MemoryOk.behindCheck {s : State} (h : s.MemoryOk) (block : Nat) (f : State → State)
    (hf : s.MemoryOk → (f s).MemoryOk) : (s.behindCheck block f).MemoryOk := hf h

/-- A start keeps host memory alone, in the same form. -/
theorem State.MemoryOk.restart {s : State} (h : s.MemoryOk) : s.restart.MemoryOk :=
  ⟨Table.wf_filter _ _ h.1, rfl⟩

end Sys2Proof.Machine
end

