-- ==== Sys2Proof/Laws/PerInstr.lean ====
section
/-!
SUPPORT. The round trip of every instruction, per constructor: the decoder reads from the encoder's bytes the instruction
they were made from. An event has no words.
-/
set_option Elab.async false

namespace Sys2Proof.Laws.Encoding

/-- A well-formed instruction is what the decoder reads from its own bytes. -/
def Statement (i : Instr) : Prop :=
  i.wf = true → ∀ bytes, encode i = some bytes → decodeBytes i.isLane bytes = .ok i

/-- From the taking apart of a scalar word to its round trip. -/
theorem of_scalar {i : Instr} {w : Word} (he : encodeScalar i = some w) (hl : encodeLane i = none)
    (hu : unpackScalar w = some i) : Statement i := by
  intro hwf bytes hb
  have hb' : leBytes 4 w.toNat = bytes := by simpa [encode, he] using hb
  subst hb'
  have : i.isLane = false := by simp [Instr.isLane, hl]
  rw [this, decodeBytes_scalar, decodeScalar, hu]
  simp [checked, hwf]

/-- From the taking apart of a lane word to its round trip. -/
theorem of_lane {i : Instr} {w : BitVec 96} (he : encodeScalar i = none) (hl : encodeLane i = some w)
    (hu : i.wf = true → unpackLaneWord w = some i) : Statement i := by
  intro hwf bytes hb
  have hb' : leBytes 12 w.toNat = bytes := by simpa [encode, he, hl] using hb
  subst hb'
  have : i.isLane = true := by simp [Instr.isLane, hl]
  rw [this, decodeBytes_lane, decodeLane, hu hwf]
  simp [checked, hwf]

/-- An event has no words. -/
theorem of_event {i : Instr} (he : encodeScalar i = none) (hl : encodeLane i = none) : Statement i := by
  intro _ bytes hb
  simp [encode, he, hl] at hb

theorem sadd (sd : SReg) (sa : SReg) (sb : SReg) : Statement (.sadd sd sa sb) := by
  refine of_scalar rfl rfl ?_
  have := sd.isLt; have := sa.isLt; have := sb.isLt
  obtain ⟨x, hx⟩ : ∃ x, x = BitVec.ofNat 32 (0x00000000 + sd.toNat * 262144 + sa.toNat * 4096 + sb.toNat * 64) := ⟨_, rfl⟩
  have hop : x.toNat / 2 ^ 24 = 0x00 := by rw [hx, BitVec.toNat_ofNat]; omega
  rw [← hx]; unfold unpackScalar; rw [hop]
  change (if has x 0 6 0 then some (.sadd (fld x 18 6) (fld x 12 6) (fld x 6 6)) else none : Option Instr) = _
  rw [if_pos]
  · rw [hx, fld_eq sd _ _ (by omega), fld_eq sa _ _ (by omega), fld_eq sb _ _ (by omega)]
  · subst hx; simp [has] <;> omega

theorem ssub (sd : SReg) (sa : SReg) (sb : SReg) : Statement (.ssub sd sa sb) := by
  refine of_scalar rfl rfl ?_
  have := sd.isLt; have := sa.isLt; have := sb.isLt
  obtain ⟨x, hx⟩ : ∃ x, x = BitVec.ofNat 32 (0x01000000 + sd.toNat * 262144 + sa.toNat * 4096 + sb.toNat * 64) := ⟨_, rfl⟩
  have hop : x.toNat / 2 ^ 24 = 0x01 := by rw [hx, BitVec.toNat_ofNat]; omega
  rw [← hx]; unfold unpackScalar; rw [hop]
  change (if has x 0 6 0 then some (.ssub (fld x 18 6) (fld x 12 6) (fld x 6 6)) else none : Option Instr) = _
  rw [if_pos]
  · rw [hx, fld_eq sd _ _ (by omega), fld_eq sa _ _ (by omega), fld_eq sb _ _ (by omega)]
  · subst hx; simp [has] <;> omega

theorem smul (sd : SReg) (sa : SReg) (sb : SReg) : Statement (.smul sd sa sb) := by
  refine of_scalar rfl rfl ?_
  have := sd.isLt; have := sa.isLt; have := sb.isLt
  obtain ⟨x, hx⟩ : ∃ x, x = BitVec.ofNat 32 (0x02000000 + sd.toNat * 262144 + sa.toNat * 4096 + sb.toNat * 64) := ⟨_, rfl⟩
  have hop : x.toNat / 2 ^ 24 = 0x02 := by rw [hx, BitVec.toNat_ofNat]; omega
  rw [← hx]; unfold unpackScalar; rw [hop]
  change (if has x 0 6 0 then some (.smul (fld x 18 6) (fld x 12 6) (fld x 6 6)) else none : Option Instr) = _
  rw [if_pos]
  · rw [hx, fld_eq sd _ _ (by omega), fld_eq sa _ _ (by omega), fld_eq sb _ _ (by omega)]
  · subst hx; simp [has] <;> omega

theorem smulh (sd : SReg) (sa : SReg) (sb : SReg) : Statement (.smulh sd sa sb) := by
  refine of_scalar rfl rfl ?_
  have := sd.isLt; have := sa.isLt; have := sb.isLt
  obtain ⟨x, hx⟩ : ∃ x, x = BitVec.ofNat 32 (0x03000000 + sd.toNat * 262144 + sa.toNat * 4096 + sb.toNat * 64) := ⟨_, rfl⟩
  have hop : x.toNat / 2 ^ 24 = 0x03 := by rw [hx, BitVec.toNat_ofNat]; omega
  rw [← hx]; unfold unpackScalar; rw [hop]
  change (if has x 0 6 0 then some (.smulh (fld x 18 6) (fld x 12 6) (fld x 6 6)) else none : Option Instr) = _
  rw [if_pos]
  · rw [hx, fld_eq sd _ _ (by omega), fld_eq sa _ _ (by omega), fld_eq sb _ _ (by omega)]
  · subst hx; simp [has] <;> omega

theorem sdiv (sd : SReg) (sa : SReg) (sb : SReg) : Statement (.sdiv sd sa sb) := by
  refine of_scalar rfl rfl ?_
  have := sd.isLt; have := sa.isLt; have := sb.isLt
  obtain ⟨x, hx⟩ : ∃ x, x = BitVec.ofNat 32 (0x04000000 + sd.toNat * 262144 + sa.toNat * 4096 + sb.toNat * 64) := ⟨_, rfl⟩
  have hop : x.toNat / 2 ^ 24 = 0x04 := by rw [hx, BitVec.toNat_ofNat]; omega
  rw [← hx]; unfold unpackScalar; rw [hop]
  change (if has x 0 6 0 then some (.sdiv (fld x 18 6) (fld x 12 6) (fld x 6 6)) else none : Option Instr) = _
  rw [if_pos]
  · rw [hx, fld_eq sd _ _ (by omega), fld_eq sa _ _ (by omega), fld_eq sb _ _ (by omega)]
  · subst hx; simp [has] <;> omega

theorem srem (sd : SReg) (sa : SReg) (sb : SReg) : Statement (.srem sd sa sb) := by
  refine of_scalar rfl rfl ?_
  have := sd.isLt; have := sa.isLt; have := sb.isLt
  obtain ⟨x, hx⟩ : ∃ x, x = BitVec.ofNat 32 (0x05000000 + sd.toNat * 262144 + sa.toNat * 4096 + sb.toNat * 64) := ⟨_, rfl⟩
  have hop : x.toNat / 2 ^ 24 = 0x05 := by rw [hx, BitVec.toNat_ofNat]; omega
  rw [← hx]; unfold unpackScalar; rw [hop]
  change (if has x 0 6 0 then some (.srem (fld x 18 6) (fld x 12 6) (fld x 6 6)) else none : Option Instr) = _
  rw [if_pos]
  · rw [hx, fld_eq sd _ _ (by omega), fld_eq sa _ _ (by omega), fld_eq sb _ _ (by omega)]
  · subst hx; simp [has] <;> omega

theorem sand (sd : SReg) (sa : SReg) (sb : SReg) : Statement (.sand sd sa sb) := by
  refine of_scalar rfl rfl ?_
  have := sd.isLt; have := sa.isLt; have := sb.isLt
  obtain ⟨x, hx⟩ : ∃ x, x = BitVec.ofNat 32 (0x06000000 + sd.toNat * 262144 + sa.toNat * 4096 + sb.toNat * 64) := ⟨_, rfl⟩
  have hop : x.toNat / 2 ^ 24 = 0x06 := by rw [hx, BitVec.toNat_ofNat]; omega
  rw [← hx]; unfold unpackScalar; rw [hop]
  change (if has x 0 6 0 then some (.sand (fld x 18 6) (fld x 12 6) (fld x 6 6)) else none : Option Instr) = _
  rw [if_pos]
  · rw [hx, fld_eq sd _ _ (by omega), fld_eq sa _ _ (by omega), fld_eq sb _ _ (by omega)]
  · subst hx; simp [has] <;> omega

theorem sor (sd : SReg) (sa : SReg) (sb : SReg) : Statement (.sor sd sa sb) := by
  refine of_scalar rfl rfl ?_
  have := sd.isLt; have := sa.isLt; have := sb.isLt
  obtain ⟨x, hx⟩ : ∃ x, x = BitVec.ofNat 32 (0x07000000 + sd.toNat * 262144 + sa.toNat * 4096 + sb.toNat * 64) := ⟨_, rfl⟩
  have hop : x.toNat / 2 ^ 24 = 0x07 := by rw [hx, BitVec.toNat_ofNat]; omega
  rw [← hx]; unfold unpackScalar; rw [hop]
  change (if has x 0 6 0 then some (.sor (fld x 18 6) (fld x 12 6) (fld x 6 6)) else none : Option Instr) = _
  rw [if_pos]
  · rw [hx, fld_eq sd _ _ (by omega), fld_eq sa _ _ (by omega), fld_eq sb _ _ (by omega)]
  · subst hx; simp [has] <;> omega

theorem sxor (sd : SReg) (sa : SReg) (sb : SReg) : Statement (.sxor sd sa sb) := by
  refine of_scalar rfl rfl ?_
  have := sd.isLt; have := sa.isLt; have := sb.isLt
  obtain ⟨x, hx⟩ : ∃ x, x = BitVec.ofNat 32 (0x08000000 + sd.toNat * 262144 + sa.toNat * 4096 + sb.toNat * 64) := ⟨_, rfl⟩
  have hop : x.toNat / 2 ^ 24 = 0x08 := by rw [hx, BitVec.toNat_ofNat]; omega
  rw [← hx]; unfold unpackScalar; rw [hop]
  change (if has x 0 6 0 then some (.sxor (fld x 18 6) (fld x 12 6) (fld x 6 6)) else none : Option Instr) = _
  rw [if_pos]
  · rw [hx, fld_eq sd _ _ (by omega), fld_eq sa _ _ (by omega), fld_eq sb _ _ (by omega)]
  · subst hx; simp [has] <;> omega

theorem sshl (sd : SReg) (sa : SReg) (sb : SReg) : Statement (.sshl sd sa sb) := by
  refine of_scalar rfl rfl ?_
  have := sd.isLt; have := sa.isLt; have := sb.isLt
  obtain ⟨x, hx⟩ : ∃ x, x = BitVec.ofNat 32 (0x09000000 + sd.toNat * 262144 + sa.toNat * 4096 + sb.toNat * 64) := ⟨_, rfl⟩
  have hop : x.toNat / 2 ^ 24 = 0x09 := by rw [hx, BitVec.toNat_ofNat]; omega
  rw [← hx]; unfold unpackScalar; rw [hop]
  change (if has x 0 6 0 then some (.sshl (fld x 18 6) (fld x 12 6) (fld x 6 6)) else none : Option Instr) = _
  rw [if_pos]
  · rw [hx, fld_eq sd _ _ (by omega), fld_eq sa _ _ (by omega), fld_eq sb _ _ (by omega)]
  · subst hx; simp [has] <;> omega

theorem sshr (sd : SReg) (sa : SReg) (sb : SReg) : Statement (.sshr sd sa sb) := by
  refine of_scalar rfl rfl ?_
  have := sd.isLt; have := sa.isLt; have := sb.isLt
  obtain ⟨x, hx⟩ : ∃ x, x = BitVec.ofNat 32 (0x0A000000 + sd.toNat * 262144 + sa.toNat * 4096 + sb.toNat * 64) := ⟨_, rfl⟩
  have hop : x.toNat / 2 ^ 24 = 0x0A := by rw [hx, BitVec.toNat_ofNat]; omega
  rw [← hx]; unfold unpackScalar; rw [hop]
  change (if has x 0 6 0 then some (.sshr (fld x 18 6) (fld x 12 6) (fld x 6 6)) else none : Option Instr) = _
  rw [if_pos]
  · rw [hx, fld_eq sd _ _ (by omega), fld_eq sa _ _ (by omega), fld_eq sb _ _ (by omega)]
  · subst hx; simp [has] <;> omega

theorem ssra (sd : SReg) (sa : SReg) (sb : SReg) : Statement (.ssra sd sa sb) := by
  refine of_scalar rfl rfl ?_
  have := sd.isLt; have := sa.isLt; have := sb.isLt
  obtain ⟨x, hx⟩ : ∃ x, x = BitVec.ofNat 32 (0x0B000000 + sd.toNat * 262144 + sa.toNat * 4096 + sb.toNat * 64) := ⟨_, rfl⟩
  have hop : x.toNat / 2 ^ 24 = 0x0B := by rw [hx, BitVec.toNat_ofNat]; omega
  rw [← hx]; unfold unpackScalar; rw [hop]
  change (if has x 0 6 0 then some (.ssra (fld x 18 6) (fld x 12 6) (fld x 6 6)) else none : Option Instr) = _
  rw [if_pos]
  · rw [hx, fld_eq sd _ _ (by omega), fld_eq sa _ _ (by omega), fld_eq sb _ _ (by omega)]
  · subst hx; simp [has] <;> omega

theorem smin (sd : SReg) (sa : SReg) (sb : SReg) : Statement (.smin sd sa sb) := by
  refine of_scalar rfl rfl ?_
  have := sd.isLt; have := sa.isLt; have := sb.isLt
  obtain ⟨x, hx⟩ : ∃ x, x = BitVec.ofNat 32 (0x0C000000 + sd.toNat * 262144 + sa.toNat * 4096 + sb.toNat * 64) := ⟨_, rfl⟩
  have hop : x.toNat / 2 ^ 24 = 0x0C := by rw [hx, BitVec.toNat_ofNat]; omega
  rw [← hx]; unfold unpackScalar; rw [hop]
  change (if has x 0 6 0 then some (.smin (fld x 18 6) (fld x 12 6) (fld x 6 6)) else none : Option Instr) = _
  rw [if_pos]
  · rw [hx, fld_eq sd _ _ (by omega), fld_eq sa _ _ (by omega), fld_eq sb _ _ (by omega)]
  · subst hx; simp [has] <;> omega

theorem smax (sd : SReg) (sa : SReg) (sb : SReg) : Statement (.smax sd sa sb) := by
  refine of_scalar rfl rfl ?_
  have := sd.isLt; have := sa.isLt; have := sb.isLt
  obtain ⟨x, hx⟩ : ∃ x, x = BitVec.ofNat 32 (0x0D000000 + sd.toNat * 262144 + sa.toNat * 4096 + sb.toNat * 64) := ⟨_, rfl⟩
  have hop : x.toNat / 2 ^ 24 = 0x0D := by rw [hx, BitVec.toNat_ofNat]; omega
  rw [← hx]; unfold unpackScalar; rw [hop]
  change (if has x 0 6 0 then some (.smax (fld x 18 6) (fld x 12 6) (fld x 6 6)) else none : Option Instr) = _
  rw [if_pos]
  · rw [hx, fld_eq sd _ _ (by omega), fld_eq sa _ _ (by omega), fld_eq sb _ _ (by omega)]
  · subst hx; simp [has] <;> omega

theorem sslt (sd : SReg) (sa : SReg) (sb : SReg) : Statement (.sslt sd sa sb) := by
  refine of_scalar rfl rfl ?_
  have := sd.isLt; have := sa.isLt; have := sb.isLt
  obtain ⟨x, hx⟩ : ∃ x, x = BitVec.ofNat 32 (0x0E000000 + sd.toNat * 262144 + sa.toNat * 4096 + sb.toNat * 64) := ⟨_, rfl⟩
  have hop : x.toNat / 2 ^ 24 = 0x0E := by rw [hx, BitVec.toNat_ofNat]; omega
  rw [← hx]; unfold unpackScalar; rw [hop]
  change (if has x 0 6 0 then some (.sslt (fld x 18 6) (fld x 12 6) (fld x 6 6)) else none : Option Instr) = _
  rw [if_pos]
  · rw [hx, fld_eq sd _ _ (by omega), fld_eq sa _ _ (by omega), fld_eq sb _ _ (by omega)]
  · subst hx; simp [has] <;> omega

theorem saddp (sd : SReg) (sa : SReg) (sb : SReg) : Statement (.saddp sd sa sb) := by
  refine of_scalar rfl rfl ?_
  have := sd.isLt; have := sa.isLt; have := sb.isLt
  obtain ⟨x, hx⟩ : ∃ x, x = BitVec.ofNat 32 (0x0F000000 + sd.toNat * 262144 + sa.toNat * 4096 + sb.toNat * 64) := ⟨_, rfl⟩
  have hop : x.toNat / 2 ^ 24 = 0x0F := by rw [hx, BitVec.toNat_ofNat]; omega
  rw [← hx]; unfold unpackScalar; rw [hop]
  change (if has x 0 6 0 then some (.saddp (fld x 18 6) (fld x 12 6) (fld x 6 6)) else none : Option Instr) = _
  rw [if_pos]
  · rw [hx, fld_eq sd _ _ (by omega), fld_eq sa _ _ (by omega), fld_eq sb _ _ (by omega)]
  · subst hx; simp [has] <;> omega

theorem saddi (sd : SReg) (sa : SReg) (imm : BitVec 12) : Statement (.saddi sd sa imm) := by
  refine of_scalar rfl rfl ?_
  have := sd.isLt; have := sa.isLt; have := imm.isLt
  obtain ⟨x, hx⟩ : ∃ x, x = BitVec.ofNat 32 (0x10000000 + sd.toNat * 262144 + sa.toNat * 4096 + imm.toNat) := ⟨_, rfl⟩
  have hop : x.toNat / 2 ^ 24 = 0x10 := by rw [hx, BitVec.toNat_ofNat]; omega
  rw [← hx]; unfold unpackScalar; rw [hop]
  change (some (.saddi (fld x 18 6) (fld x 12 6) (fld x 0 12)) : Option Instr) = _
  rw [hx, fld_eq sd _ _ (by omega), fld_eq sa _ _ (by omega), fld_eq imm _ _ (by omega)]

theorem sandi (sd : SReg) (sa : SReg) (imm : BitVec 12) : Statement (.sandi sd sa imm) := by
  refine of_scalar rfl rfl ?_
  have := sd.isLt; have := sa.isLt; have := imm.isLt
  obtain ⟨x, hx⟩ : ∃ x, x = BitVec.ofNat 32 (0x11000000 + sd.toNat * 262144 + sa.toNat * 4096 + imm.toNat) := ⟨_, rfl⟩
  have hop : x.toNat / 2 ^ 24 = 0x11 := by rw [hx, BitVec.toNat_ofNat]; omega
  rw [← hx]; unfold unpackScalar; rw [hop]
  change (some (.sandi (fld x 18 6) (fld x 12 6) (fld x 0 12)) : Option Instr) = _
  rw [hx, fld_eq sd _ _ (by omega), fld_eq sa _ _ (by omega), fld_eq imm _ _ (by omega)]

theorem sori (sd : SReg) (sa : SReg) (imm : BitVec 12) : Statement (.sori sd sa imm) := by
  refine of_scalar rfl rfl ?_
  have := sd.isLt; have := sa.isLt; have := imm.isLt
  obtain ⟨x, hx⟩ : ∃ x, x = BitVec.ofNat 32 (0x12000000 + sd.toNat * 262144 + sa.toNat * 4096 + imm.toNat) := ⟨_, rfl⟩
  have hop : x.toNat / 2 ^ 24 = 0x12 := by rw [hx, BitVec.toNat_ofNat]; omega
  rw [← hx]; unfold unpackScalar; rw [hop]
  change (some (.sori (fld x 18 6) (fld x 12 6) (fld x 0 12)) : Option Instr) = _
  rw [hx, fld_eq sd _ _ (by omega), fld_eq sa _ _ (by omega), fld_eq imm _ _ (by omega)]

theorem sxori (sd : SReg) (sa : SReg) (imm : BitVec 12) : Statement (.sxori sd sa imm) := by
  refine of_scalar rfl rfl ?_
  have := sd.isLt; have := sa.isLt; have := imm.isLt
  obtain ⟨x, hx⟩ : ∃ x, x = BitVec.ofNat 32 (0x13000000 + sd.toNat * 262144 + sa.toNat * 4096 + imm.toNat) := ⟨_, rfl⟩
  have hop : x.toNat / 2 ^ 24 = 0x13 := by rw [hx, BitVec.toNat_ofNat]; omega
  rw [← hx]; unfold unpackScalar; rw [hop]
  change (some (.sxori (fld x 18 6) (fld x 12 6) (fld x 0 12)) : Option Instr) = _
  rw [hx, fld_eq sd _ _ (by omega), fld_eq sa _ _ (by omega), fld_eq imm _ _ (by omega)]

theorem sshli (sd : SReg) (sa : SReg) (n : BitVec 5) : Statement (.sshli sd sa n) := by
  refine of_scalar rfl rfl ?_
  have := sd.isLt; have := sa.isLt; have := n.isLt
  obtain ⟨x, hx⟩ : ∃ x, x = BitVec.ofNat 32 (0x14000000 + sd.toNat * 262144 + sa.toNat * 4096 + n.toNat) := ⟨_, rfl⟩
  have hop : x.toNat / 2 ^ 24 = 0x14 := by rw [hx, BitVec.toNat_ofNat]; omega
  rw [← hx]; unfold unpackScalar; rw [hop]
  change (if has x 5 7 0 then some (.sshli (fld x 18 6) (fld x 12 6) (fld x 0 5)) else none : Option Instr) = _
  rw [if_pos]
  · rw [hx, fld_eq sd _ _ (by omega), fld_eq sa _ _ (by omega), fld_eq n _ _ (by omega)]
  · subst hx; simp [has] <;> omega

theorem sshri (sd : SReg) (sa : SReg) (n : BitVec 5) : Statement (.sshri sd sa n) := by
  refine of_scalar rfl rfl ?_
  have := sd.isLt; have := sa.isLt; have := n.isLt
  obtain ⟨x, hx⟩ : ∃ x, x = BitVec.ofNat 32 (0x15000000 + sd.toNat * 262144 + sa.toNat * 4096 + n.toNat) := ⟨_, rfl⟩
  have hop : x.toNat / 2 ^ 24 = 0x15 := by rw [hx, BitVec.toNat_ofNat]; omega
  rw [← hx]; unfold unpackScalar; rw [hop]
  change (if has x 5 7 0 then some (.sshri (fld x 18 6) (fld x 12 6) (fld x 0 5)) else none : Option Instr) = _
  rw [if_pos]
  · rw [hx, fld_eq sd _ _ (by omega), fld_eq sa _ _ (by omega), fld_eq n _ _ (by omega)]
  · subst hx; simp [has] <;> omega

theorem ssrai (sd : SReg) (sa : SReg) (n : BitVec 5) : Statement (.ssrai sd sa n) := by
  refine of_scalar rfl rfl ?_
  have := sd.isLt; have := sa.isLt; have := n.isLt
  obtain ⟨x, hx⟩ : ∃ x, x = BitVec.ofNat 32 (0x16000000 + sd.toNat * 262144 + sa.toNat * 4096 + n.toNat) := ⟨_, rfl⟩
  have hop : x.toNat / 2 ^ 24 = 0x16 := by rw [hx, BitVec.toNat_ofNat]; omega
  rw [← hx]; unfold unpackScalar; rw [hop]
  change (if has x 5 7 0 then some (.ssrai (fld x 18 6) (fld x 12 6) (fld x 0 5)) else none : Option Instr) = _
  rw [if_pos]
  · rw [hx, fld_eq sd _ _ (by omega), fld_eq sa _ _ (by omega), fld_eq n _ _ (by omega)]
  · subst hx; simp [has] <;> omega

theorem sslti (sd : SReg) (sa : SReg) (imm : BitVec 12) : Statement (.sslti sd sa imm) := by
  refine of_scalar rfl rfl ?_
  have := sd.isLt; have := sa.isLt; have := imm.isLt
  obtain ⟨x, hx⟩ : ∃ x, x = BitVec.ofNat 32 (0x17000000 + sd.toNat * 262144 + sa.toNat * 4096 + imm.toNat) := ⟨_, rfl⟩
  have hop : x.toNat / 2 ^ 24 = 0x17 := by rw [hx, BitVec.toNat_ofNat]; omega
  rw [← hx]; unfold unpackScalar; rw [hop]
  change (some (.sslti (fld x 18 6) (fld x 12 6) (fld x 0 12)) : Option Instr) = _
  rw [hx, fld_eq sd _ _ (by omega), fld_eq sa _ _ (by omega), fld_eq imm _ _ (by omega)]

theorem saddpi (sd : SReg) (sa : SReg) (imm : BitVec 12) : Statement (.saddpi sd sa imm) := by
  refine of_scalar rfl rfl ?_
  have := sd.isLt; have := sa.isLt; have := imm.isLt
  obtain ⟨x, hx⟩ : ∃ x, x = BitVec.ofNat 32 (0x18000000 + sd.toNat * 262144 + sa.toNat * 4096 + imm.toNat) := ⟨_, rfl⟩
  have hop : x.toNat / 2 ^ 24 = 0x18 := by rw [hx, BitVec.toNat_ofNat]; omega
  rw [← hx]; unfold unpackScalar; rw [hop]
  change (some (.saddpi (fld x 18 6) (fld x 12 6) (fld x 0 12)) : Option Instr) = _
  rw [hx, fld_eq sd _ _ (by omega), fld_eq sa _ _ (by omega), fld_eq imm _ _ (by omega)]

theorem slui (sd : SReg) (imm : BitVec 18) : Statement (.slui sd imm) := by
  refine of_scalar rfl rfl ?_
  have := sd.isLt; have := imm.isLt
  obtain ⟨x, hx⟩ : ∃ x, x = BitVec.ofNat 32 (0x19000000 + sd.toNat * 262144 + imm.toNat) := ⟨_, rfl⟩
  have hop : x.toNat / 2 ^ 24 = 0x19 := by rw [hx, BitVec.toNat_ofNat]; omega
  rw [← hx]; unfold unpackScalar; rw [hop]
  change (some (.slui (fld x 18 6) (fld x 0 18)) : Option Instr) = _
  rw [hx, fld_eq sd _ _ (by omega), fld_eq imm _ _ (by omega)]

theorem spopc (sd : SReg) (sa : SReg) : Statement (.spopc sd sa) := by
  refine of_scalar rfl rfl ?_
  have := sd.isLt; have := sa.isLt
  obtain ⟨x, hx⟩ : ∃ x, x = BitVec.ofNat 32 (0x1A000000 + sd.toNat * 262144 + sa.toNat * 4096) := ⟨_, rfl⟩
  have hop : x.toNat / 2 ^ 24 = 0x1A := by rw [hx, BitVec.toNat_ofNat]; omega
  rw [← hx]; unfold unpackScalar; rw [hop]
  change (if has x 0 12 0 then some (.spopc (fld x 18 6) (fld x 12 6)) else none : Option Instr) = _
  rw [if_pos]
  · rw [hx, fld_eq sd _ _ (by omega), fld_eq sa _ _ (by omega)]
  · subst hx; simp [has] <;> omega

theorem sclz (sd : SReg) (sa : SReg) : Statement (.sclz sd sa) := by
  refine of_scalar rfl rfl ?_
  have := sd.isLt; have := sa.isLt
  obtain ⟨x, hx⟩ : ∃ x, x = BitVec.ofNat 32 (0x1B000000 + sd.toNat * 262144 + sa.toNat * 4096) := ⟨_, rfl⟩
  have hop : x.toNat / 2 ^ 24 = 0x1B := by rw [hx, BitVec.toNat_ofNat]; omega
  rw [← hx]; unfold unpackScalar; rw [hop]
  change (if has x 0 12 0 then some (.sclz (fld x 18 6) (fld x 12 6)) else none : Option Instr) = _
  rw [if_pos]
  · rw [hx, fld_eq sd _ _ (by omega), fld_eq sa _ _ (by omega)]
  · subst hx; simp [has] <;> omega

theorem sbfx (sd : SReg) (sa : SReg) (len : BitVec 5) (pos : BitVec 5) : Statement (.sbfx sd sa len pos) := by
  refine of_scalar rfl rfl ?_
  have := sd.isLt; have := sa.isLt; have := len.isLt; have := pos.isLt
  obtain ⟨x, hx⟩ : ∃ x, x = BitVec.ofNat 32 (0x1C000000 + sd.toNat * 262144 + sa.toNat * 4096 + len.toNat * 32 + pos.toNat) := ⟨_, rfl⟩
  have hop : x.toNat / 2 ^ 24 = 0x1C := by rw [hx, BitVec.toNat_ofNat]; omega
  rw [← hx]; unfold unpackScalar; rw [hop]
  change (if has x 10 2 0 then some (.sbfx (fld x 18 6) (fld x 12 6) (fld x 5 5) (fld x 0 5)) else none : Option Instr) = _
  rw [if_pos]
  · rw [hx, fld_eq sd _ _ (by omega), fld_eq sa _ _ (by omega), fld_eq len _ _ (by omega), fld_eq pos _ _ (by omega)]
  · subst hx; simp [has] <;> omega

theorem sbfi (sd : SReg) (sa : SReg) (len : BitVec 5) (pos : BitVec 5) : Statement (.sbfi sd sa len pos) := by
  refine of_scalar rfl rfl ?_
  have := sd.isLt; have := sa.isLt; have := len.isLt; have := pos.isLt
  obtain ⟨x, hx⟩ : ∃ x, x = BitVec.ofNat 32 (0x1D000000 + sd.toNat * 262144 + sa.toNat * 4096 + len.toNat * 32 + pos.toNat) := ⟨_, rfl⟩
  have hop : x.toNat / 2 ^ 24 = 0x1D := by rw [hx, BitVec.toNat_ofNat]; omega
  rw [← hx]; unfold unpackScalar; rw [hop]
  change (if has x 10 2 0 then some (.sbfi (fld x 18 6) (fld x 12 6) (fld x 5 5) (fld x 0 5)) else none : Option Instr) = _
  rw [if_pos]
  · rw [hx, fld_eq sd _ _ (by omega), fld_eq sa _ _ (by omega), fld_eq len _ _ (by omega), fld_eq pos _ _ (by omega)]
  · subst hx; simp [has] <;> omega

theorem ssel (sd : SReg) (sa : SReg) (sb : SReg) (sc : SReg) : Statement (.ssel sd sa sb sc) := by
  refine of_scalar rfl rfl ?_
  have := sd.isLt; have := sa.isLt; have := sb.isLt; have := sc.isLt
  obtain ⟨x, hx⟩ : ∃ x, x = BitVec.ofNat 32 (0x1E000000 + sd.toNat * 262144 + sa.toNat * 4096 + sb.toNat * 64 + sc.toNat) := ⟨_, rfl⟩
  have hop : x.toNat / 2 ^ 24 = 0x1E := by rw [hx, BitVec.toNat_ofNat]; omega
  rw [← hx]; unfold unpackScalar; rw [hop]
  change (some (.ssel (fld x 18 6) (fld x 12 6) (fld x 6 6) (fld x 0 6)) : Option Instr) = _
  rw [hx, fld_eq sd _ _ (by omega), fld_eq sa _ _ (by omega), fld_eq sb _ _ (by omega), fld_eq sc _ _ (by omega)]

theorem sld (sd : SReg) (base : SReg) (off : BitVec 9) : Statement (.sld sd base off) := by
  refine of_scalar rfl rfl ?_
  have := sd.isLt; have := base.isLt; have := off.isLt
  obtain ⟨x, hx⟩ : ∃ x, x = BitVec.ofNat 32 (0x20000000 + sd.toNat * 262144 + base.toNat * 4096 + off.toNat) := ⟨_, rfl⟩
  have hop : x.toNat / 2 ^ 24 = 0x20 := by rw [hx, BitVec.toNat_ofNat]; omega
  rw [← hx]; unfold unpackScalar; rw [hop]
  change (if has x 9 3 0 then some (.sld (fld x 18 6) (fld x 12 6) (fld x 0 9)) else none : Option Instr) = _
  rw [if_pos]
  · rw [hx, fld_eq sd _ _ (by omega), fld_eq base _ _ (by omega), fld_eq off _ _ (by omega)]
  · subst hx; simp [has] <;> omega

theorem sldp (sd : SReg) (base : SReg) (off : BitVec 9) : Statement (.sldp sd base off) := by
  refine of_scalar rfl rfl ?_
  have := sd.isLt; have := base.isLt; have := off.isLt
  obtain ⟨x, hx⟩ : ∃ x, x = BitVec.ofNat 32 (0x21000000 + sd.toNat * 262144 + base.toNat * 4096 + off.toNat) := ⟨_, rfl⟩
  have hop : x.toNat / 2 ^ 24 = 0x21 := by rw [hx, BitVec.toNat_ofNat]; omega
  rw [← hx]; unfold unpackScalar; rw [hop]
  change (if has x 9 3 0 then some (.sldp (fld x 18 6) (fld x 12 6) (fld x 0 9)) else none : Option Instr) = _
  rw [if_pos]
  · rw [hx, fld_eq sd _ _ (by omega), fld_eq base _ _ (by omega), fld_eq off _ _ (by omega)]
  · subst hx; simp [has] <;> omega

theorem sst (ss : SReg) (base : SReg) (off : BitVec 9) : Statement (.sst ss base off) := by
  refine of_scalar rfl rfl ?_
  have := ss.isLt; have := base.isLt; have := off.isLt
  obtain ⟨x, hx⟩ : ∃ x, x = BitVec.ofNat 32 (0x22000000 + ss.toNat * 262144 + base.toNat * 4096 + off.toNat) := ⟨_, rfl⟩
  have hop : x.toNat / 2 ^ 24 = 0x22 := by rw [hx, BitVec.toNat_ofNat]; omega
  rw [← hx]; unfold unpackScalar; rw [hop]
  change (if has x 9 3 0 then some (.sst (fld x 18 6) (fld x 12 6) (fld x 0 9)) else none : Option Instr) = _
  rw [if_pos]
  · rw [hx, fld_eq ss _ _ (by omega), fld_eq base _ _ (by omega), fld_eq off _ _ (by omega)]
  · subst hx; simp [has] <;> omega

theorem sstp (ss : SReg) (base : SReg) (off : BitVec 9) : Statement (.sstp ss base off) := by
  refine of_scalar rfl rfl ?_
  have := ss.isLt; have := base.isLt; have := off.isLt
  obtain ⟨x, hx⟩ : ∃ x, x = BitVec.ofNat 32 (0x23000000 + ss.toNat * 262144 + base.toNat * 4096 + off.toNat) := ⟨_, rfl⟩
  have hop : x.toNat / 2 ^ 24 = 0x23 := by rw [hx, BitVec.toNat_ofNat]; omega
  rw [← hx]; unfold unpackScalar; rw [hop]
  change (if has x 9 3 0 then some (.sstp (fld x 18 6) (fld x 12 6) (fld x 0 9)) else none : Option Instr) = _
  rw [if_pos]
  · rw [hx, fld_eq ss _ _ (by omega), fld_eq base _ _ (by omega), fld_eq off _ _ (by omega)]
  · subst hx; simp [has] <;> omega

theorem sldaq (sd : SReg) (base : SReg) (scope : BitVec 3) (off : BitVec 9) : Statement (.sldaq sd base scope off) := by
  refine of_scalar rfl rfl ?_
  have := sd.isLt; have := base.isLt; have := scope.isLt; have := off.isLt
  obtain ⟨x, hx⟩ : ∃ x, x = BitVec.ofNat 32 (0x24000000 + sd.toNat * 262144 + base.toNat * 4096 + scope.toNat * 512 + off.toNat) := ⟨_, rfl⟩
  have hop : x.toNat / 2 ^ 24 = 0x24 := by rw [hx, BitVec.toNat_ofNat]; omega
  rw [← hx]; unfold unpackScalar; rw [hop]
  change (some (.sldaq (fld x 18 6) (fld x 12 6) (fld x 9 3) (fld x 0 9)) : Option Instr) = _
  rw [hx, fld_eq sd _ _ (by omega), fld_eq base _ _ (by omega), fld_eq scope _ _ (by omega), fld_eq off _ _ (by omega)]

theorem sstrl (ss : SReg) (base : SReg) (scope : BitVec 3) (off : BitVec 9) : Statement (.sstrl ss base scope off) := by
  refine of_scalar rfl rfl ?_
  have := ss.isLt; have := base.isLt; have := scope.isLt; have := off.isLt
  obtain ⟨x, hx⟩ : ∃ x, x = BitVec.ofNat 32 (0x25000000 + ss.toNat * 262144 + base.toNat * 4096 + scope.toNat * 512 + off.toNat) := ⟨_, rfl⟩
  have hop : x.toNat / 2 ^ 24 = 0x25 := by rw [hx, BitVec.toNat_ofNat]; omega
  rw [← hx]; unfold unpackScalar; rw [hop]
  change (some (.sstrl (fld x 18 6) (fld x 12 6) (fld x 9 3) (fld x 0 9)) : Option Instr) = _
  rw [hx, fld_eq ss _ _ (by omega), fld_eq base _ _ (by omega), fld_eq scope _ _ (by omega), fld_eq off _ _ (by omega)]

theorem samo (sd : SReg) (sa : SReg) (sb : SReg) (op : BitVec 3) (scope : BitVec 3) : Statement (.samo sd sa sb op scope) := by
  refine of_scalar rfl rfl ?_
  have := sd.isLt; have := sa.isLt; have := sb.isLt; have := op.isLt; have := scope.isLt
  obtain ⟨x, hx⟩ : ∃ x, x = BitVec.ofNat 32 (0x26000000 + sd.toNat * 262144 + sa.toNat * 4096 + sb.toNat * 64 + op.toNat * 8 + scope.toNat) := ⟨_, rfl⟩
  have hop : x.toNat / 2 ^ 24 = 0x26 := by rw [hx, BitVec.toNat_ofNat]; omega
  rw [← hx]; unfold unpackScalar; rw [hop]
  change (some (.samo (fld x 18 6) (fld x 12 6) (fld x 6 6) (fld x 3 3) (fld x 0 3)) : Option Instr) = _
  rw [hx, fld_eq sd _ _ (by omega), fld_eq sa _ _ (by omega), fld_eq sb _ _ (by omega), fld_eq op _ _ (by omega), fld_eq scope _ _ (by omega)]

theorem scas (sd : SReg) (sa : SReg) (sb : SReg) (scope : BitVec 3) : Statement (.scas sd sa sb scope) := by
  refine of_scalar rfl rfl ?_
  have := sd.isLt; have := sa.isLt; have := sb.isLt; have := scope.isLt
  obtain ⟨x, hx⟩ : ∃ x, x = BitVec.ofNat 32 (0x27000000 + sd.toNat * 262144 + sa.toNat * 4096 + sb.toNat * 64 + scope.toNat) := ⟨_, rfl⟩
  have hop : x.toNat / 2 ^ 24 = 0x27 := by rw [hx, BitVec.toNat_ofNat]; omega
  rw [← hx]; unfold unpackScalar; rw [hop]
  change (if has x 3 3 0 then some (.scas (fld x 18 6) (fld x 12 6) (fld x 6 6) (fld x 0 3)) else none : Option Instr) = _
  rw [if_pos]
  · rw [hx, fld_eq sd _ _ (by omega), fld_eq sa _ _ (by omega), fld_eq sb _ _ (by omega), fld_eq scope _ _ (by omega)]
  · subst hx; simp [has] <;> omega

theorem fence (scope : BitVec 3) (order : BitVec 2) : Statement (.fence scope order) := by
  refine of_scalar rfl rfl ?_
  have := scope.isLt; have := order.isLt
  obtain ⟨x, hx⟩ : ∃ x, x = BitVec.ofNat 32 (0x28000000 + scope.toNat * 512 + order.toNat * 128) := ⟨_, rfl⟩
  have hop : x.toNat / 2 ^ 24 = 0x28 := by rw [hx, BitVec.toNat_ofNat]; omega
  rw [← hx]; unfold unpackScalar; rw [hop]
  change (if has x 12 12 0 && has x 0 7 0 then some (.fence (fld x 9 3) (fld x 7 2)) else none : Option Instr) = _
  rw [if_pos]
  · rw [hx, fld_eq scope _ _ (by omega), fld_eq order _ _ (by omega)]
  · subst hx; simp [has] <;> omega

theorem racq (ss : SReg) (scope : BitVec 3) : Statement (.racq ss scope) := by
  refine of_scalar rfl rfl ?_
  have := ss.isLt; have := scope.isLt
  obtain ⟨x, hx⟩ : ∃ x, x = BitVec.ofNat 32 (0x29000000 + ss.toNat * 262144 + scope.toNat * 512) := ⟨_, rfl⟩
  have hop : x.toNat / 2 ^ 24 = 0x29 := by rw [hx, BitVec.toNat_ofNat]; omega
  rw [← hx]; unfold unpackScalar; rw [hop]
  change (if has x 12 6 0 && has x 0 9 0 then some (.racq (fld x 18 6) (fld x 9 3)) else none : Option Instr) = _
  rw [if_pos]
  · rw [hx, fld_eq ss _ _ (by omega), fld_eq scope _ _ (by omega)]
  · subst hx; simp [has] <;> omega

theorem sbeq (sa : SReg) (sb : SReg) (off : BitVec 12) : Statement (.sbeq sa sb off) := by
  refine of_scalar rfl rfl ?_
  have := sa.isLt; have := sb.isLt; have := off.isLt
  obtain ⟨x, hx⟩ : ∃ x, x = BitVec.ofNat 32 (0x30000000 + sa.toNat * 262144 + sb.toNat * 4096 + off.toNat) := ⟨_, rfl⟩
  have hop : x.toNat / 2 ^ 24 = 0x30 := by rw [hx, BitVec.toNat_ofNat]; omega
  rw [← hx]; unfold unpackScalar; rw [hop]
  change (some (.sbeq (fld x 18 6) (fld x 12 6) (fld x 0 12)) : Option Instr) = _
  rw [hx, fld_eq sa _ _ (by omega), fld_eq sb _ _ (by omega), fld_eq off _ _ (by omega)]

theorem sbne (sa : SReg) (sb : SReg) (off : BitVec 12) : Statement (.sbne sa sb off) := by
  refine of_scalar rfl rfl ?_
  have := sa.isLt; have := sb.isLt; have := off.isLt
  obtain ⟨x, hx⟩ : ∃ x, x = BitVec.ofNat 32 (0x31000000 + sa.toNat * 262144 + sb.toNat * 4096 + off.toNat) := ⟨_, rfl⟩
  have hop : x.toNat / 2 ^ 24 = 0x31 := by rw [hx, BitVec.toNat_ofNat]; omega
  rw [← hx]; unfold unpackScalar; rw [hop]
  change (some (.sbne (fld x 18 6) (fld x 12 6) (fld x 0 12)) : Option Instr) = _
  rw [hx, fld_eq sa _ _ (by omega), fld_eq sb _ _ (by omega), fld_eq off _ _ (by omega)]

theorem sblt (sa : SReg) (sb : SReg) (off : BitVec 12) : Statement (.sblt sa sb off) := by
  refine of_scalar rfl rfl ?_
  have := sa.isLt; have := sb.isLt; have := off.isLt
  obtain ⟨x, hx⟩ : ∃ x, x = BitVec.ofNat 32 (0x32000000 + sa.toNat * 262144 + sb.toNat * 4096 + off.toNat) := ⟨_, rfl⟩
  have hop : x.toNat / 2 ^ 24 = 0x32 := by rw [hx, BitVec.toNat_ofNat]; omega
  rw [← hx]; unfold unpackScalar; rw [hop]
  change (some (.sblt (fld x 18 6) (fld x 12 6) (fld x 0 12)) : Option Instr) = _
  rw [hx, fld_eq sa _ _ (by omega), fld_eq sb _ _ (by omega), fld_eq off _ _ (by omega)]

theorem sbge (sa : SReg) (sb : SReg) (off : BitVec 12) : Statement (.sbge sa sb off) := by
  refine of_scalar rfl rfl ?_
  have := sa.isLt; have := sb.isLt; have := off.isLt
  obtain ⟨x, hx⟩ : ∃ x, x = BitVec.ofNat 32 (0x33000000 + sa.toNat * 262144 + sb.toNat * 4096 + off.toNat) := ⟨_, rfl⟩
  have hop : x.toNat / 2 ^ 24 = 0x33 := by rw [hx, BitVec.toNat_ofNat]; omega
  rw [← hx]; unfold unpackScalar; rw [hop]
  change (some (.sbge (fld x 18 6) (fld x 12 6) (fld x 0 12)) : Option Instr) = _
  rw [hx, fld_eq sa _ _ (by omega), fld_eq sb _ _ (by omega), fld_eq off _ _ (by omega)]

theorem sblo (sa : SReg) (sb : SReg) (off : BitVec 12) : Statement (.sblo sa sb off) := by
  refine of_scalar rfl rfl ?_
  have := sa.isLt; have := sb.isLt; have := off.isLt
  obtain ⟨x, hx⟩ : ∃ x, x = BitVec.ofNat 32 (0x34000000 + sa.toNat * 262144 + sb.toNat * 4096 + off.toNat) := ⟨_, rfl⟩
  have hop : x.toNat / 2 ^ 24 = 0x34 := by rw [hx, BitVec.toNat_ofNat]; omega
  rw [← hx]; unfold unpackScalar; rw [hop]
  change (some (.sblo (fld x 18 6) (fld x 12 6) (fld x 0 12)) : Option Instr) = _
  rw [hx, fld_eq sa _ _ (by omega), fld_eq sb _ _ (by omega), fld_eq off _ _ (by omega)]

theorem sbhs (sa : SReg) (sb : SReg) (off : BitVec 12) : Statement (.sbhs sa sb off) := by
  refine of_scalar rfl rfl ?_
  have := sa.isLt; have := sb.isLt; have := off.isLt
  obtain ⟨x, hx⟩ : ∃ x, x = BitVec.ofNat 32 (0x35000000 + sa.toNat * 262144 + sb.toNat * 4096 + off.toNat) := ⟨_, rfl⟩
  have hop : x.toNat / 2 ^ 24 = 0x35 := by rw [hx, BitVec.toNat_ofNat]; omega
  rw [← hx]; unfold unpackScalar; rw [hop]
  change (some (.sbhs (fld x 18 6) (fld x 12 6) (fld x 0 12)) : Option Instr) = _
  rw [hx, fld_eq sa _ _ (by omega), fld_eq sb _ _ (by omega), fld_eq off _ _ (by omega)]

theorem sj (off : BitVec 24) : Statement (.sj off) := by
  refine of_scalar rfl rfl ?_
  have := off.isLt
  obtain ⟨x, hx⟩ : ∃ x, x = BitVec.ofNat 32 (0x36000000 + off.toNat) := ⟨_, rfl⟩
  have hop : x.toNat / 2 ^ 24 = 0x36 := by rw [hx, BitVec.toNat_ofNat]; omega
  rw [← hx]; unfold unpackScalar; rw [hop]
  change (some (.sj (fld x 0 24)) : Option Instr) = _
  rw [hx, fld_eq off _ _ (by omega)]

theorem sjal (sd : SReg) (off : BitVec 18) : Statement (.sjal sd off) := by
  refine of_scalar rfl rfl ?_
  have := sd.isLt; have := off.isLt
  obtain ⟨x, hx⟩ : ∃ x, x = BitVec.ofNat 32 (0x37000000 + sd.toNat * 262144 + off.toNat) := ⟨_, rfl⟩
  have hop : x.toNat / 2 ^ 24 = 0x37 := by rw [hx, BitVec.toNat_ofNat]; omega
  rw [← hx]; unfold unpackScalar; rw [hop]
  change (some (.sjal (fld x 18 6) (fld x 0 18)) : Option Instr) = _
  rw [hx, fld_eq sd _ _ (by omega), fld_eq off _ _ (by omega)]

theorem sjr (sd : SReg) (sa : SReg) (imm : BitVec 12) : Statement (.sjr sd sa imm) := by
  refine of_scalar rfl rfl ?_
  have := sd.isLt; have := sa.isLt; have := imm.isLt
  obtain ⟨x, hx⟩ : ∃ x, x = BitVec.ofNat 32 (0x38000000 + sd.toNat * 262144 + sa.toNat * 4096 + imm.toNat) := ⟨_, rfl⟩
  have hop : x.toNat / 2 ^ 24 = 0x38 := by rw [hx, BitVec.toNat_ofNat]; omega
  rw [← hx]; unfold unpackScalar; rw [hop]
  change (some (.sjr (fld x 18 6) (fld x 12 6) (fld x 0 12)) : Option Instr) = _
  rw [hx, fld_eq sd _ _ (by omega), fld_eq sa _ _ (by omega), fld_eq imm _ _ (by omega)]

theorem sloop (sa : SReg) (off : BitVec 12) : Statement (.sloop sa off) := by
  refine of_scalar rfl rfl ?_
  have := sa.isLt; have := off.isLt
  obtain ⟨x, hx⟩ : ∃ x, x = BitVec.ofNat 32 (0x39000000 + sa.toNat * 262144 + off.toNat) := ⟨_, rfl⟩
  have hop : x.toNat / 2 ^ 24 = 0x39 := by rw [hx, BitVec.toNat_ofNat]; omega
  rw [← hx]; unfold unpackScalar; rw [hop]
  change (if has x 12 6 0 then some (.sloop (fld x 18 6) (fld x 0 12)) else none : Option Instr) = _
  rw [if_pos]
  · rw [hx, fld_eq sa _ _ (by omega), fld_eq off _ _ (by omega)]
  · subst hx; simp [has] <;> omega

theorem sbg (g : Slot) (neg : Bool) (off : BitVec 12) : Statement (.sbg g neg off) := by
  refine of_scalar rfl rfl ?_
  have := g.isLt; have := bitOf_le neg; have := off.isLt
  obtain ⟨x, hx⟩ : ∃ x, x = BitVec.ofNat 32 (0x3A000000 + g.toNat * 1048576 + bitOf neg * 524288 + off.toNat) := ⟨_, rfl⟩
  have hop : x.toNat / 2 ^ 24 = 0x3A := by rw [hx, BitVec.toNat_ofNat]; omega
  rw [← hx]; unfold unpackScalar; rw [hop]
  change (if has x 12 7 0 then some (.sbg (fld x 20 4) (fld x 19 1 == 1) (fld x 0 12)) else none : Option Instr) = _
  rw [if_pos]
  · rw [hx, fld_eq g _ _ (by omega), fld_bit neg _ _ (by omega), fld_eq off _ _ (by omega)]
  · subst hx; simp [has] <;> omega

theorem lrun (g : Slot) (neg : Bool) (entry : BitVec 19) : Statement (.lrun g neg entry) := by
  refine of_scalar rfl rfl ?_
  have := g.isLt; have := bitOf_le neg; have := entry.isLt
  obtain ⟨x, hx⟩ : ∃ x, x = BitVec.ofNat 32 (0x40000000 + g.toNat * 1048576 + bitOf neg * 524288 + entry.toNat) := ⟨_, rfl⟩
  have hop : x.toNat / 2 ^ 24 = 0x40 := by rw [hx, BitVec.toNat_ofNat]; omega
  rw [← hx]; unfold unpackScalar; rw [hop]
  change (some (.lrun (fld x 20 4) (fld x 19 1 == 1) (fld x 0 19)) : Option Instr) = _
  rw [hx, fld_eq g _ _ (by omega), fld_bit neg _ _ (by omega), fld_eq entry _ _ (by omega)]

theorem lrunr (g : Slot) (neg : Bool) (sa : SReg) : Statement (.lrunr g neg sa) := by
  refine of_scalar rfl rfl ?_
  have := g.isLt; have := bitOf_le neg; have := sa.isLt
  obtain ⟨x, hx⟩ : ∃ x, x = BitVec.ofNat 32 (0x41000000 + g.toNat * 1048576 + bitOf neg * 524288 + sa.toNat * 8192) := ⟨_, rfl⟩
  have hop : x.toNat / 2 ^ 24 = 0x41 := by rw [hx, BitVec.toNat_ofNat]; omega
  rw [← hx]; unfold unpackScalar; rw [hop]
  change (if has x 0 13 0 then some (.lrunr (fld x 20 4) (fld x 19 1 == 1) (fld x 13 6)) else none : Option Instr) = _
  rw [if_pos]
  · rw [hx, fld_eq g _ _ (by omega), fld_bit neg _ _ (by omega), fld_eq sa _ _ (by omega)]
  · subst hx; simp [has] <;> omega

theorem lsync : Statement .lsync := of_scalar rfl rfl (by decide)

theorem gnew (g : Slot) : Statement (.gnew g) := by
  refine of_scalar rfl rfl ?_
  have := g.isLt
  obtain ⟨x, hx⟩ : ∃ x, x = BitVec.ofNat 32 (0x43000000 + g.toNat * 1048576) := ⟨_, rfl⟩
  have hop : x.toNat / 2 ^ 24 = 0x43 := by rw [hx, BitVec.toNat_ofNat]; omega
  rw [← hx]; unfold unpackScalar; rw [hop]
  change (if has x 0 20 0 then some (.gnew (fld x 20 4)) else none : Option Instr) = _
  rw [if_pos]
  · rw [hx, fld_eq g _ _ (by omega)]
  · subst hx; simp [has] <;> omega

theorem gsets (g : Slot) (neg : Bool) (sa : SReg) : Statement (.gsets g neg sa) := by
  refine of_scalar rfl rfl ?_
  have := g.isLt; have := bitOf_le neg; have := sa.isLt
  obtain ⟨x, hx⟩ : ∃ x, x = BitVec.ofNat 32 (0x44000000 + g.toNat * 1048576 + bitOf neg * 524288 + sa.toNat * 8192) := ⟨_, rfl⟩
  have hop : x.toNat / 2 ^ 24 = 0x44 := by rw [hx, BitVec.toNat_ofNat]; omega
  rw [← hx]; unfold unpackScalar; rw [hop]
  change (if has x 0 13 0 then some (.gsets (fld x 20 4) (fld x 19 1 == 1) (fld x 13 6)) else none : Option Instr) = _
  rw [if_pos]
  · rw [hx, fld_eq g _ _ (by omega), fld_bit neg _ _ (by omega), fld_eq sa _ _ (by omega)]
  · subst hx; simp [has] <;> omega

theorem gwait (g : Slot) : Statement (.gwait g) := by
  refine of_scalar rfl rfl ?_
  have := g.isLt
  obtain ⟨x, hx⟩ : ∃ x, x = BitVec.ofNat 32 (0x45000000 + g.toNat * 1048576) := ⟨_, rfl⟩
  have hop : x.toNat / 2 ^ 24 = 0x45 := by rw [hx, BitVec.toNat_ofNat]; omega
  rw [← hx]; unfold unpackScalar; rw [hop]
  change (if has x 0 20 0 then some (.gwait (fld x 20 4)) else none : Option Instr) = _
  rw [if_pos]
  · rw [hx, fld_eq g _ _ (by omega)]
  · subst hx; simp [has] <;> omega

theorem wsplit (sd : SReg) (ways : BitVec 18) : Statement (.wsplit sd ways) := by
  refine of_scalar rfl rfl ?_
  have := sd.isLt; have := ways.isLt
  obtain ⟨x, hx⟩ : ∃ x, x = BitVec.ofNat 32 (0x46000000 + sd.toNat * 262144 + ways.toNat) := ⟨_, rfl⟩
  have hop : x.toNat / 2 ^ 24 = 0x46 := by rw [hx, BitVec.toNat_ofNat]; omega
  rw [← hx]; unfold unpackScalar; rw [hop]
  change (some (.wsplit (fld x 18 6) (fld x 0 18)) : Option Instr) = _
  rw [hx, fld_eq sd _ _ (by omega), fld_eq ways _ _ (by omega)]

theorem wfuse (sd : SReg) (sa : SReg) (tag : BitVec 12) : Statement (.wfuse sd sa tag) := by
  refine of_scalar rfl rfl ?_
  have := sd.isLt; have := sa.isLt; have := tag.isLt
  obtain ⟨x, hx⟩ : ∃ x, x = BitVec.ofNat 32 (0x47000000 + sd.toNat * 262144 + sa.toNat * 4096 + tag.toNat) := ⟨_, rfl⟩
  have hop : x.toNat / 2 ^ 24 = 0x47 := by rw [hx, BitVec.toNat_ofNat]; omega
  rw [← hx]; unfold unpackScalar; rw [hop]
  change (some (.wfuse (fld x 18 6) (fld x 12 6) (fld x 0 12)) : Option Instr) = _
  rw [hx, fld_eq sd _ _ (by omega), fld_eq sa _ _ (by omega), fld_eq tag _ _ (by omega)]

theorem wgrow (n : BitVec 18) : Statement (.wgrow n) := by
  refine of_scalar rfl rfl ?_
  have := n.isLt
  obtain ⟨x, hx⟩ : ∃ x, x = BitVec.ofNat 32 (0x48000000 + n.toNat) := ⟨_, rfl⟩
  have hop : x.toNat / 2 ^ 24 = 0x48 := by rw [hx, BitVec.toNat_ofNat]; omega
  rw [← hx]; unfold unpackScalar; rw [hop]
  change (if has x 18 6 0 then some (.wgrow (fld x 0 18)) else none : Option Instr) = _
  rw [if_pos]
  · rw [hx, fld_eq n _ _ (by omega)]
  · subst hx; simp [has] <;> omega

theorem region (index : BitVec 18) : Statement (.region index) := by
  refine of_scalar rfl rfl ?_
  have := index.isLt
  obtain ⟨x, hx⟩ : ∃ x, x = BitVec.ofNat 32 (0x49000000 + index.toNat) := ⟨_, rfl⟩
  have hop : x.toNat / 2 ^ 24 = 0x49 := by rw [hx, BitVec.toNat_ofNat]; omega
  rw [← hx]; unfold unpackScalar; rw [hop]
  change (if has x 18 6 0 then some (.region (fld x 0 18)) else none : Option Instr) = _
  rw [if_pos]
  · rw [hx, fld_eq index _ _ (by omega)]
  · subst hx; simp [has] <;> omega

theorem sexit : Statement .sexit := of_scalar rfl rfl (by decide)

theorem syield : Statement .syield := of_scalar rfl rfl (by decide)

theorem cpy (g : Slot) (neg : Bool) (zd : Slot) (zs : Slot) (sa : SReg) : Statement (.cpy g neg zd zs sa) := by
  refine of_scalar rfl rfl ?_
  have := g.isLt; have := bitOf_le neg; have := zd.isLt; have := zs.isLt; have := sa.isLt
  obtain ⟨x, hx⟩ : ∃ x, x = BitVec.ofNat 32 (0x50000000 + g.toNat * 1048576 + bitOf neg * 524288 + zd.toNat * 32768 + zs.toNat * 2048 + sa.toNat * 32) := ⟨_, rfl⟩
  have hop : x.toNat / 2 ^ 24 = 0x50 := by rw [hx, BitVec.toNat_ofNat]; omega
  rw [← hx]; unfold unpackScalar; rw [hop]
  change (if has x 0 5 0 then some (.cpy (fld x 20 4) (fld x 19 1 == 1) (fld x 15 4) (fld x 11 4) (fld x 5 6)) else none : Option Instr) = _
  rw [if_pos]
  · rw [hx, fld_eq g _ _ (by omega), fld_bit neg _ _ (by omega), fld_eq zd _ _ (by omega), fld_eq zs _ _ (by omega), fld_eq sa _ _ (by omega)]
  · subst hx; simp [has] <;> omega

theorem cpyq (g : Slot) (neg : Bool) (zd : Slot) (zs : Slot) (sa : SReg) : Statement (.cpyq g neg zd zs sa) := by
  refine of_scalar rfl rfl ?_
  have := g.isLt; have := bitOf_le neg; have := zd.isLt; have := zs.isLt; have := sa.isLt
  obtain ⟨x, hx⟩ : ∃ x, x = BitVec.ofNat 32 (0x51000000 + g.toNat * 1048576 + bitOf neg * 524288 + zd.toNat * 32768 + zs.toNat * 2048 + sa.toNat * 32) := ⟨_, rfl⟩
  have hop : x.toNat / 2 ^ 24 = 0x51 := by rw [hx, BitVec.toNat_ofNat]; omega
  rw [← hx]; unfold unpackScalar; rw [hop]
  change (if has x 0 5 0 then some (.cpyq (fld x 20 4) (fld x 19 1 == 1) (fld x 15 4) (fld x 11 4) (fld x 5 6)) else none : Option Instr) = _
  rw [if_pos]
  · rw [hx, fld_eq g _ _ (by omega), fld_bit neg _ _ (by omega), fld_eq zd _ _ (by omega), fld_eq zs _ _ (by omega), fld_eq sa _ _ (by omega)]
  · subst hx; simp [has] <;> omega

theorem cpys (g : Slot) (neg : Bool) (zd : Slot) (sa : SReg) : Statement (.cpys g neg zd sa) := by
  refine of_scalar rfl rfl ?_
  have := g.isLt; have := bitOf_le neg; have := zd.isLt; have := sa.isLt
  obtain ⟨x, hx⟩ : ∃ x, x = BitVec.ofNat 32 (0x52000000 + g.toNat * 1048576 + bitOf neg * 524288 + zd.toNat * 32768 + sa.toNat * 512) := ⟨_, rfl⟩
  have hop : x.toNat / 2 ^ 24 = 0x52 := by rw [hx, BitVec.toNat_ofNat]; omega
  rw [← hx]; unfold unpackScalar; rw [hop]
  change (if has x 0 9 0 then some (.cpys (fld x 20 4) (fld x 19 1 == 1) (fld x 15 4) (fld x 9 6)) else none : Option Instr) = _
  rw [if_pos]
  · rw [hx, fld_eq g _ _ (by omega), fld_bit neg _ _ (by omega), fld_eq zd _ _ (by omega), fld_eq sa _ _ (by omega)]
  · subst hx; simp [has] <;> omega

theorem gath (g : Slot) (neg : Bool) (zd : Slot) (zs : Slot) (zi : Slot) : Statement (.gath g neg zd zs zi) := by
  refine of_scalar rfl rfl ?_
  have := g.isLt; have := bitOf_le neg; have := zd.isLt; have := zs.isLt; have := zi.isLt
  obtain ⟨x, hx⟩ : ∃ x, x = BitVec.ofNat 32 (0x53000000 + g.toNat * 1048576 + bitOf neg * 524288 + zd.toNat * 32768 + zs.toNat * 2048 + zi.toNat * 128) := ⟨_, rfl⟩
  have hop : x.toNat / 2 ^ 24 = 0x53 := by rw [hx, BitVec.toNat_ofNat]; omega
  rw [← hx]; unfold unpackScalar; rw [hop]
  change (if has x 0 7 0 then some (.gath (fld x 20 4) (fld x 19 1 == 1) (fld x 15 4) (fld x 11 4) (fld x 7 4)) else none : Option Instr) = _
  rw [if_pos]
  · rw [hx, fld_eq g _ _ (by omega), fld_bit neg _ _ (by omega), fld_eq zd _ _ (by omega), fld_eq zs _ _ (by omega), fld_eq zi _ _ (by omega)]
  · subst hx; simp [has] <;> omega

theorem scat (g : Slot) (neg : Bool) (zd : Slot) (zs : Slot) (zi : Slot) : Statement (.scat g neg zd zs zi) := by
  refine of_scalar rfl rfl ?_
  have := g.isLt; have := bitOf_le neg; have := zd.isLt; have := zs.isLt; have := zi.isLt
  obtain ⟨x, hx⟩ : ∃ x, x = BitVec.ofNat 32 (0x54000000 + g.toNat * 1048576 + bitOf neg * 524288 + zd.toNat * 32768 + zs.toNat * 2048 + zi.toNat * 128) := ⟨_, rfl⟩
  have hop : x.toNat / 2 ^ 24 = 0x54 := by rw [hx, BitVec.toNat_ofNat]; omega
  rw [← hx]; unfold unpackScalar; rw [hop]
  change (if has x 0 7 0 then some (.scat (fld x 20 4) (fld x 19 1 == 1) (fld x 15 4) (fld x 11 4) (fld x 7 4)) else none : Option Instr) = _
  rw [if_pos]
  · rw [hx, fld_eq g _ _ (by omega), fld_bit neg _ _ (by omega), fld_eq zd _ _ (by omega), fld_eq zs _ _ (by omega), fld_eq zi _ _ (by omega)]
  · subst hx; simp [has] <;> omega

theorem mcast (g : Slot) (neg : Bool) (zd : Slot) (zs : Slot) (sa : SReg) : Statement (.mcast g neg zd zs sa) := by
  refine of_scalar rfl rfl ?_
  have := g.isLt; have := bitOf_le neg; have := zd.isLt; have := zs.isLt; have := sa.isLt
  obtain ⟨x, hx⟩ : ∃ x, x = BitVec.ofNat 32 (0x55000000 + g.toNat * 1048576 + bitOf neg * 524288 + zd.toNat * 32768 + zs.toNat * 2048 + sa.toNat * 32) := ⟨_, rfl⟩
  have hop : x.toNat / 2 ^ 24 = 0x55 := by rw [hx, BitVec.toNat_ofNat]; omega
  rw [← hx]; unfold unpackScalar; rw [hop]
  change (if has x 0 5 0 then some (.mcast (fld x 20 4) (fld x 19 1 == 1) (fld x 15 4) (fld x 11 4) (fld x 5 6)) else none : Option Instr) = _
  rw [if_pos]
  · rw [hx, fld_eq g _ _ (by omega), fld_bit neg _ _ (by omega), fld_eq zd _ _ (by omega), fld_eq zs _ _ (by omega), fld_eq sa _ _ (by omega)]
  · subst hx; simp [has] <;> omega

theorem qpush (sa : SReg) (scope : BitVec 3) (queue : BitVec 6) : Statement (.qpush sa scope queue) := by
  refine of_scalar rfl rfl ?_
  have := sa.isLt; have := scope.isLt; have := queue.isLt
  obtain ⟨x, hx⟩ : ∃ x, x = BitVec.ofNat 32 (0x56000000 + sa.toNat * 4096 + scope.toNat * 64 + queue.toNat) := ⟨_, rfl⟩
  have hop : x.toNat / 2 ^ 24 = 0x56 := by rw [hx, BitVec.toNat_ofNat]; omega
  rw [← hx]; unfold unpackScalar; rw [hop]
  change (if has x 18 6 0 && has x 9 3 0 then some (.qpush (fld x 12 6) (fld x 6 3) (fld x 0 6)) else none : Option Instr) = _
  rw [if_pos]
  · rw [hx, fld_eq sa _ _ (by omega), fld_eq scope _ _ (by omega), fld_eq queue _ _ (by omega)]
  · subst hx; simp [has] <;> omega

theorem qpop (sd : SReg) (scope : BitVec 3) (queue : BitVec 6) : Statement (.qpop sd scope queue) := by
  refine of_scalar rfl rfl ?_
  have := sd.isLt; have := scope.isLt; have := queue.isLt
  obtain ⟨x, hx⟩ : ∃ x, x = BitVec.ofNat 32 (0x57000000 + sd.toNat * 262144 + scope.toNat * 64 + queue.toNat) := ⟨_, rfl⟩
  have hop : x.toNat / 2 ^ 24 = 0x57 := by rw [hx, BitVec.toNat_ofNat]; omega
  rw [← hx]; unfold unpackScalar; rw [hop]
  change (if has x 12 6 0 && has x 9 3 0 then some (.qpop (fld x 18 6) (fld x 6 3) (fld x 0 6)) else none : Option Instr) = _
  rw [if_pos]
  · rw [hx, fld_eq sd _ _ (by omega), fld_eq scope _ _ (by omega), fld_eq queue _ _ (by omega)]
  · subst hx; simp [has] <;> omega

theorem qtryPop (sd : SReg) (scope : BitVec 3) (queue : BitVec 6) : Statement (.qtryPop sd scope queue) := by
  refine of_scalar rfl rfl ?_
  have := sd.isLt; have := scope.isLt; have := queue.isLt
  obtain ⟨x, hx⟩ : ∃ x, x = BitVec.ofNat 32 (0x58000000 + sd.toNat * 262144 + scope.toNat * 64 + queue.toNat) := ⟨_, rfl⟩
  have hop : x.toNat / 2 ^ 24 = 0x58 := by rw [hx, BitVec.toNat_ofNat]; omega
  rw [← hx]; unfold unpackScalar; rw [hop]
  change (if has x 12 6 0 && has x 9 3 0 then some (.qtryPop (fld x 18 6) (fld x 6 3) (fld x 0 6)) else if has x 9 3 1 then some (.qtryPush (fld x 18 6) (fld x 12 6) (fld x 6 3) (fld x 0 6)) else if has x 12 6 0 && has x 6 3 0 && has x 9 3 2 then some (.qtryCount (fld x 18 6) (fld x 0 6)) else none : Option Instr) = _
  subst hx
  rw [if_pos (by simp [has] <;> omega)]
  rw [fld_eq sd _ _ (by omega), fld_eq scope _ _ (by omega), fld_eq queue _ _ (by omega)]

theorem qtryPush (sd : SReg) (sa : SReg) (scope : BitVec 3) (queue : BitVec 6) : Statement (.qtryPush sd sa scope queue) := by
  refine of_scalar rfl rfl ?_
  have := sd.isLt; have := sa.isLt; have := scope.isLt; have := queue.isLt
  obtain ⟨x, hx⟩ : ∃ x, x = BitVec.ofNat 32 (0x58000200 + sd.toNat * 262144 + sa.toNat * 4096 + scope.toNat * 64 + queue.toNat) := ⟨_, rfl⟩
  have hop : x.toNat / 2 ^ 24 = 0x58 := by rw [hx, BitVec.toNat_ofNat]; omega
  rw [← hx]; unfold unpackScalar; rw [hop]
  change (if has x 12 6 0 && has x 9 3 0 then some (.qtryPop (fld x 18 6) (fld x 6 3) (fld x 0 6)) else if has x 9 3 1 then some (.qtryPush (fld x 18 6) (fld x 12 6) (fld x 6 3) (fld x 0 6)) else if has x 12 6 0 && has x 6 3 0 && has x 9 3 2 then some (.qtryCount (fld x 18 6) (fld x 0 6)) else none : Option Instr) = _
  subst hx
  rw [if_neg (by simp [has] <;> omega)]
  rw [if_pos (by simp [has] <;> omega)]
  rw [fld_eq sd _ _ (by omega), fld_eq sa _ _ (by omega), fld_eq scope _ _ (by omega), fld_eq queue _ _ (by omega)]

theorem qtryCount (sd : SReg) (queue : BitVec 6) : Statement (.qtryCount sd queue) := by
  refine of_scalar rfl rfl ?_
  have := sd.isLt; have := queue.isLt
  obtain ⟨x, hx⟩ : ∃ x, x = BitVec.ofNat 32 (0x58000400 + sd.toNat * 262144 + queue.toNat) := ⟨_, rfl⟩
  have hop : x.toNat / 2 ^ 24 = 0x58 := by rw [hx, BitVec.toNat_ofNat]; omega
  rw [← hx]; unfold unpackScalar; rw [hop]
  change (if has x 12 6 0 && has x 9 3 0 then some (.qtryPop (fld x 18 6) (fld x 6 3) (fld x 0 6)) else if has x 9 3 1 then some (.qtryPush (fld x 18 6) (fld x 12 6) (fld x 6 3) (fld x 0 6)) else if has x 12 6 0 && has x 6 3 0 && has x 9 3 2 then some (.qtryCount (fld x 18 6) (fld x 0 6)) else none : Option Instr) = _
  subst hx
  rw [if_neg (by simp [has] <;> omega)]
  rw [if_neg (by simp [has] <;> omega)]
  rw [if_pos (by simp [has] <;> omega)]
  rw [fld_eq sd _ _ (by omega), fld_eq queue _ _ (by omega)]

theorem qbind (sa : SReg) (sb : SReg) (queue : BitVec 6) : Statement (.qbind sa sb queue) := by
  refine of_scalar rfl rfl ?_
  have := sa.isLt; have := sb.isLt; have := queue.isLt
  obtain ⟨x, hx⟩ : ∃ x, x = BitVec.ofNat 32 (0x59000000 + sa.toNat * 4096 + sb.toNat * 64 + queue.toNat) := ⟨_, rfl⟩
  have hop : x.toNat / 2 ^ 24 = 0x59 := by rw [hx, BitVec.toNat_ofNat]; omega
  rw [← hx]; unfold unpackScalar; rw [hop]
  change (if has x 18 6 0 then some (.qbind (fld x 12 6) (fld x 6 6) (fld x 0 6)) else none : Option Instr) = _
  rw [if_pos]
  · rw [hx, fld_eq sa _ _ (by omega), fld_eq sb _ _ (by omega), fld_eq queue _ _ (by omega)]
  · subst hx; simp [has] <;> omega

theorem zld (z : Slot) (base : SReg) (off : BitVec 9) : Statement (.zld z base off) := by
  refine of_scalar rfl rfl ?_
  have := z.isLt; have := base.isLt; have := off.isLt
  obtain ⟨x, hx⟩ : ∃ x, x = BitVec.ofNat 32 (0x5A000000 + z.toNat * 262144 + base.toNat * 4096 + off.toNat) := ⟨_, rfl⟩
  have hop : x.toNat / 2 ^ 24 = 0x5A := by rw [hx, BitVec.toNat_ofNat]; omega
  rw [← hx]; unfold unpackScalar; rw [hop]
  change (if has x 22 2 0 && has x 9 3 0 then some (.zld (fld x 18 4) (fld x 12 6) (fld x 0 9)) else none : Option Instr) = _
  rw [if_pos]
  · rw [hx, fld_eq z _ _ (by omega), fld_eq base _ _ (by omega), fld_eq off _ _ (by omega)]
  · subst hx; simp [has] <;> omega

theorem zst (z : Slot) (base : SReg) (off : BitVec 9) : Statement (.zst z base off) := by
  refine of_scalar rfl rfl ?_
  have := z.isLt; have := base.isLt; have := off.isLt
  obtain ⟨x, hx⟩ : ∃ x, x = BitVec.ofNat 32 (0x5B000000 + z.toNat * 262144 + base.toNat * 4096 + off.toNat) := ⟨_, rfl⟩
  have hop : x.toNat / 2 ^ 24 = 0x5B := by rw [hx, BitVec.toNat_ofNat]; omega
  rw [← hx]; unfold unpackScalar; rw [hop]
  change (if has x 22 2 0 && has x 9 3 0 then some (.zst (fld x 18 4) (fld x 12 6) (fld x 0 9)) else none : Option Instr) = _
  rw [if_pos]
  · rw [hx, fld_eq z _ _ (by omega), fld_eq base _ _ (by omega), fld_eq off _ _ (by omega)]
  · subst hx; simp [has] <;> omega

theorem zset (z : Slot) (sa : SReg) (w : BitVec 4) : Statement (.zset z sa w) := by
  refine of_scalar rfl rfl ?_
  have := z.isLt; have := sa.isLt; have := w.isLt
  obtain ⟨x, hx⟩ : ∃ x, x = BitVec.ofNat 32 (0x5C000000 + z.toNat * 262144 + sa.toNat * 4096 + w.toNat) := ⟨_, rfl⟩
  have hop : x.toNat / 2 ^ 24 = 0x5C := by rw [hx, BitVec.toNat_ofNat]; omega
  rw [← hx]; unfold unpackScalar; rw [hop]
  change (if has x 22 2 0 && has x 4 8 0 then some (.zset (fld x 18 4) (fld x 12 6) (fld x 0 4)) else none : Option Instr) = _
  rw [if_pos]
  · rw [hx, fld_eq z _ _ (by omega), fld_eq sa _ _ (by omega), fld_eq w _ _ (by omega)]
  · subst hx; simp [has] <;> omega

theorem zget (sd : SReg) (z : Slot) (w : BitVec 4) : Statement (.zget sd z w) := by
  refine of_scalar rfl rfl ?_
  have := sd.isLt; have := z.isLt; have := w.isLt
  obtain ⟨x, hx⟩ : ∃ x, x = BitVec.ofNat 32 (0x5D000000 + sd.toNat * 262144 + z.toNat * 4096 + w.toNat) := ⟨_, rfl⟩
  have hop : x.toNat / 2 ^ 24 = 0x5D := by rw [hx, BitVec.toNat_ofNat]; omega
  rw [← hx]; unfold unpackScalar; rw [hop]
  change (if has x 16 2 0 && has x 4 8 0 then some (.zget (fld x 18 6) (fld x 12 4) (fld x 0 4)) else none : Option Instr) = _
  rw [if_pos]
  · rw [hx, fld_eq sd _ _ (by omega), fld_eq z _ _ (by omega), fld_eq w _ _ (by omega)]
  · subst hx; simp [has] <;> omega

theorem mkset (mk : Slot) (sa : SReg) (w : BitVec 2) : Statement (.mkset mk sa w) := by
  refine of_scalar rfl rfl ?_
  have := mk.isLt; have := sa.isLt; have := w.isLt
  obtain ⟨x, hx⟩ : ∃ x, x = BitVec.ofNat 32 (0x5E000000 + mk.toNat * 262144 + sa.toNat * 4096 + w.toNat) := ⟨_, rfl⟩
  have hop : x.toNat / 2 ^ 24 = 0x5E := by rw [hx, BitVec.toNat_ofNat]; omega
  rw [← hx]; unfold unpackScalar; rw [hop]
  change (if has x 22 2 0 && has x 2 10 0 then some (.mkset (fld x 18 4) (fld x 12 6) (fld x 0 2)) else if has x 22 2 0 && has x 0 12 16 then some (.mksetPre (fld x 18 4) (fld x 12 6)) else none : Option Instr) = _
  subst hx
  rw [if_pos (by simp [has] <;> omega)]
  rw [fld_eq mk _ _ (by omega), fld_eq sa _ _ (by omega), fld_eq w _ _ (by omega)]

theorem mksetPre (mk : Slot) (sa : SReg) : Statement (.mksetPre mk sa) := by
  refine of_scalar rfl rfl ?_
  have := mk.isLt; have := sa.isLt
  obtain ⟨x, hx⟩ : ∃ x, x = BitVec.ofNat 32 (0x5E000010 + mk.toNat * 262144 + sa.toNat * 4096) := ⟨_, rfl⟩
  have hop : x.toNat / 2 ^ 24 = 0x5E := by rw [hx, BitVec.toNat_ofNat]; omega
  rw [← hx]; unfold unpackScalar; rw [hop]
  change (if has x 22 2 0 && has x 2 10 0 then some (.mkset (fld x 18 4) (fld x 12 6) (fld x 0 2)) else if has x 22 2 0 && has x 0 12 16 then some (.mksetPre (fld x 18 4) (fld x 12 6)) else none : Option Instr) = _
  subst hx
  rw [if_neg (by simp [has] <;> omega)]
  rw [if_pos (by simp [has] <;> omega)]
  rw [fld_eq mk _ _ (by omega), fld_eq sa _ _ (by omega)]

theorem ewait (n : BitVec 18) : Statement (.ewait n) := by
  refine of_scalar rfl rfl ?_
  have := n.isLt
  obtain ⟨x, hx⟩ : ∃ x, x = BitVec.ofNat 32 (0x5F000000 + n.toNat) := ⟨_, rfl⟩
  have hop : x.toNat / 2 ^ 24 = 0x5F := by rw [hx, BitVec.toNat_ofNat]; omega
  rw [← hx]; unfold unpackScalar; rw [hop]
  change (if has x 18 6 0 then some (.ewait (fld x 0 18)) else none : Option Instr) = _
  rw [if_pos]
  · rw [hx, fld_eq n _ _ (by omega)]
  · subst hx; simp [has] <;> omega

theorem xput (g : Slot) (neg : Bool) (zl : Slot) (sa : SReg) : Statement (.xput g neg zl sa) := by
  refine of_scalar rfl rfl ?_
  have := g.isLt; have := bitOf_le neg; have := zl.isLt; have := sa.isLt
  obtain ⟨x, hx⟩ : ∃ x, x = BitVec.ofNat 32 (0x60000000 + g.toNat * 1048576 + bitOf neg * 524288 + zl.toNat * 32768 + sa.toNat * 32) := ⟨_, rfl⟩
  have hop : x.toNat / 2 ^ 24 = 0x60 := by rw [hx, BitVec.toNat_ofNat]; omega
  rw [← hx]; unfold unpackScalar; rw [hop]
  change (if has x 11 4 0 && has x 0 5 0 then some (.xput (fld x 20 4) (fld x 19 1 == 1) (fld x 15 4) (fld x 5 6)) else none : Option Instr) = _
  rw [if_pos]
  · rw [hx, fld_eq g _ _ (by omega), fld_bit neg _ _ (by omega), fld_eq zl _ _ (by omega), fld_eq sa _ _ (by omega)]
  · subst hx; simp [has] <;> omega

theorem xget (g : Slot) (neg : Bool) (zl : Slot) (sa : SReg) : Statement (.xget g neg zl sa) := by
  refine of_scalar rfl rfl ?_
  have := g.isLt; have := bitOf_le neg; have := zl.isLt; have := sa.isLt
  obtain ⟨x, hx⟩ : ∃ x, x = BitVec.ofNat 32 (0x61000000 + g.toNat * 1048576 + bitOf neg * 524288 + zl.toNat * 32768 + sa.toNat * 32) := ⟨_, rfl⟩
  have hop : x.toNat / 2 ^ 24 = 0x61 := by rw [hx, BitVec.toNat_ofNat]; omega
  rw [← hx]; unfold unpackScalar; rw [hop]
  change (if has x 11 4 0 && has x 0 5 0 then some (.xget (fld x 20 4) (fld x 19 1 == 1) (fld x 15 4) (fld x 5 6)) else none : Option Instr) = _
  rw [if_pos]
  · rw [hx, fld_eq g _ _ (by omega), fld_bit neg _ _ (by omega), fld_eq zl _ _ (by omega), fld_eq sa _ _ (by omega)]
  · subst hx; simp [has] <;> omega

theorem xwait (sd : SReg) (n : BitVec 7) : Statement (.xwait sd n) := by
  refine of_scalar rfl rfl ?_
  have := sd.isLt; have := n.isLt
  obtain ⟨x, hx⟩ : ∃ x, x = BitVec.ofNat 32 (0x62000000 + sd.toNat * 262144 + n.toNat) := ⟨_, rfl⟩
  have hop : x.toNat / 2 ^ 24 = 0x62 := by rw [hx, BitVec.toNat_ofNat]; omega
  rw [← hx]; unfold unpackScalar; rw [hop]
  change (if has x 7 11 0 then some (.xwait (fld x 18 6) (fld x 0 7)) else none : Option Instr) = _
  rw [if_pos]
  · rw [hx, fld_eq sd _ _ (by omega), fld_eq n _ _ (by omega)]
  · subst hx; simp [has] <;> omega

theorem collAred (g : Slot) (neg : Bool) (zd : Slot) (zs : Slot) (sa : SReg) (op : BitVec 2) : Statement (.collAred g neg zd zs sa op) := by
  refine of_scalar rfl rfl ?_
  have := g.isLt; have := bitOf_le neg; have := zd.isLt; have := zs.isLt; have := sa.isLt; have := op.isLt
  obtain ⟨x, hx⟩ : ∃ x, x = BitVec.ofNat 32 (0x63000000 + g.toNat * 1048576 + bitOf neg * 524288 + zd.toNat * 32768 + zs.toNat * 2048 + sa.toNat * 32 + op.toNat * 2) := ⟨_, rfl⟩
  have hop : x.toNat / 2 ^ 24 = 0x63 := by rw [hx, BitVec.toNat_ofNat]; omega
  rw [← hx]; unfold unpackScalar; rw [hop]
  change (if has x 3 2 0 && has x 0 1 0 then some (.collAred (fld x 20 4) (fld x 19 1 == 1) (fld x 15 4) (fld x 11 4) (fld x 5 6) (fld x 1 2)) else if has x 0 5 8 then some (.collAgath (fld x 20 4) (fld x 19 1 == 1) (fld x 15 4) (fld x 11 4) (fld x 5 6)) else if has x 3 2 2 && has x 0 1 0 then some (.collRscat (fld x 20 4) (fld x 19 1 == 1) (fld x 15 4) (fld x 11 4) (fld x 5 6) (fld x 1 2)) else none : Option Instr) = _
  subst hx
  rw [if_pos (by simp [has] <;> omega)]
  rw [fld_eq g _ _ (by omega), fld_bit neg _ _ (by omega), fld_eq zd _ _ (by omega), fld_eq zs _ _ (by omega), fld_eq sa _ _ (by omega), fld_eq op _ _ (by omega)]

theorem collAgath (g : Slot) (neg : Bool) (zd : Slot) (zs : Slot) (sa : SReg) : Statement (.collAgath g neg zd zs sa) := by
  refine of_scalar rfl rfl ?_
  have := g.isLt; have := bitOf_le neg; have := zd.isLt; have := zs.isLt; have := sa.isLt
  obtain ⟨x, hx⟩ : ∃ x, x = BitVec.ofNat 32 (0x63000008 + g.toNat * 1048576 + bitOf neg * 524288 + zd.toNat * 32768 + zs.toNat * 2048 + sa.toNat * 32) := ⟨_, rfl⟩
  have hop : x.toNat / 2 ^ 24 = 0x63 := by rw [hx, BitVec.toNat_ofNat]; omega
  rw [← hx]; unfold unpackScalar; rw [hop]
  change (if has x 3 2 0 && has x 0 1 0 then some (.collAred (fld x 20 4) (fld x 19 1 == 1) (fld x 15 4) (fld x 11 4) (fld x 5 6) (fld x 1 2)) else if has x 0 5 8 then some (.collAgath (fld x 20 4) (fld x 19 1 == 1) (fld x 15 4) (fld x 11 4) (fld x 5 6)) else if has x 3 2 2 && has x 0 1 0 then some (.collRscat (fld x 20 4) (fld x 19 1 == 1) (fld x 15 4) (fld x 11 4) (fld x 5 6) (fld x 1 2)) else none : Option Instr) = _
  subst hx
  rw [if_neg (by simp [has] <;> omega)]
  rw [if_pos (by simp [has] <;> omega)]
  rw [fld_eq g _ _ (by omega), fld_bit neg _ _ (by omega), fld_eq zd _ _ (by omega), fld_eq zs _ _ (by omega), fld_eq sa _ _ (by omega)]

theorem collRscat (g : Slot) (neg : Bool) (zd : Slot) (zs : Slot) (sa : SReg) (op : BitVec 2) : Statement (.collRscat g neg zd zs sa op) := by
  refine of_scalar rfl rfl ?_
  have := g.isLt; have := bitOf_le neg; have := zd.isLt; have := zs.isLt; have := sa.isLt; have := op.isLt
  obtain ⟨x, hx⟩ : ∃ x, x = BitVec.ofNat 32 (0x63000010 + g.toNat * 1048576 + bitOf neg * 524288 + zd.toNat * 32768 + zs.toNat * 2048 + sa.toNat * 32 + op.toNat * 2) := ⟨_, rfl⟩
  have hop : x.toNat / 2 ^ 24 = 0x63 := by rw [hx, BitVec.toNat_ofNat]; omega
  rw [← hx]; unfold unpackScalar; rw [hop]
  change (if has x 3 2 0 && has x 0 1 0 then some (.collAred (fld x 20 4) (fld x 19 1 == 1) (fld x 15 4) (fld x 11 4) (fld x 5 6) (fld x 1 2)) else if has x 0 5 8 then some (.collAgath (fld x 20 4) (fld x 19 1 == 1) (fld x 15 4) (fld x 11 4) (fld x 5 6)) else if has x 3 2 2 && has x 0 1 0 then some (.collRscat (fld x 20 4) (fld x 19 1 == 1) (fld x 15 4) (fld x 11 4) (fld x 5 6) (fld x 1 2)) else none : Option Instr) = _
  subst hx
  rw [if_neg (by simp [has] <;> omega)]
  rw [if_neg (by simp [has] <;> omega)]
  rw [if_pos (by simp [has] <;> omega)]
  rw [fld_eq g _ _ (by omega), fld_bit neg _ _ (by omega), fld_eq zd _ _ (by omega), fld_eq zs _ _ (by omega), fld_eq sa _ _ (by omega), fld_eq op _ _ (by omega)]

theorem cwait (sd : SReg) (n : BitVec 4) : Statement (.cwait sd n) := by
  refine of_scalar rfl rfl ?_
  have := sd.isLt; have := n.isLt
  obtain ⟨x, hx⟩ : ∃ x, x = BitVec.ofNat 32 (0x64000000 + sd.toNat * 262144 + n.toNat) := ⟨_, rfl⟩
  have hop : x.toNat / 2 ^ 24 = 0x64 := by rw [hx, BitVec.toNat_ofNat]; omega
  rw [← hx]; unfold unpackScalar; rw [hop]
  change (if has x 4 14 0 then some (.cwait (fld x 18 6) (fld x 0 4)) else none : Option Instr) = _
  rw [if_pos]
  · rw [hx, fld_eq sd _ _ (by omega), fld_eq n _ _ (by omega)]
  · subst hx; simp [has] <;> omega

theorem scsrr (sd : SReg) (csr : BitVec 12) : Statement (.scsrr sd csr) := by
  refine of_scalar rfl rfl ?_
  have := sd.isLt; have := csr.isLt
  obtain ⟨x, hx⟩ : ∃ x, x = BitVec.ofNat 32 (0x70000000 + sd.toNat * 262144 + csr.toNat) := ⟨_, rfl⟩
  have hop : x.toNat / 2 ^ 24 = 0x70 := by rw [hx, BitVec.toNat_ofNat]; omega
  rw [← hx]; unfold unpackScalar; rw [hop]
  change (if has x 12 6 0 then some (.scsrr (fld x 18 6) (fld x 0 12)) else none : Option Instr) = _
  rw [if_pos]
  · rw [hx, fld_eq sd _ _ (by omega), fld_eq csr _ _ (by omega)]
  · subst hx; simp [has] <;> omega

theorem scsrw (ss : SReg) (csr : BitVec 12) : Statement (.scsrw ss csr) := by
  refine of_scalar rfl rfl ?_
  have := ss.isLt; have := csr.isLt
  obtain ⟨x, hx⟩ : ∃ x, x = BitVec.ofNat 32 (0x71000000 + ss.toNat * 262144 + csr.toNat) := ⟨_, rfl⟩
  have hop : x.toNat / 2 ^ 24 = 0x71 := by rw [hx, BitVec.toNat_ofNat]; omega
  rw [← hx]; unfold unpackScalar; rw [hop]
  change (if has x 12 6 0 then some (.scsrw (fld x 18 6) (fld x 0 12)) else none : Option Instr) = _
  rw [if_pos]
  · rw [hx, fld_eq ss _ _ (by omega), fld_eq csr _ _ (by omega)]
  · subst hx; simp [has] <;> omega

theorem strap (code : BitVec 18) : Statement (.strap code) := by
  refine of_scalar rfl rfl ?_
  have := code.isLt
  obtain ⟨x, hx⟩ : ∃ x, x = BitVec.ofNat 32 (0x72000000 + code.toNat) := ⟨_, rfl⟩
  have hop : x.toNat / 2 ^ 24 = 0x72 := by rw [hx, BitVec.toNat_ofNat]; omega
  rw [← hx]; unfold unpackScalar; rw [hop]
  change (if has x 18 6 0 then some (.strap (fld x 0 18)) else none : Option Instr) = _
  rw [if_pos]
  · rw [hx, fld_eq code _ _ (by omega)]
  · subst hx; simp [has] <;> omega

theorem stret : Statement .stret := of_scalar rfl rfl (by decide)

theorem snop : Statement .snop := of_scalar rfl rfl (by decide)

theorem sbrk (code : BitVec 18) : Statement (.sbrk code) := by
  refine of_scalar rfl rfl ?_
  have := code.isLt
  obtain ⟨x, hx⟩ : ∃ x, x = BitVec.ofNat 32 (0x75000000 + code.toNat) := ⟨_, rfl⟩
  have hop : x.toNat / 2 ^ 24 = 0x75 := by rw [hx, BitVec.toNat_ofNat]; omega
  rw [← hx]; unfold unpackScalar; rw [hop]
  change (if has x 18 6 0 then some (.sbrk (fld x 0 18)) else none : Option Instr) = _
  rw [if_pos]
  · rw [hx, fld_eq code _ _ (by omega)]
  · subst hx; simp [has] <;> omega

theorem iadd (w : LaneOps) : Statement (.iadd w) :=
  of_lane rfl rfl fun _ => unpackLaneWord_packLane 0x00 (by decide) w (by decide) (fun h => absurd h (by decide))

theorem isub (w : LaneOps) : Statement (.isub w) :=
  of_lane rfl rfl fun _ => unpackLaneWord_packLane 0x01 (by decide) w (by decide) (fun h => absurd h (by decide))

theorem imul (w : LaneOps) : Statement (.imul w) :=
  of_lane rfl rfl fun _ => unpackLaneWord_packLane 0x02 (by decide) w (by decide) (fun h => absurd h (by decide))

theorem imulh (w : LaneOps) : Statement (.imulh w) :=
  of_lane rfl rfl fun _ => unpackLaneWord_packLane 0x03 (by decide) w (by decide) (fun h => absurd h (by decide))

theorem imad (w : LaneOps) : Statement (.imad w) :=
  of_lane rfl rfl fun _ => unpackLaneWord_packLane 0x04 (by decide) w (by decide) (fun h => absurd h (by decide))

theorem imin (w : LaneOps) : Statement (.imin w) :=
  of_lane rfl rfl fun _ => unpackLaneWord_packLane 0x05 (by decide) w (by decide) (fun h => absurd h (by decide))

theorem imax (w : LaneOps) : Statement (.imax w) :=
  of_lane rfl rfl fun _ => unpackLaneWord_packLane 0x06 (by decide) w (by decide) (fun h => absurd h (by decide))

theorem iabs (w : LaneOps) : Statement (.iabs w) :=
  of_lane rfl rfl fun _ => unpackLaneWord_packLane 0x07 (by decide) w (by decide) (fun h => absurd h (by decide))

theorem vand (w : LaneOps) : Statement (.vand w) :=
  of_lane rfl rfl fun _ => unpackLaneWord_packLane 0x08 (by decide) w (by decide) (fun h => absurd h (by decide))

theorem vor (w : LaneOps) : Statement (.vor w) :=
  of_lane rfl rfl fun _ => unpackLaneWord_packLane 0x09 (by decide) w (by decide) (fun h => absurd h (by decide))

theorem vxor (w : LaneOps) : Statement (.vxor w) :=
  of_lane rfl rfl fun _ => unpackLaneWord_packLane 0x0A (by decide) w (by decide) (fun h => absurd h (by decide))

theorem blut (w : LaneOps) : Statement (.blut w) :=
  of_lane rfl rfl fun _ => unpackLaneWord_packLane 0x0B (by decide) w (by decide) (fun h => absurd h (by decide))

theorem shl (w : LaneOps) : Statement (.shl w) :=
  of_lane rfl rfl fun _ => unpackLaneWord_packLane 0x0C (by decide) w (by decide) (fun h => absurd h (by decide))

theorem shr (w : LaneOps) : Statement (.shr w) :=
  of_lane rfl rfl fun _ => unpackLaneWord_packLane 0x0D (by decide) w (by decide) (fun h => absurd h (by decide))

theorem sra (w : LaneOps) : Statement (.sra w) :=
  of_lane rfl rfl fun _ => unpackLaneWord_packLane 0x0E (by decide) w (by decide) (fun h => absurd h (by decide))

theorem rotr (w : LaneOps) : Statement (.rotr w) :=
  of_lane rfl rfl fun _ => unpackLaneWord_packLane 0x0F (by decide) w (by decide) (fun h => absurd h (by decide))

theorem popc (w : LaneOps) : Statement (.popc w) :=
  of_lane rfl rfl fun _ => unpackLaneWord_packLane 0x10 (by decide) w (by decide) (fun h => absurd h (by decide))

theorem clz (w : LaneOps) : Statement (.clz w) :=
  of_lane rfl rfl fun _ => unpackLaneWord_packLane 0x11 (by decide) w (by decide) (fun h => absurd h (by decide))

theorem brev (w : LaneOps) : Statement (.brev w) :=
  of_lane rfl rfl fun _ => unpackLaneWord_packLane 0x12 (by decide) w (by decide) (fun h => absurd h (by decide))

theorem bfx (w : LaneOps) : Statement (.bfx w) :=
  of_lane rfl rfl fun _ => unpackLaneWord_packLane 0x13 (by decide) w (by decide) (fun h => absurd h (by decide))

theorem bfi (w : LaneOps) : Statement (.bfi w) :=
  of_lane rfl rfl fun _ => unpackLaneWord_packLane 0x14 (by decide) w (by decide) (fun h => absurd h (by decide))

theorem icmp (w : LaneOps) : Statement (.icmp w) :=
  of_lane rfl rfl fun _ => unpackLaneWord_packLane 0x15 (by decide) w (by decide) (fun h => absurd h (by decide))

theorem sel (w : LaneOps) : Statement (.sel w) :=
  of_lane rfl rfl fun _ => unpackLaneWord_packLane 0x16 (by decide) w (by decide) (fun h => absurd h (by decide))

theorem mov (w : LaneOps) : Statement (.mov w) :=
  of_lane rfl rfl fun _ => unpackLaneWord_packLane 0x17 (by decide) w (by decide) (fun h => absurd h (by decide))

theorem movi (w : LaneOps) : Statement (.movi w) :=
  of_lane rfl rfl fun h => unpackLaneWord_packLane 0x18 (by decide) w (by decide) fun _ => by
    simp only [Instr.wf, Instr.shape?, Shape.ok, shapeMovi, Shape.base, Bool.and_eq_true, beq_iff_eq] at h
    exact h.1.1.1.1.1.1.1.2

theorem moviLong32 (vd : VReg) (q : PReg) (neg : Bool) (imm : BitVec 64) : Statement (.moviLong32 vd q neg imm) := by
  refine of_lane rfl rfl fun _ => ?_
  have := vd.isLt; have := q.isLt; have := imm.isLt; have := bitOf_le neg
  obtain ⟨w, hw⟩ : ∃ w, w = BitVec.ofNat 96 (0x1801 * 2 ^ 80 + vd.toNat * 2 ^ 69 + q.toNat * 2 ^ 65 + bitOf neg * 2 ^ 64
    + imm.toNat) := ⟨_, rfl⟩
  have hN : w.toNat = 0x1801 * 2 ^ 80 + vd.toNat * 2 ^ 69 + q.toNat * 2 ^ 65 + bitOf neg * 2 ^ 64 + imm.toNat := by
    rw [hw, BitVec.toNat_ofNat]; omega
  rw [← hw]; unfold unpackLaneWord; simp only []
  rw [if_neg (by omega)]
  rw [if_pos (by simp [has]; omega), fld_of_toNat vd w _ (by omega), fld_of_toNat q w _ (by omega),
    fld_bit_of_toNat neg w _ (by omega), fld_of_toNat imm w _ (by omega)]

theorem moviLong64 (vd : VReg) (q : PReg) (neg : Bool) (imm : BitVec 64) : Statement (.moviLong64 vd q neg imm) := by
  refine of_lane rfl rfl fun _ => ?_
  have := vd.isLt; have := q.isLt; have := imm.isLt; have := bitOf_le neg
  obtain ⟨w, hw⟩ : ∃ w, w = BitVec.ofNat 96 (0x1802 * 2 ^ 80 + vd.toNat * 2 ^ 69 + q.toNat * 2 ^ 65 + bitOf neg * 2 ^ 64
    + imm.toNat) := ⟨_, rfl⟩
  have hN : w.toNat = 0x1802 * 2 ^ 80 + vd.toNat * 2 ^ 69 + q.toNat * 2 ^ 65 + bitOf neg * 2 ^ 64 + imm.toNat := by
    rw [hw, BitVec.toNat_ofNat]; omega
  rw [← hw]; unfold unpackLaneWord; simp only []
  rw [if_neg (by omega)]
  rw [if_neg (by simp [has]; omega)]
  rw [if_pos (by simp [has]; omega), fld_of_toNat vd w _ (by omega), fld_of_toNat q w _ (by omega),
    fld_bit_of_toNat neg w _ (by omega), fld_of_toNat imm w _ (by omega)]

theorem sregr (w : LaneOps) : Statement (.sregr w) :=
  of_lane rfl rfl fun _ => unpackLaneWord_packLane 0x19 (by decide) w (by decide) (fun h => absurd h (by decide))

theorem fadd (w : LaneOps) : Statement (.fadd w) :=
  of_lane rfl rfl fun _ => unpackLaneWord_packLane 0x20 (by decide) w (by decide) (fun h => absurd h (by decide))

theorem fsub (w : LaneOps) : Statement (.fsub w) :=
  of_lane rfl rfl fun _ => unpackLaneWord_packLane 0x21 (by decide) w (by decide) (fun h => absurd h (by decide))

theorem fmul (w : LaneOps) : Statement (.fmul w) :=
  of_lane rfl rfl fun _ => unpackLaneWord_packLane 0x22 (by decide) w (by decide) (fun h => absurd h (by decide))

theorem ffma (w : LaneOps) : Statement (.ffma w) :=
  of_lane rfl rfl fun _ => unpackLaneWord_packLane 0x23 (by decide) w (by decide) (fun h => absurd h (by decide))

theorem fmin (w : LaneOps) : Statement (.fmin w) :=
  of_lane rfl rfl fun _ => unpackLaneWord_packLane 0x24 (by decide) w (by decide) (fun h => absurd h (by decide))

theorem fmax (w : LaneOps) : Statement (.fmax w) :=
  of_lane rfl rfl fun _ => unpackLaneWord_packLane 0x25 (by decide) w (by decide) (fun h => absurd h (by decide))

theorem fcmp (w : LaneOps) : Statement (.fcmp w) :=
  of_lane rfl rfl fun _ => unpackLaneWord_packLane 0x26 (by decide) w (by decide) (fun h => absurd h (by decide))

theorem fdiv (w : LaneOps) : Statement (.fdiv w) :=
  of_lane rfl rfl fun _ => unpackLaneWord_packLane 0x27 (by decide) w (by decide) (fun h => absurd h (by decide))

theorem fsqrt (w : LaneOps) : Statement (.fsqrt w) :=
  of_lane rfl rfl fun _ => unpackLaneWord_packLane 0x28 (by decide) w (by decide) (fun h => absurd h (by decide))

theorem frcp (w : LaneOps) : Statement (.frcp w) :=
  of_lane rfl rfl fun _ => unpackLaneWord_packLane 0x29 (by decide) w (by decide) (fun h => absurd h (by decide))

theorem frsq (w : LaneOps) : Statement (.frsq w) :=
  of_lane rfl rfl fun _ => unpackLaneWord_packLane 0x2A (by decide) w (by decide) (fun h => absurd h (by decide))

theorem fex2 (w : LaneOps) : Statement (.fex2 w) :=
  of_lane rfl rfl fun _ => unpackLaneWord_packLane 0x2B (by decide) w (by decide) (fun h => absurd h (by decide))

theorem flg2 (w : LaneOps) : Statement (.flg2 w) :=
  of_lane rfl rfl fun _ => unpackLaneWord_packLane 0x2C (by decide) w (by decide) (fun h => absurd h (by decide))

theorem fsin (w : LaneOps) : Statement (.fsin w) :=
  of_lane rfl rfl fun _ => unpackLaneWord_packLane 0x2D (by decide) w (by decide) (fun h => absurd h (by decide))

theorem fcos (w : LaneOps) : Statement (.fcos w) :=
  of_lane rfl rfl fun _ => unpackLaneWord_packLane 0x2E (by decide) w (by decide) (fun h => absurd h (by decide))

theorem fsinpi (w : LaneOps) : Statement (.fsinpi w) :=
  of_lane rfl rfl fun _ => unpackLaneWord_packLane 0x2F (by decide) w (by decide) (fun h => absurd h (by decide))

theorem fcospi (w : LaneOps) : Statement (.fcospi w) :=
  of_lane rfl rfl fun _ => unpackLaneWord_packLane 0x30 (by decide) w (by decide) (fun h => absurd h (by decide))

theorem ftanh (w : LaneOps) : Statement (.ftanh w) :=
  of_lane rfl rfl fun _ => unpackLaneWord_packLane 0x31 (by decide) w (by decide) (fun h => absurd h (by decide))

theorem fclass (w : LaneOps) : Statement (.fclass w) :=
  of_lane rfl rfl fun _ => unpackLaneWord_packLane 0x32 (by decide) w (by decide) (fun h => absurd h (by decide))

theorem frnd (w : LaneOps) : Statement (.frnd w) :=
  of_lane rfl rfl fun _ => unpackLaneWord_packLane 0x33 (by decide) w (by decide) (fun h => absurd h (by decide))

theorem cvt (w : LaneOps) : Statement (.cvt w) :=
  of_lane rfl rfl fun _ => unpackLaneWord_packLane 0x40 (by decide) w (by decide) (fun h => absurd h (by decide))

theorem pack (w : LaneOps) : Statement (.pack w) :=
  of_lane rfl rfl fun _ => unpackLaneWord_packLane 0x41 (by decide) w (by decide) (fun h => absurd h (by decide))

theorem unpack (w : LaneOps) : Statement (.unpack w) :=
  of_lane rfl rfl fun _ => unpackLaneWord_packLane 0x42 (by decide) w (by decide) (fun h => absurd h (by decide))

theorem brm (s0 s1 s2 s3 : BrmSlot) : Statement (.brm s0 s1 s2 s3) := by
  refine of_lane rfl rfl fun _ => ?_
  obtain ⟨q0, n0, o0⟩ := s0; obtain ⟨q1, n1, o1⟩ := s1; obtain ⟨q2, n2, o2⟩ := s2; obtain ⟨q3, n3, o3⟩ := s3
  have := q0.isLt; have := q1.isLt; have := q2.isLt; have := q3.isLt; have := o0.isLt; have := o1.isLt; have := o2.isLt
  have := o3.isLt; have := bitOf_le n0; have := bitOf_le n1; have := bitOf_le n2; have := bitOf_le n3
  simp only [BrmSlot.bits]
  obtain ⟨w, hw⟩ : ∃ w, w = BitVec.ofNat 96 (0x50 * 2 ^ 88 + (q0.toNat * 2 ^ 18 + bitOf n0 * 2 ^ 17 + o0.toNat) * 2 ^ 66
    + (q1.toNat * 2 ^ 18 + bitOf n1 * 2 ^ 17 + o1.toNat) * 2 ^ 44 + (q2.toNat * 2 ^ 18 + bitOf n2 * 2 ^ 17 + o2.toNat) * 2 ^ 22
    + (q3.toNat * 2 ^ 18 + bitOf n3 * 2 ^ 17 + o3.toNat)) := ⟨_, rfl⟩
  have hN : w.toNat = 0x50 * 2 ^ 88 + (q0.toNat * 2 ^ 18 + bitOf n0 * 2 ^ 17 + o0.toNat) * 2 ^ 66
    + (q1.toNat * 2 ^ 18 + bitOf n1 * 2 ^ 17 + o1.toNat) * 2 ^ 44 + (q2.toNat * 2 ^ 18 + bitOf n2 * 2 ^ 17 + o2.toNat) * 2 ^ 22
    + (q3.toNat * 2 ^ 18 + bitOf n3 * 2 ^ 17 + o3.toNat) := by rw [hw, BitVec.toNat_ofNat]; omega
  rw [← hw]; unfold unpackLaneWord; simp only [unpackSlot]
  rw [if_pos (by omega), fld_of_toNat q0 w _ (by omega), fld_of_toNat q1 w _ (by omega), fld_of_toNat q2 w _ (by omega),
    fld_of_toNat q3 w _ (by omega), fld_of_toNat o0 w _ (by omega), fld_of_toNat o1 w _ (by omega),
    fld_of_toNat o2 w _ (by omega), fld_of_toNat o3 w _ (by omega), fld_bit_of_toNat n0 w _ (by omega),
    fld_bit_of_toNat n1 w _ (by omega), fld_bit_of_toNat n2 w _ (by omega), fld_bit_of_toNat n3 w _ (by omega)]

theorem rcv (w : LaneOps) : Statement (.rcv w) :=
  of_lane rfl rfl fun _ => unpackLaneWord_packLane 0x51 (by decide) w (by decide) (fun h => absurd h (by decide))

theorem lend (w : LaneOps) : Statement (.lend w) :=
  of_lane rfl rfl fun _ => unpackLaneWord_packLane 0x52 (by decide) w (by decide) (fun h => absurd h (by decide))

theorem gset (w : LaneOps) : Statement (.gset w) :=
  of_lane rfl rfl fun _ => unpackLaneWord_packLane 0x53 (by decide) w (by decide) (fun h => absurd h (by decide))

theorem qlop (w : LaneOps) : Statement (.qlop w) :=
  of_lane rfl rfl fun _ => unpackLaneWord_packLane 0x54 (by decide) w (by decide) (fun h => absurd h (by decide))

theorem lnop (w : LaneOps) : Statement (.lnop w) :=
  of_lane rfl rfl fun _ => unpackLaneWord_packLane 0x55 (by decide) w (by decide) (fun h => absurd h (by decide))

theorem shfl (w : LaneOps) : Statement (.shfl w) :=
  of_lane rfl rfl fun _ => unpackLaneWord_packLane 0x60 (by decide) w (by decide) (fun h => absurd h (by decide))

theorem ballot (w : LaneOps) : Statement (.ballot w) :=
  of_lane rfl rfl fun _ => unpackLaneWord_packLane 0x61 (by decide) w (by decide) (fun h => absurd h (by decide))

theorem vote (w : LaneOps) : Statement (.vote w) :=
  of_lane rfl rfl fun _ => unpackLaneWord_packLane 0x62 (by decide) w (by decide) (fun h => absurd h (by decide))

theorem vmatch (w : LaneOps) : Statement (.vmatch w) :=
  of_lane rfl rfl fun _ => unpackLaneWord_packLane 0x63 (by decide) w (by decide) (fun h => absurd h (by decide))

theorem redux (w : LaneOps) : Statement (.redux w) :=
  of_lane rfl rfl fun _ => unpackLaneWord_packLane 0x64 (by decide) w (by decide) (fun h => absurd h (by decide))

theorem psum (w : LaneOps) : Statement (.psum w) :=
  of_lane rfl rfl fun _ => unpackLaneWord_packLane 0x65 (by decide) w (by decide) (fun h => absurd h (by decide))

theorem vtos (w : LaneOps) : Statement (.vtos w) :=
  of_lane rfl rfl fun _ => unpackLaneWord_packLane 0x66 (by decide) w (by decide) (fun h => absurd h (by decide))

theorem xchg (w : LaneOps) : Statement (.xchg w) :=
  of_lane rfl rfl fun _ => unpackLaneWord_packLane 0x67 (by decide) w (by decide) (fun h => absurd h (by decide))

theorem ld (w : LaneOps) : Statement (.ld w) :=
  of_lane rfl rfl fun _ => unpackLaneWord_packLane 0x70 (by decide) w (by decide) (fun h => absurd h (by decide))

theorem st (w : LaneOps) : Statement (.st w) :=
  of_lane rfl rfl fun _ => unpackLaneWord_packLane 0x71 (by decide) w (by decide) (fun h => absurd h (by decide))

theorem ldv (w : LaneOps) : Statement (.ldv w) :=
  of_lane rfl rfl fun _ => unpackLaneWord_packLane 0x72 (by decide) w (by decide) (fun h => absurd h (by decide))

theorem stv (w : LaneOps) : Statement (.stv w) :=
  of_lane rfl rfl fun _ => unpackLaneWord_packLane 0x73 (by decide) w (by decide) (fun h => absurd h (by decide))

theorem pref (w : LaneOps) : Statement (.pref w) :=
  of_lane rfl rfl fun _ => unpackLaneWord_packLane 0x74 (by decide) w (by decide) (fun h => absurd h (by decide))

theorem cwb (w : LaneOps) : Statement (.cwb w) :=
  of_lane rfl rfl fun _ => unpackLaneWord_packLane 0x75 (by decide) w (by decide) (fun h => absurd h (by decide))

theorem atom (w : LaneOps) : Statement (.atom w) :=
  of_lane rfl rfl fun _ => unpackLaneWord_packLane 0x80 (by decide) w (by decide) (fun h => absurd h (by decide))

theorem cas (w : LaneOps) : Statement (.cas w) :=
  of_lane rfl rfl fun _ => unpackLaneWord_packLane 0x81 (by decide) w (by decide) (fun h => absurd h (by decide))

theorem red (w : LaneOps) : Statement (.red w) :=
  of_lane rfl rfl fun _ => unpackLaneWord_packLane 0x82 (by decide) w (by decide) (fun h => absurd h (by decide))

theorem fatom (w : LaneOps) : Statement (.fatom w) :=
  of_lane rfl rfl fun _ => unpackLaneWord_packLane 0x83 (by decide) w (by decide) (fun h => absurd h (by decide))

theorem lres (w : LaneOps) : Statement (.lres w) :=
  of_lane rfl rfl fun _ => unpackLaneWord_packLane 0x84 (by decide) w (by decide) (fun h => absurd h (by decide))

theorem scond (w : LaneOps) : Statement (.scond w) :=
  of_lane rfl rfl fun _ => unpackLaneWord_packLane 0x85 (by decide) w (by decide) (fun h => absurd h (by decide))

theorem tld (w : LaneOps) : Statement (.tld w) :=
  of_lane rfl rfl fun _ => unpackLaneWord_packLane 0x90 (by decide) w (by decide) (fun h => absurd h (by decide))

theorem tst (w : LaneOps) : Statement (.tst w) :=
  of_lane rfl rfl fun _ => unpackLaneWord_packLane 0x91 (by decide) w (by decide) (fun h => absurd h (by decide))

theorem tmk (w : LaneOps) : Statement (.tmk w) :=
  of_lane rfl rfl fun _ => unpackLaneWord_packLane 0x92 (by decide) w (by decide) (fun h => absurd h (by decide))

theorem tget (w : LaneOps) : Statement (.tget w) :=
  of_lane rfl rfl fun _ => unpackLaneWord_packLane 0x93 (by decide) w (by decide) (fun h => absurd h (by decide))

theorem tset (w : LaneOps) : Statement (.tset w) :=
  of_lane rfl rfl fun _ => unpackLaneWord_packLane 0x94 (by decide) w (by decide) (fun h => absurd h (by decide))

theorem ttest (w : LaneOps) : Statement (.ttest w) :=
  of_lane rfl rfl fun _ => unpackLaneWord_packLane 0x95 (by decide) w (by decide) (fun h => absurd h (by decide))

theorem func (w : LaneOps) : Statement (.func w) :=
  of_lane rfl rfl fun _ => unpackLaneWord_packLane 0x9F (by decide) w (by decide) (fun h => absurd h (by decide))

theorem deref (w : LaneOps) : Statement (.deref w) :=
  of_lane rfl rfl fun _ => unpackLaneWord_packLane 0x96 (by decide) w (by decide) (fun h => absurd h (by decide))

theorem bind (w : LaneOps) : Statement (.bind w) :=
  of_lane rfl rfl fun _ => unpackLaneWord_packLane 0x98 (by decide) w (by decide) (fun h => absurd h (by decide))

theorem unify (w : LaneOps) : Statement (.unify w) :=
  of_lane rfl rfl fun _ => unpackLaneWord_packLane 0x97 (by decide) w (by decide) (fun h => absurd h (by decide))

theorem halloc (w : LaneOps) : Statement (.halloc w) :=
  of_lane rfl rfl fun _ => unpackLaneWord_packLane 0x99 (by decide) w (by decide) (fun h => absurd h (by decide))

theorem choice (w : LaneOps) : Statement (.choice w) :=
  of_lane rfl rfl fun _ => unpackLaneWord_packLane 0x9A (by decide) w (by decide) (fun h => absurd h (by decide))

theorem nextalt (w : LaneOps) : Statement (.nextalt w) :=
  of_lane rfl rfl fun _ => unpackLaneWord_packLane 0x9B (by decide) w (by decide) (fun h => absurd h (by decide))

theorem backtrack (w : LaneOps) : Statement (.backtrack w) :=
  of_lane rfl rfl fun _ => unpackLaneWord_packLane 0x9C (by decide) w (by decide) (fun h => absurd h (by decide))

theorem cut (w : LaneOps) : Statement (.cut w) :=
  of_lane rfl rfl fun _ => unpackLaneWord_packLane 0x9D (by decide) w (by decide) (fun h => absurd h (by decide))

theorem commit (w : LaneOps) : Statement (.commit w) :=
  of_lane rfl rfl fun _ => unpackLaneWord_packLane 0x9E (by decide) w (by decide) (fun h => absurd h (by decide))

theorem mma (w : LaneOps) : Statement (.mma w) :=
  of_lane rfl rfl fun _ => unpackLaneWord_packLane 0xA0 (by decide) w (by decide) (fun h => absurd h (by decide))

theorem mmai (w : LaneOps) : Statement (.mmai w) :=
  of_lane rfl rfl fun _ => unpackLaneWord_packLane 0xA1 (by decide) w (by decide) (fun h => absurd h (by decide))

theorem mzero (w : LaneOps) : Statement (.mzero w) :=
  of_lane rfl rfl fun _ => unpackLaneWord_packLane 0xA2 (by decide) w (by decide) (fun h => absurd h (by decide))

theorem mlda (w : LaneOps) : Statement (.mlda w) :=
  of_lane rfl rfl fun _ => unpackLaneWord_packLane 0xA3 (by decide) w (by decide) (fun h => absurd h (by decide))

theorem msta (w : LaneOps) : Statement (.msta w) :=
  of_lane rfl rfl fun _ => unpackLaneWord_packLane 0xA4 (by decide) w (by decide) (fun h => absurd h (by decide))

theorem mflag (w : LaneOps) : Statement (.mflag w) :=
  of_lane rfl rfl fun _ => unpackLaneWord_packLane 0xA5 (by decide) w (by decide) (fun h => absurd h (by decide))

theorem mflagc (w : LaneOps) : Statement (.mflagc w) :=
  of_lane rfl rfl fun _ => unpackLaneWord_packLane 0xA6 (by decide) w (by decide) (fun h => absurd h (by decide))

theorem mfence (w : LaneOps) : Statement (.mfence w) :=
  of_lane rfl rfl fun _ => unpackLaneWord_packLane 0xA7 (by decide) w (by decide) (fun h => absurd h (by decide))

theorem mwait (w : LaneOps) : Statement (.mwait w) :=
  of_lane rfl rfl fun _ => unpackLaneWord_packLane 0xA8 (by decide) w (by decide) (fun h => absurd h (by decide))

theorem mwaitn (w : LaneOps) : Statement (.mwaitn w) :=
  of_lane rfl rfl fun _ => unpackLaneWord_packLane 0xA9 (by decide) w (by decide) (fun h => absurd h (by decide))

theorem laneBlockStart (group : Nat) : Statement (.laneBlockStart group) := of_event rfl rfl

theorem guardedEntryDiscard (group : Nat) (queue : QueueKind) : Statement (.guardedEntryDiscard group queue) := of_event rfl rfl

theorem copyCommandStart (group : Nat) : Statement (.copyCommandStart group) := of_event rfl rfl

theorem engineCommandComplete (cmd : Nat) : Statement (.engineCommandComplete cmd) := of_event rfl rfl

theorem cpyqPush (cmd : Nat) : Statement (.cpyqPush cmd) := of_event rfl rfl

theorem mcastDelivery (cmd : Nat) (cluster : Nat) : Statement (.mcastDelivery cmd cluster) := of_event rfl rfl

theorem mcastComplete (cmd : Nat) : Statement (.mcastComplete cmd) := of_event rfl rfl

theorem fabricCommandStart (group : Nat) : Statement (.fabricCommandStart group) := of_event rfl rfl

theorem fabricPacketReceive (packet : Packet) : Statement (.fabricPacketReceive packet) := of_event rfl rfl

theorem fabricCommandComplete (cmd : Nat) (reply : FabricReply) : Statement (.fabricCommandComplete cmd reply) := of_event rfl rfl

theorem collCommandStart (group : Nat) : Statement (.collCommandStart group) := of_event rfl rfl

theorem collContributionReceive (set : Nat) (seq : BitVec 32) (rank : Nat) (data : Contribution) : Statement (.collContributionReceive set seq rank data) := of_event rfl rfl

theorem collInstanceComplete (cmd : Nat) : Statement (.collInstanceComplete cmd) := of_event rfl rfl

theorem collAbortReceive (set : Nat) (seq : BitVec 32) (nack : Bool) : Statement (.collAbortReceive set seq nack) := of_event rfl rfl

theorem matrixOpStart (core : Nat) (unit : Nat) : Statement (.matrixOpStart core unit) := of_event rfl rfl

theorem matrixOpComplete (op : Nat) : Statement (.matrixOpComplete op) := of_event rfl rfl

theorem batchComplete (group : Nat) : Statement (.batchComplete group) := of_event rfl rfl

theorem l1WriteRequestSend (l1 : Nat) (line : Nat) (group : Nat) : Statement (.l1WriteRequestSend l1 line group) := of_event rfl rfl

theorem homeWriteMerge (slice : Nat) (req : Nat) : Statement (.homeWriteMerge slice req) := of_event rfl rfl

theorem writeAck (req : Nat) : Statement (.writeAck req) := of_event rfl rfl

theorem homeRead (slice : Nat) (req : Nat) : Statement (.homeRead slice req) := of_event rfl rfl

theorem l1Fill (req : Nat) : Statement (.l1Fill req) := of_event rfl rfl

theorem visitorFill (req : Nat) : Statement (.visitorFill req) := of_event rfl rfl

theorem homeAtomic (slice : Nat) (req : Nat) : Statement (.homeAtomic slice req) := of_event rfl rfl

theorem pinRegistration (slice : Nat) (req : Nat) : Statement (.pinRegistration slice req) := of_event rfl rfl

theorem retryResend (req : Nat) : Statement (.retryResend req) := of_event rfl rfl

theorem racqDrainOrder (group : Nat) : Statement (.racqDrainOrder group) := of_event rfl rfl

theorem racqDrainReply (group : Nat) : Statement (.racqDrainReply group) := of_event rfl rfl

theorem sliceTokenRefill (slice : Nat) : Statement (.sliceTokenRefill slice) := of_event rfl rfl

theorem sliceRequestService (slice : Nat) : Statement (.sliceRequestService slice) := of_event rfl rfl

theorem correctedError (point : ErrorPoint) (unit : Nat) (pa : BitVec 52) : Statement (.correctedError point unit pa) := of_event rfl rfl

theorem errorCountInterval (slice : Nat) : Statement (.errorCountInterval slice) := of_event rfl rfl

theorem uncorrectableError (site : ErrorSite) : Statement (.uncorrectableError site) := of_event rfl rfl

theorem stackFailure (stack : Nat) : Statement (.stackFailure stack) := of_event rfl rfl

theorem linkFailure : Statement .linkFailure := of_event rfl rfl

theorem sectorFailure (sector : Nat) : Statement (.sectorFailure sector) := of_event rfl rfl

theorem islandFault (cluster : Nat) : Statement (.islandFault cluster) := of_event rfl rfl

theorem flitResend (port : Nat) (ok : Bool) : Statement (.flitResend port ok) := of_event rfl rfl

theorem fabricComplexFailure : Statement .fabricComplexFailure := of_event rfl rfl

theorem handlerEntryDeferred (group : Nat) : Statement (.handlerEntryDeferred group) := of_event rfl rfl

theorem fragmentWatchdog (group : Nat) : Statement (.fragmentWatchdog group) := of_event rfl rfl

theorem fairnessSwitch (group : Nat) : Statement (.fairnessSwitch group) := of_event rfl rfl

theorem preemptionRequest (group : Nat) : Statement (.preemptionRequest group) := of_event rfl rfl

theorem tenantTimeout (group : Nat) : Statement (.tenantTimeout group) := of_event rfl rfl

theorem groupRestore (group : Nat) : Statement (.groupRestore group) := of_event rfl rfl

theorem castSave (launch : Nat) (core : Nat) : Statement (.castSave launch core) := of_event rfl rfl

theorem castRestore (launch : Nat) (core : Nat) : Statement (.castRestore launch core) := of_event rfl rfl

theorem wgrowGrant (core : Nat) : Statement (.wgrowGrant core) := of_event rfl rfl

theorem wgrowDeadlockPreempt (core : Nat) : Statement (.wgrowDeadlockPreempt core) := of_event rfl rfl

theorem wfuseTimeout (group : Nat) : Statement (.wfuseTimeout group) := of_event rfl rfl

theorem xchgTimeout (group : Nat) : Statement (.xchgTimeout group) := of_event rfl rfl

theorem syieldResume (group : Nat) : Statement (.syieldResume group) := of_event rfl rfl

theorem schedulerRotation (launch : Nat) : Statement (.schedulerRotation launch) := of_event rfl rfl

theorem admissionPreempt (queue : Nat) : Statement (.admissionPreempt queue) := of_event rfl rfl

theorem callboardSlotRelease (slot : Nat) : Statement (.callboardSlotRelease slot) := of_event rfl rfl

theorem launchAdmit : Statement .launchAdmit := of_event rfl rfl

theorem groupDispatch (launch : Nat) : Statement (.groupDispatch launch) := of_event rfl rfl

theorem launchComplete (launch : Nat) : Statement (.launchComplete launch) := of_event rfl rfl

theorem contextTimeSlice (partition : Nat) : Statement (.contextTimeSlice partition) := of_event rfl rfl

theorem powerLimitUpdate (cluster : Nat) (limit : PowerLimit) (move : PowerMove) : Statement (.powerLimitUpdate cluster limit move) := of_event rfl rfl

theorem fadeStep (launch : Nat) : Statement (.fadeStep launch) := of_event rfl rfl

theorem energyUpdate (meters : Meters) : Statement (.energyUpdate meters) := of_event rfl rfl

theorem routerPowerDown (router : Nat) : Statement (.routerPowerDown router) := of_event rfl rfl

theorem routerWake (router : Nat) : Statement (.routerWake router) := of_event rfl rfl

theorem hostWrite (pa : BitVec 52) (bytes : List Byte) : Statement (.hostWrite pa bytes) := of_event rfl rfl

theorem deviceStart (failures : List (Nat × Nat)) : Statement (.deviceStart failures) := of_event rfl rfl

theorem invalidationDone : Statement .invalidationDone := of_event rfl rfl

theorem notifyStore (queue : Nat) (t : BitVec 32) : Statement (.notifyStore queue t) := of_event rfl rfl

theorem invctlGo : Statement .invctlGo := of_event rfl rfl

theorem freply (verdict : Bool) : Statement (.freply verdict) := of_event rfl rfl

theorem frconsWrite (v : BitVec 32) : Statement (.frconsWrite v) := of_event rfl rfl

theorem faultRingConfigWrite (size : Bool) (v : BitVec 64) : Statement (.faultRingConfigWrite size v) := of_event rfl rfl

theorem errconsWrite (v : BitVec 32) : Statement (.errconsWrite v) := of_event rfl rfl

theorem corerrRead (core : Nat) : Statement (.corerrRead core) := of_event rfl rfl

theorem enaccRead (partition : Nat) (entry : Nat) : Statement (.enaccRead partition entry) := of_event rfl rfl

theorem errlostRead : Statement .errlostRead := of_event rfl rfl

theorem imgctlGo : Statement .imgctlGo := of_event rfl rfl

theorem attctlGo : Statement .attctlGo := of_event rfl rfl

theorem fsrclr : Statement .fsrclr := of_event rfl rfl

theorem featenWrite (mask : BitVec 128) : Statement (.featenWrite mask) := of_event rfl rfl

theorem sliceRateWrite (slice : Nat) (context : Nat) (depthReg : Bool) (v : BitVec 32) : Statement (.sliceRateWrite slice context depthReg v) := of_event rfl rfl

theorem slwaysWrite (slice : Nat) (context : Nat) (v : BitVec 32) : Statement (.slwaysWrite slice context v) := of_event rfl rfl

theorem driverRegisterWrite (offset : Nat) (size : Nat) (v : BitVec 64) : Statement (.driverRegisterWrite offset size v) := of_event rfl rfl

theorem hostLinkRequest (write : Bool) (pa : BitVec 52) (bytes : List Byte) : Statement (.hostLinkRequest write pa bytes) := of_event rfl rfl

theorem contextTeardown (context : Nat) : Statement (.contextTeardown context) := of_event rfl rfl

theorem launchKill (launch : Nat) : Statement (.launchKill launch) := of_event rfl rfl

theorem sliceMoveComplete (slice : Nat) : Statement (.sliceMoveComplete slice) := of_event rfl rfl

theorem partitionPause (partition : Nat) : Statement (.partitionPause partition) := of_event rfl rfl

end Sys2Proof.Laws.Encoding
end

