-- ==== Sys2Proof/Tests/Slice0.lean ====
section
/-!
SUPPORT. Tests: words of the spec's examples, terms that the encoding checks refuse, single steps with results worked out
from the rules, and for each statement of the certificate a state and operands that meet its hypotheses.
-/
set_option Elab.async false
set_option maxRecDepth 100000
set_option exponentiation.threshold 2000

namespace Sys2Proof.Tests

open Sys2Proof Sys2Proof.Machine

/-! ### Words of the spec (R48 to R62), one or more of every family -/

theorem test_words_scalar_integer :
    decodeTableWord 32 0x101C6FFC = some (.saddi 7 6 0xFFC) ∧ decodeTableWord 32 0x192437AB = some (.slui 9 0x37AB)
      ∧ decodeTableWord 32 0x08509280 = some (.sxor 20 9 10) ∧ decodeTableWord 32 0x18402400 = some (.saddpi 16 2 0x400)
      ∧ decodeTableWord 32 0x0F502400 = some (.saddp 20 2 16) := by decide

theorem test_words_scalar_memory :
    decodeTableWord 32 0x262842C4 = some (.samo 10 4 11 0 4) ∧ decodeTableWord 32 0x272842C4 = some (.scas 10 4 11 4)
      ∧ decodeTableWord 32 0x28000900 = some (.fence 4 2) ∧ decodeTableWord 32 0x28000880 = some (.fence 4 1)
      ∧ decodeTableWord 32 0x28000B00 = some (.fence 5 2) ∧ decodeTableWord 32 0x25004800 = some (.sstrl 0 4 4 0)
      ∧ decodeTableWord 32 0x24304800 = some (.sldaq 12 4 4 0) ∧ decodeTableWord 32 0x24284A02 = some (.sldaq 10 4 5 2) := by
  decide

theorem test_words_scalar_control :
    decodeTableWord 32 0x31280FFE = some (.sbne 10 0 0xFFE) ∧ decodeTableWord 32 0x3A380FFB = some (.sbg 3 true 0xFFB)
      ∧ decodeTableWord 32 0x40300140 = some (.lrun 3 false 0x140) ∧ decodeTableWord 32 0x49000000 = some (.region 0)
      ∧ decodeTableWord 32 0x46500002 = some (.wsplit 20 2) ∧ decodeTableWord 32 0x475405A1 = some (.wfuse 21 0 0x5A1)
      ∧ decodeTableWord 32 0x70880006 = some (.scsrr 34 6) := by decide

theorem test_words_commands :
    decodeTableWord 32 0x50511900 = some (.cpy 5 false 2 3 8) ∧ decodeTableWord 32 0x51021B00 = some (.cpyq 0 false 4 3 24)
      ∧ decodeTableWord 32 0x57240045 = some (.qpop 9 1 5) ∧ decodeTableWord 32 0x5601C045 = some (.qpush 28 1 5)
      ∧ decodeTableWord 32 0x5C0D0002 = some (.zset 3 16 2) ∧ decodeTableWord 32 0x5E0CC010 = some (.mksetPre 3 12)
      ∧ decodeTableWord 32 0x55221B00 = some (.mcast 2 false 4 3 24) ∧ decodeTableWord 32 0x60310100 = some (.xput 3 false 2 8)
      ∧ decodeTableWord 32 0x61030180 = some (.xget 0 false 6 12) ∧ decodeTableWord 32 0x6302A180 = some (.collAred 0 false 5 4 12 0)
      ∧ decodeTableWord 32 0x6322A194 = some (.collRscat 2 false 5 4 12 2) ∧ decodeTableWord 32 0x62500000 = some (.xwait 20 0)
      ∧ decodeTableWord 32 0x64540000 = some (.cwait 21 0) := by decide

/-- A lane word's fields without modifiers. -/
def ops (fn : BitVec 8) (vd va vb vc : VReg) (type : BitVec 4) (imm : BitVec 14) : LaneOps :=
  ⟨fn, vd, va, vb, vc, 0, false, false, false, type, 0, 0, 0, 0, imm⟩

theorem test_words_lane_arithmetic :
    decodeTableWord 96 0x2300_0180_2405_00B2_3400_0000 = some (.ffma ⟨0, 12, 9, 10, 11, 2, false, false, true, 10, 0, 0, 0, 0, 0⟩)
      ∧ decodeTableWord 96 0x0001_00A0_1803_8000_0400_0000 = some (.iadd (ops 1 5 6 7 0 2 0))
      ∧ decodeTableWord 96 0x0C80_0280_5400_0000_0C00_0003 = some (.shl (ops 0x80 20 21 0 0 6 3))
      ∧ decodeTableWord 96 0x4001_0100_2400_0000_1800_000A = some (.cvt (ops 1 8 9 0 0 12 10)) := by decide

theorem test_words_lane_memory :
    decodeTableWord 96 0x7018_0060_1003_8001_AC00_0010 = some (.ld ⟨0x18, 3, 4, 7, 0, 1, true, false, true, 6, 0, 0, 0, 0, 16⟩)
      ∧ decodeTableWord 96 0x7100_0000_5000_0040_6C00_0040 = some (.st ⟨0, 0, 20, 0, 4, 0, false, true, true, 6, 0, 0, 0, 0, 0x40⟩)
      ∧ decodeTableWord 96 0x8018_0140_1003_80B0_2D30_0000
        = some (.atom ⟨0x18, 10, 4, 7, 11, 0, false, false, true, 6, 4, 3, 0, 0, 0⟩)
      ∧ decodeTableWord 96 0x8218_0000_1003_80B0_2C04_0000
        = some (.red ⟨0x18, 0, 4, 7, 11, 0, false, false, true, 6, 0, 0, 2, 0, 0⟩) := by decide

theorem test_words_lane_control :
    decodeTableWord 96 0x50100014_BFFFD080_00020000 = some (.brm ⟨1, false, 5⟩ ⟨2, true, 0x1FFFD⟩ ⟨0, true, 0⟩ ⟨0, true, 0⟩)
      ∧ decodeTableWord 96 0x5301_0000_0000_0000_0000_0035 = some (.gset (ops 1 0 0 0 0 0 0x35))
      ∧ decodeTableWord 96 0x6082_0120_2000_0000_0C00_0010 = some (.shfl (ops 0x82 9 8 0 0 6 16))
      ∧ decodeTableWord 96 0x6740_0140_2800_0280_0000_03C1 = some (.xchg (ops 0x40 10 10 0 40 0 0x3C1)) := by decide

theorem test_words_term_and_matrix :
    decodeTableWord 96 0x9700_0140_1003_0000_0000_0040 = some (.unify (ops 0 10 4 6 0 0 64))
      ∧ decodeTableWord 96 0x9E00_0180_0000_0000_0100_0000 = some (.commit ⟨0, 12, 0, 0, 0, 0, false, false, false, 0, 4, 0, 0, 0, 0⟩)
      ∧ decodeTableWord 96 0xA0C1_0200_500B_0000_0000_0FC4 = some (.mma (ops 0xC1 16 20 22 0 0 0xFC4))
      ∧ decodeTableWord 96 0xA1E2_0020_500B_0000_0000_0410 = some (.mmai (ops 0xE2 1 20 22 0 0 0x410))
      ∧ decodeTableWord 96 0xA500_0100_0000_0000_0000_0000 = some (.mflag (ops 0 8 0 0 0 0 0)) := by decide

/-- An unassigned opcode and a reserved bit are refused; an instruction's bytes are its words lowest first. -/
theorem test_words_refused_and_order :
    decodeTableWord 32 0x80000000 = none ∧ decodeTableWord 96 0xFF000000_00000000_00000000 = none
      ∧ decodeTableWord 32 0x28000901 = none
      ∧ encode (.saddi 7 6 0xFFC) = some [0xFC, 0x6F, 0x1C, 0x10]
      ∧ encode (.commit ⟨0, 12, 0, 0, 0, 0, false, false, false, 0, 4, 0, 0, 0, 0⟩)
        = some [0, 0, 0, 1, 0, 0, 0, 0, 0x80, 1, 0, 0x9E] := by decide

/-! ### The encoding checks (R62): for each check a term that it refuses beside one that it accepts -/

/-- Pairs of an accepted and a refused instruction. -/
def tells (xs : List (Instr × Instr)) : Bool := xs.all fun x => x.1.wf && !x.2.wf

/-- Scalar words: even pairs (R28), g0 with a negate bit (R72), g0 named by GNEW and GSETS, orders, scopes, operations. -/
theorem test_wf_scalar : tells
    [(.saddp 2 4 1, .saddp 3 4 1), (.saddp 2 4 1, .saddp 2 5 1), (.saddpi 2 4 1, .saddpi 2 5 1), (.sldp 2 4 0, .sldp 1 4 0)
     , (.sld 1 4 0, .sld 1 5 0), (.sst 1 4 0, .sst 1 5 0), (.sstp 2 4 0, .sstp 3 4 0), (.sjal 2 0, .sjal 1 0), (.sjr 2 4 0, .sjr 2 3 0)
     , (.sloop 1 0, .sloop 0 0), (.sbg 1 true 0, .sbg 0 true 0), (.lrun 1 true 0, .lrun 0 true 0), (.gnew 1, .gnew 0)
     , (.gsets 1 false 2, .gsets 0 false 2), (.fence 4 1, .fence 4 0), (.fence 4 1, .fence 6 1), (.samo 1 4 2 0 4, .samo 1 4 2 7 4)
     , (.scas 1 4 2 4, .scas 1 5 2 4), (.sldaq 1 4 4 0, .sldaq 1 4 7 0), (.sstrl 1 4 4 0, .sstrl 1 4 6 0)
     , (.sbfx 1 2 31 0, .sbfx 1 2 31 1), (.sbfi 1 2 31 0, .sbfi 1 2 31 1), (.collAred 0 false 5 4 12 0, .collAred 0 false 5 4 12 3)
     , (.collAred 0 false 5 4 12 0, .collAred 0 false 5 4 13 0)] = true := by decide

/-- Width, queues, commands, shape registers: ranges, quads, scopes, guards. -/
theorem test_wf_scalar_more : tells
    [(.racq 1 2, .racq 1 1), (.racq 1 5, .racq 1 6), (.lrunr 1 true 2, .lrunr 0 true 2), (.wsplit 1 2, .wsplit 1 3), (.wsplit 1 4, .wsplit 1 8)
     , (.wgrow 1, .wgrow 0), (.wgrow 2048, .wgrow 2049), (.cpy 1 true 2 3 8, .cpy 0 true 2 3 8), (.cpyq 1 true 2 3 8, .cpyq 1 true 2 3 9)
     , (.cpyq 1 true 2 3 8, .cpyq 0 true 2 3 8), (.cpys 1 true 2 8, .cpys 0 true 2 8), (.gath 1 true 2 3 4, .gath 0 true 2 3 4)
     , (.scat 1 true 2 3 4, .scat 0 true 2 3 4), (.mcast 1 true 2 3 8, .mcast 1 true 2 3 10), (.mcast 1 true 2 3 8, .mcast 0 true 2 3 8)
     , (.qpush 1 2 0, .qpush 1 3 0), (.qpop 1 2 0, .qpop 1 3 0), (.qtryPop 2 2 0, .qtryPop 2 3 0), (.qtryPop 2 2 0, .qtryPop 0 2 0)
     , (.qtryPop 2 2 0, .qtryPop 3 2 0), (.qtryPush 1 2 2 0, .qtryPush 1 2 3 0), (.qtryCount 2 0, .qtryCount 0 0)
     , (.qtryCount 2 0, .qtryCount 3 0), (.zld 1 2 0, .zld 1 3 0), (.zst 1 2 0, .zst 1 3 0), (.xput 1 true 2 8, .xput 1 true 2 10)
     , (.xput 1 true 2 8, .xput 0 true 2 8), (.xget 1 true 2 8, .xget 1 true 2 9), (.xget 1 true 2 8, .xget 0 true 2 8)
     , (.collAgath 1 true 2 3 8, .collAgath 1 true 2 3 9), (.collAgath 1 true 2 3 8, .collAgath 0 true 2 3 8)
     , (.collRscat 1 true 2 3 8 2, .collRscat 1 true 2 3 8 3), (.collRscat 1 true 2 3 8 2, .collRscat 0 true 2 3 8 2)
     , (.collRscat 1 true 2 3 8 2, .collRscat 1 true 2 3 9 2), (.brm ⟨1, true, 5⟩ ⟨0, true, 0⟩ ⟨0, true, 0⟩ ⟨0, true, 0⟩
       , .brm ⟨1, true, 5⟩ ⟨0, true, 1⟩ ⟨0, true, 0⟩ ⟨0, true, 0⟩), (.moviLong32 1 0 false 0xFFFFFFFF, .moviLong32 1 0 false 0x100000000)
     , (.moviLong64 2 0 false 1, .moviLong64 1 0 false 1)] = true := by decide

/-- Lane arithmetic: every field that the instruction does not use, each modifier bit, types, pairs, ranges (R54 to R60, R92 to R116). -/
theorem test_wf_lane_arithmetic : tells
    [(.iadd (ops 0 8 4 6 0 2 0), .iadd (ops 0 8 4 6 1 2 0)), (.iadd (ops 1 8 4 6 0 2 0), .iadd (ops 2 8 4 6 0 2 0))
     , (.iadd (ops 0x80 8 4 0 0 2 5), .iadd (ops 0x80 8 4 6 0 2 5)), (.iadd (ops 0 8 4 6 0 3 0), .iadd (ops 0 9 4 6 0 3 0))
     , (.iadd (ops 0 8 4 6 0 3 0), .iadd (ops 0 8 5 6 0 3 0)), (.iadd (ops 0 8 4 6 0 3 0), .iadd (ops 0 8 4 7 0 3 0))
     , (.iadd (ops 0 8 4 6 0 2 0), .iadd (ops 0 8 4 6 0 10 0)), (.iadd (ops 0 8 4 6 0 2 0), .iadd (ops 0 8 4 6 0 2 1))
     , (.iadd { ops 0 8 4 6 0 2 0 with ska := true }, .iadd { ops 0 8 64 6 0 2 0 with ska := true })
     , (.iadd { ops 0 8 4 6 0 3 0 with ska := true }, .iadd { ops 0 8 5 6 0 3 0 with ska := true })
     , (.iadd (ops 0 8 4 6 0 2 0), .iadd { ops 0 8 4 6 0 2 0 with scope := 1 })
     , (.iadd (ops 0 8 4 6 0 2 0), .iadd { ops 0 8 4 6 0 2 0 with order := 1 })
     , (.iadd (ops 0 8 4 6 0 2 0), .iadd { ops 0 8 4 6 0 2 0 with use := 1 })
     , (.iadd (ops 0 8 4 6 0 2 0), .iadd { ops 0 8 4 6 0 2 0 with rnd := 1 })
     , (.imad (ops 0 8 4 6 2 3 0), .imad (ops 0 8 4 6 3 3 0)), (.iabs (ops 0 8 4 0 0 2 0), .iabs (ops 0 8 4 0 0 6 0))
     , (.iabs (ops 0 8 4 0 0 2 0), .iabs (ops 0 8 4 1 0 2 0)), (.popc (ops 0 9 4 0 0 3 0), .popc (ops 0 9 5 0 0 3 0))
     , (.shl (ops 0x80 8 4 0 0 2 63), .shl (ops 0x80 8 4 0 0 2 64)), (.blut (ops 0 8 4 6 2 2 255), .blut (ops 0 8 4 6 2 2 256))
     , (.bfx (ops 0 8 4 0 0 2 0x7C0), .bfx (ops 0 8 4 0 0 2 0x7C1)), (.bfx (ops 1 8 4 0 2 2 0), .bfx (ops 0 8 4 0 2 2 0))
     , (.bfi (ops 0 8 4 6 0 2 0), .bfi (ops 2 8 4 6 0 2 0)), (.icmp (ops 5 8 4 6 0 2 0), .icmp (ops 6 8 4 6 0 2 0))
     , (.icmp (ops 0 15 4 6 0 2 0), .icmp (ops 0 16 4 6 0 2 0)), (.sel (ops 0 8 4 6 0 2 31), .sel (ops 0 8 4 6 0 2 32))
     , (.movi (ops 0 8 0 0 0 0 5), .movi (ops 0 8 1 0 0 0 5)), (.sregr (ops 0 8 0 0 0 0 7), .sregr (ops 0 8 0 0 0 0 8))
     , (.fadd (ops 0x0F 8 4 6 0 10 0), .fadd (ops 0x1F 8 4 6 0 10 0)), (.fadd (ops 0 8 4 6 0 10 0), .fadd (ops 0 8 4 6 0 2 0))
     , (.fadd { ops 0 8 4 6 0 10 0 with rnd := 5 }, .fadd { ops 0 8 4 6 0 10 0 with rnd := 6 })
     , (.fmin (ops 0 8 4 6 0 10 0), .fmin { ops 0 8 4 6 0 10 0 with rnd := 1 }), (.fcmp (ops 0 8 4 6 0 10 7), .fcmp (ops 0 8 4 6 0 10 8))
     , (.frcp (ops 0 8 4 0 0 10 0), .frcp (ops 0 8 4 0 0 11 0)), (.fclass (ops 0 9 4 0 0 11 0), .fclass (ops 0 9 5 0 0 11 0))
     , (.cvt (ops 0 8 4 0 0 2 10), .cvt (ops 0 8 4 0 0 2 2)), (.cvt (ops 0 8 4 0 0 2 10), .cvt (ops 0 8 4 0 0 2 26))
     , (.cvt { ops 0 8 4 0 0 2 10 with rnd := 1 }, .cvt { ops 0 8 4 0 0 2 1 with rnd := 1 })
     , (.pack (ops 0 8 4 6 0 8 10), .pack (ops 0 8 4 6 0 8 11)), (.pack (ops 0 8 4 6 0 8 10), .pack (ops 2 8 4 6 0 8 10))
     , (.unpack (ops 0 8 4 0 0 10 8), .unpack (ops 0 9 4 0 0 10 8)), (.unpack (ops 0 8 4 0 0 10 8), .unpack (ops 0 8 4 0 0 10 1))
    ] = true := by decide

/-- Control, cross-lane and memory instructions (R121 to R135, R177 to R183, R269, R299 to R307). -/
theorem test_wf_lane_control_memory : tells
    [(.rcv (ops 0 0 0 0 0 0 1), .rcv (ops 0 0 0 0 0 0 0)), (.lend (ops 0 0 0 0 0 0 0), .lend { ops 0 0 0 0 0 0 0 with q := 1 })
     , (.gset (ops 2 0 0 0 0 0 1), .gset (ops 3 0 0 0 0 0 1)), (.gset (ops 0 0 0 0 0 0 1), .gset (ops 0 0 0 0 0 0 0x10))
     , (.qlop (ops 0 15 4 6 0 0 15), .qlop (ops 0 15 4 6 0 0 16)), (.qlop (ops 0 15 4 6 0 0 0), .qlop (ops 0 15 16 6 0 0 0))
     , (.lnop (ops 0 0 0 0 0 0 0), .lnop { ops 0 0 0 0 0 0 0 with uni := true }), (.shfl (ops 0x83 8 4 0 0 2 127), .shfl (ops 0x83 8 4 0 0 2 128))
     , (.shfl (ops 0 8 4 6 0 2 0), .shfl (ops 4 8 4 6 0 2 0)), (.shfl (ops 0 8 4 6 0 2 0), .shfl (ops 0 8 4 6 0 1 0))
     , (.ballot (ops 0 8 0 0 0 0 31), .ballot (ops 0 8 0 0 0 0 32)), (.vote (ops 3 8 0 0 0 0 0), .vote (ops 4 8 0 0 0 0 0))
     , (.vmatch (ops 0 8 4 0 0 3 0), .vmatch (ops 0 8 5 0 0 3 0)), (.redux (ops 6 8 4 0 0 2 0), .redux (ops 6 8 4 0 0 3 0))
     , (.redux (ops 2 8 4 0 0 10 0), .redux (ops 3 8 4 0 0 10 0)), (.psum (ops 8 8 4 0 0 2 0), .psum (ops 16 8 4 0 0 2 0))
     , (.vtos (ops 0 62 4 0 0 3 0), .vtos (ops 0 63 4 0 0 3 0)), (.xchg (ops 0x40 8 4 0 10 0 0), .xchg (ops 0x40 8 4 0 9 0 0))
     , (.ld (ops 0 8 4 0 0 2 0), .ld (ops 0 8 5 0 0 2 0)), (.ld (ops 0x20 8 5 0 0 2 0), .ld (ops 0x40 8 4 0 0 2 0))
     , (.ld (ops 0x18 8 4 6 0 2 0), .ld (ops 8 8 4 0 0 2 0)), (.ld (ops 0 8 4 0 0 7 0), .ld (ops 0 8 4 0 0 8 0))
     , (.ld { ops 0 8 4 0 0 2 0 with order := 1, scope := 5 }, .ld { ops 0 8 4 0 0 2 0 with order := 1, scope := 6 })
     , (.ld { ops 1 8 4 0 0 2 0 with order := 1, scope := 2 }, .ld { ops 1 8 4 0 0 2 0 with order := 1, scope := 3 })
     , (.ld { ops 1 8 4 0 0 2 0 with order := 1 }, .ld { ops 2 8 4 0 0 2 0 with order := 1 })
     , (.ld (ops 0 8 4 0 0 2 0), .ld { ops 0 8 4 0 0 2 0 with order := 2 }), (.st (ops 0 0 4 0 3 2 0), .st (ops 0 1 4 0 3 2 0))
     , (.ldv (ops 0xC0 8 4 0 0 0 0), .ldv (ops 0xC0 7 4 0 0 0 0)), (.stv (ops 0 0 4 0 2 0 0), .stv (ops 0 0 4 0 3 0 0))
     , (.pref (ops 0x40 0 4 0 0 0 0), .pref (ops 0x80 0 4 0 0 0 0)), (.cwb (ops 0 0 4 0 0 0 0), .cwb (ops 1 0 4 0 0 0 0))
     , (.atom (ops 0 8 4 0 2 2 0x1800), .atom (ops 0 8 4 0 2 2 0x1C00)), (.atom (ops 1 8 4 0 2 2 0), .atom (ops 2 8 4 0 2 2 0))
     , (.atom { ops 0 8 4 0 2 2 0 with use := 4 }, .atom { ops 0 8 4 0 2 2 0x1800 with use := 4 })
     , (.cas (ops 0 8 4 0 2 2 0), .cas (ops 0 8 4 0 2 2 0x400)), (.cas { ops 0 8 4 0 2 2 0 with use := 1 }, .cas { ops 0 8 4 0 2 2 0 with use := 2 })
     , (.red { ops 0 0 4 0 2 2 0 with use := 2 }, .red { ops 0 0 4 0 2 2 0 with use := 2, order := 2 })
     , (.red { ops 0 0 4 0 2 2 0 with order := 2 }, .red { ops 0 0 4 0 2 2 0 with order := 1 })
     , (.fatom (ops 0 8 4 0 2 10 0x800), .fatom (ops 0 8 4 0 2 10 0xC00)), (.fatom (ops 0 8 4 0 2 10 0), .fatom (ops 0 8 4 0 2 2 0))
     , (.lres (ops 0 8 4 0 0 2 0), .lres (ops 1 8 4 0 0 2 0)), (.lres (ops 0 8 4 0 0 2 0), .lres { ops 0 8 4 0 0 2 0 with uni := true })
     , (.scond { ops 0 8 4 0 2 2 0 with order := 2 }, .scond { ops 0 8 4 0 2 2 0 with order := 1 })] = true := by decide

/-- Terms and matrix operations (R152 to R168, R224 to R245). -/
theorem test_wf_term_matrix : tells
    [(.tld (ops 0x18 8 4 6 0 0 0), .tld (ops 0x20 8 4 0 0 0 0)), (.tld (ops 0 8 4 0 0 0 0), .tld (ops 0 9 4 0 0 0 0))
     , (.tst (ops 0 0 4 0 2 0 0), .tst (ops 0 0 4 0 3 0 0)), (.tmk (ops 0 8 4 0 0 0 15), .tmk (ops 0 8 4 0 0 0 16))
     , (.tmk (ops 0x80 8 0 0 0 0 16), .tmk (ops 0x80 8 4 0 0 0 16)), (.tget (ops 8 8 0 0 0 0 0), .tget (ops 9 8 0 0 0 0 0))
     , (.tget (ops 4 9 0 0 0 0 0), .tget (ops 5 9 0 0 0 0 0)), (.tset (ops 3 0 4 6 0 0 0), .tset (ops 4 0 4 6 0 0 0))
     , (.tset (ops 0 8 4 0 0 0 0), .tset (ops 0 9 4 0 0 0 0)), (.ttest (ops 0 15 4 0 0 0 15), .ttest (ops 0 15 4 0 0 0 16))
     , (.func (ops 2 9 4 0 0 0 0), .func (ops 1 9 4 0 0 0 0)), (.func (ops 3 8 4 7 0 0 0), .func (ops 2 8 4 7 0 0 0))
     , (.deref (ops 0 8 4 0 0 0 0), .deref (ops 1 8 4 0 0 0 0)), (.bind (ops 0 9 4 6 0 0 0), .bind (ops 0 9 4 7 0 0 0))
     , (.unify (ops 1 8 4 6 0 0 1), .unify (ops 1 8 4 6 0 0 0)), (.halloc (ops 1 8 0 0 0 0 1), .halloc (ops 1 8 0 0 0 0 0))
     , (.choice (ops 1 0 4 0 0 0 0), .choice (ops 0 0 4 0 0 0 0)), (.nextalt (ops 0 0 0 0 0 0 9), .nextalt (ops 1 0 0 0 0 0 9))
     , (.backtrack (ops 0 15 0 0 0 0 0), .backtrack (ops 0 16 0 0 0 0 0)), (.cut (ops 1 0 0 0 0 0 0), .cut (ops 1 0 4 0 0 0 0))
     , (.commit { ops 0 8 0 0 0 0 0 with scope := 5 }, .commit { ops 0 8 0 0 0 0 0 with scope := 6 })
     , (.mma (ops 0xEF 8 4 6 2 0 0), .mma (ops 0x10 8 4 6 2 0 0)), (.mma (ops 0x80 8 4 6 2 0 0), .mma (ops 0x80 8 5 6 2 0 0))
     , (.mma (ops 0 8 4 6 13 0 0), .mma (ops 0 8 4 6 14 0 0)), (.mma (ops 0 8 4 6 2 0 15), .mma (ops 0 8 4 6 2 0 16))
     , (.mmai (ops 0 8 4 6 2 0 16), .mmai (ops 0 8 4 6 2 0 0x2000)), (.mzero (ops 0 8 0 0 0 0 15), .mzero (ops 0 8 0 0 0 0 16))
     , (.mlda (ops 0x80 8 4 0 0 10 15), .mlda (ops 0 8 4 0 0 10 15)), (.mlda (ops 0 8 4 0 0 10 0), .mlda (ops 0 8 4 0 0 11 0))
     , (.msta (ops 0xC0 8 4 0 0 10 0), .msta (ops 0x20 8 4 0 0 10 0)), (.mflag (ops 1 15 4 0 0 0 15), .mflag (ops 1 16 4 0 0 0 0))
     , (.mflag (ops 1 15 4 0 0 0 15), .mflag (ops 0 15 4 0 0 0 15)), (.mflagc (ops 0 8 0 0 0 0 0), .mflagc (ops 1 8 0 0 0 0 0))
     , (.mfence (ops 0 0 0 0 0 0 0), .mfence (ops 0 0 0 0 0 0 1)), (.mwait (ops 0 0 0 0 0 0 15), .mwait (ops 0 0 0 0 0 0 16))
     , (.mwaitn (ops 0 0 0 0 0 0 15), .mwaitn (ops 0 0 0 0 0 0 16))] = true := by decide

/-! ### The states of the tests -/

/-- The package with one group of 8 threads and 16 registers on core 0, between two instructions. -/
def lab : State := { State.reset.withGroup false with agenda := [] }
/-- The same group inside a lane block. -/
def lanes : State := { State.reset.withGroup true with agenda := [] }
/-- A group of 32 threads inside a lane block. -/
def wide : State := lanes.upd fun g => { g with w := 32, lane := .start 32 (BitVec.ofNat 64 firstPc) .none }

/-- Scalar registers set. -/
def withS (s : State) (xs : List (Nat × Word)) : State := s.upd fun g => xs.foldl (fun (g : Group) x => g.wrS x.1 x.2) g
/-- Registers of thread 0 set. -/
def withV (s : State) (xs : List (Nat × Word)) : State := xs.foldl (fun (s : State) x => s.wrV 0 x.1 x.2) s
/-- The page of `firstPc` in the group's L1: its first line holds these bytes, every word RAW. -/
def warm (s : State) (bytes : Nat) : State :=
  s.setL1 0 { s.l1 0 with lines := (s.l1 0).lines.set none (firstPc / 128) (some { (s.l1 0).newLine with
    data := BitVec.ofNat 1024 bytes, valid := BitVec.allOnes 128, tags := 0, tagKnown := 0xFFFF }) }
/-- The next state of an outcome. -/
def after (a : Ans) : State :=
  match a with
  | .next t => t
  | _ => State.reset
/-- The launch's cast on core 0. -/
def cast0 : Cast := ⟨0, 0, 0, 0, 524288, 0, none⟩
/-- The group in handler mode after a trap of its scalar or its lane stream. -/
def inHandler (s : State) (lane : Bool) (running : Bool) : State :=
  let h : Handler :=
    { regs := [], tags := [], preds := [], scalars := [], readLatch := 0, writeLatch := 0
      lane := if running then .start s.grp.w 0 .none else .idle s.grp.w, marks := [], waitQueue := none
      trap := ⟨cSWTRAP, s.grp.pc, 5, lane, 0, false⟩, scalarPc := s.grp.pc }
  s.upd fun g => { g with handler := some h }

/-! ### Witnesses: for each statement with hypotheses, states and operands that meet them, clause by clause -/

theorem test_witness_ScalarPairResultFrame : evenReg 0 = true ∧ evenReg 62 = true := by decide

theorem test_witness_ScalarImmediateArithmetic :
    (0#5).toNat + (31#5).toNat + 1 ≤ 32 ∧ (31#5).toNat + (0#5).toNat + 1 ≤ 32 ∧ 32 < (1#5).toNat + (31#5).toNat + 1
      ∧ (evenReg 2 && evenReg 0) = true ∧ (evenReg 3 && evenReg 0) = false := by decide

theorem test_witness_ControlTransfer :
    evenReg 0 = true ∧ evenReg 4 = true ∧ evenReg 63 = false ∧ (1 : SReg) ≠ 0 ∧ lab.grp.guard 0 = .resolved true ∧ ¬((0 : Slot) = 0 ∧ false = true)
      ∧ (lab.upd fun g => { g with guards := g.guards.set (.resolved true) 5 .pending }).grp.guard 5 = .pending := by decide

/-- A group with entries in its three queues: bound to slot g5, bound to another, decided. -/
def queued : State := lab.upd fun g => { g with
  guards := g.guards.set (.resolved true) 5 .pending
  laneQ := [⟨.bound 5 true, 0, .none⟩, ⟨.decided true, 1, .none⟩, ⟨.bound 6 false, 2, .none⟩]
  copyQ := [⟨.bound 5 false, .cpy none, 0, 0⟩], fabQ := [⟨.bound 5 true, .transfer true 0 1 0, 0⟩] }

theorem test_witness_GuardSlots :
    (1 : Slot) ≠ 0 ∧ lab.grp.guard 1 = .resolved true ∧ queued.grp.guard 5 = .pending
      ∧ (queued.grp.resolve 5 true).laneQ.map (·.guard) = [.decided false, .decided true, .bound 6 false]
      ∧ (queued.grp.resolve 5 true).copyQ.map (·.guard) = [.decided true]
      ∧ (queued.grp.resolve 5 true).fabQ.map (·.guard) = [.decided false] := by decide

/-- A group with `n` blocks queued. -/
def full (n : Nat) : State := lab.upd fun g => { g with laneQ := List.replicate n ⟨.decided true, 0, .none⟩ }

theorem test_witness_LaneBlocks :
    ¬((0 : Slot) = 0 ∧ false = true) ∧ ¬((1 : Slot) = 0 ∧ true = true) ∧ (1 : Slot) ≠ 0 ∧ lab.grp.handler = none ∧ (full 15).grp.laneQ.length < 16 ∧ 16 ≤ (full 16).grp.laneQ.length
      ∧ (inHandler lab false false).grp.handler.any (fun h => !h.lane.running) = true
      ∧ (inHandler lab false true).grp.handler.any (fun h => h.lane.running) = true
      ∧ lab.grp.lane.running = false ∧ lab.grp.laneQ = [] ∧ lanes.grp.lane.running = true ∧ (full 1).grp.laneQ ≠ [] := by decide

/-- A group of 64 threads. -/
def broad : State := lab.upd fun g => { g with w := 64, lane := .idle 64, origin := [(0, 0, 64)] }
/-- Two groups of 8 threads, the second waiting in WFUSE under tag 7. -/
def fusing : State :=
  let s := lab.upd fun g => { g with origin := [(0, 0, 8)], groupCount := 2 }
  s.setGroup 1 { s.grp with groupId := 1, place := 1, datapath := 1, rwb := 512, origin := [(1, 0, 8)], fuse := some ⟨7, 0, 3⟩ }

theorem test_witness_WidthInstructions :
    lab.grp.widthReady = true ∧ (full 1).grp.widthReady = false ∧ ((2 : BitVec 18) = 2 ∨ (2 : BitVec 18) = 4)
      ∧ (lab.splitCheck 2).isSome = true ∧ broad.grp.widthReady = true ∧ broad.splitCheck 2 = none
      ∧ lab.grp.fuse = none ∧ lab.fusePartner 7 = none ∧ (∃ k f, fusing.fusePartner 7 = some (k, f)) ∧ fusing.grp.fuse = none
      ∧ fusing.grp.widthReady = true ∧ (1 : SReg) ≠ 0 ∧ lab.sreg 1 = 0 ∧ (withS lab [(1, 9)]).sreg 1 ≠ 0
      ∧ (withS lab [(1, 9)]).fusePartner 7 = none
      ∧ 0 < (16 : BitVec 18).toNat ∧ (2048 : BitVec 18).toNat ≤ 2048 ∧ lab.grp.effect = false
      ∧ lab.grp.w * roundN 2048 * 4 ≤ lab.registerArea lab.grp.core ∧ roundN 16 ≤ lab.grp.n ∧ lab.grp.n < roundN 17
      ∧ lab.grp.matIdle = true ∧ (lab.core lab.grp.core).growers = [] ∧ (lab.upd fun g => { g with effect := true }).grp.effect = true
      ∧ 0 < 2 ∧ 1 < 2 ∧ 2 ∣ broad.grp.w := by
  refine ⟨by decide, by decide, by decide, by decide, by decide, by decide, by decide, by decide, ⟨1, ⟨7, 0, 3⟩, by decide⟩, ?_⟩
  decide

/-- The launch's record changed. -/
def withRecord (s : State) (f : LaunchRecord → LaunchRecord) : State :=
  s.setLaunch 0 (some { firstLaunch with record := f firstLaunch.record })
/-- A region table of one entry at `firstPc`, whose bytes are zero. -/
def tabled : State := withRecord lab fun r => { r with rtlen := 1, rtab := BitVec.ofNat 64 firstPc }

theorem test_witness_RegionsAndExit :
    tabled.grp.syncIdle = true ∧ (tabled.recordOf tabled.grp).rtlen ≤ (1 : BitVec 18).toNat
      ∧ (0 : BitVec 18).toNat < (tabled.recordOf tabled.grp).rtlen ∧ tabled.regionWord tabled.grp (32 * 0 + 10) 2 = .ok 0 ∧ 0 ≤ 4
      ∧ (full 1).grp.syncIdle = false ∧ lab.grp.handler = none ∧ lab.grp.laneIdle = true ∧ lab.grp.copyQ = [] ∧ lab.grp.fabQ = []
      ∧ lab.grp.engOut = 0 ∧ lab.grp.unack = 0 ∧ lab.grp.matIdle = true := by
  refine ⟨by decide, by decide, by decide, rfl, ?_⟩
  decide

/-- The base pair s4:s5 at `firstPc`, with the first line in the L1 and its page open to stores and atomics. -/
def loaded (bytes : Nat) : State :=
  warm (withS { lab with tlb := [⟨0, firstPc / 2 ^ 16, BitVec.ofNat 64 (firstPc + 0xBF), false⟩] } [(4, BitVec.ofNat 32 firstPc)]) bytes
/-- The same with the first word poisoned. -/
def poisonedWord : State :=
  (loaded 0).setL1 0 { (loaded 0).l1 0 with lines := ((loaded 0).l1 0).lines.set none (firstPc / 128) (some { ((loaded 0).l1 0).newLine with
    valid := BitVec.allOnes 128, tags := 14, tagKnown := 0xFFFF }) }

/-- The L1's line at `firstPc`, as the group reads it. -/
def lineAt (s : State) : Line := ((s.l1 0).lines.get none (firstPc / 128)).getD (s.l1 0).newLine

/-- The whole first line may be read. -/
theorem loaded_holds (s : State) (x : Line) (n : Nat) (hn : 0 < n) (h : n ≤ 128) (hl : s.l1Of s.grp.core = 0)
    (hx : (s.l1 0).lines.get none (firstPc / 128) = some x)
    (hb : ∀ i < 128, ((s.l1 0).readable false x).getLsbD i = true)
    (ht : ∀ i < 16, ((s.l1 0).knownTags false x).getLsbD i = true ∧ BitVec.ofNat 4 (x.tags.toNat / 2 ^ (4 * i)) ≠ tagPOI) :
    s.Holds firstPc n x := by
  have h0 : firstPc % 128 = 0 := by decide
  refine ⟨by rw [hl]; exact hx, ?_, ?_⟩
  · intro i _ h2; rw [hl]; exact hb i (by omega)
  · intro i _ h2; rw [hl]; exact ht i (by omega)

theorem test_witness_ScalarLoads_bytes :
    let e := BitVec.ofNat 64 firstPc
    let s := loaded 0x1122334455667788
    s.spair 4 + sext (0 : BitVec 9) * BitVec.ofNat 64 64 = e
      ∧ s.Reaches e 4 aRead firstPc true ∧ s.Reaches e 8 aRead firstPc true ∧ s.Reaches e 64 aRead firstPc true
      ∧ s.Holds firstPc 4 (lineAt s) ∧ s.Holds firstPc 8 (lineAt s) ∧ s.Holds firstPc 64 (lineAt s) := by
  have hold : ∀ n, 0 < n → n ≤ 128 → (loaded 0x1122334455667788).Holds firstPc n (lineAt (loaded 0x1122334455667788)) := fun n a b =>
    loaded_holds _ _ n a b (by decide) (by rfl) (by decide) (by decide)
  exact ⟨by decide, by constructor <;> decide, by constructor <;> decide, by constructor <;> decide,
    hold 4 (by decide) (by decide), hold 8 (by decide) (by decide), hold 64 (by decide) (by decide)⟩

/-- The same page with nothing of it in the L1. -/
def cold : State := (loaded 0).setL1 0 { (loaded 0).l1 0 with lines := [] }

theorem test_witness_ScalarLoads_miss :
    cold.Reaches (BitVec.ofNat 64 firstPc) 4 aRead firstPc true ∧ (cold.l1 (cold.l1Of cold.grp.core)).lines.get none (firstPc / 128) = none :=
  ⟨by constructor <;> decide, by decide⟩

/-- One access of thread 0 at `firstPc`. -/
def acc0 : Acc := ⟨0, 0, 0, firstPc, BitVec.ofNat 64 firstPc, true, 1, 0, none⟩
/-- An access of an instruction, number 3, on its way. -/
def access (scalar : Bool) (i : Instr) (c : Acc) : Access := ⟨3, scalar, false, i, BitVec.ofNat 64 firstPc, 0, [c], none⟩
/-- A state with one access on its way. -/
def onWay (s : State) (a : Access) : State := s.upd fun g => { g with accesses := [a] }

theorem test_witness_ScalarLoads_landing :
    let s := fun (i : Instr) => onWay (loaded 0x1122334455667788) (access true i acc0)
    let is := [Instr.sld 5 4 0, .sldp 6 4 0, .zld 1 4 0]
    (∀ i ∈ is, (s i).grp.life = .resident ∧ (s i).grp.accesses.find? (fun y => y.id == 3) = some (access true i acc0)
      ∧ (s i).accWaits (access true i acc0) acc0 = false ∧ ((s i).l1 0).sweeping = false ∧ (s i).l1Of (s i).grp.core = 0)
      ∧ acc0.atom = none ∧ acc0.at_ % 128 + 64 ≤ 128 ∧ ∀ n, 0 < n → n ≤ 64 → ∀ i ∈ is, (s i).Holds firstPc n (lineAt (s i)) := by
  refine ⟨by decide, by decide, by decide, ?_⟩
  intro n h1 h2 i hi
  rcases hi with _ | ⟨_, _ | ⟨_, _ | ⟨_, h⟩⟩⟩
  · exact loaded_holds _ _ n h1 (by omega) (by decide) (by rfl) (by decide) (by decide)
  · exact loaded_holds _ _ n h1 (by omega) (by decide) (by rfl) (by decide) (by decide)
  · exact loaded_holds _ _ n h1 (by omega) (by decide) (by rfl) (by decide) (by decide)
  · cases h

/-- Past a load that misses the stream goes on, its register held until the line comes (R65, R70). -/
theorem test_sld_goes_on :
    let t := after (exec (.sld 7 4 0) cold)
    t.grp.pc = lab.grp.pc + 4 ∧ t.scalarHeld (.sadd 6 7 0) = true ∧ t.scalarHeld (.sst 6 4 0) = false ∧ t.grp.rdS 7 = 0
      ∧ ((onWay (loaded 9) (access true (.sld 7 4 0) acc0)).runAccess 0 3).grp.rdS 7 = 9 := by decide

theorem test_witness_ScalarLoads :
    let e := BitVec.ofNat 64 firstPc
    let s := loaded 0x1122334455667788
    evenReg 4 = true ∧ evenReg 6 = true
      ∧ (∃ t ts, s.checkAccess 0 e 4 false = .ok t ∧ s.loadAt s.grp t 4 = .ok 0x55667788 ts)
      ∧ (∃ t ts, s.checkAccess 0 e 8 false = .ok t ∧ s.loadAt s.grp t 8 = .ok 0x1122334455667788 ts)
      ∧ (∃ t ts, s.checkAccess 0 e 64 false = .ok t ∧ s.loadAt s.grp t 64 = .ok 0x1122334455667788 ts)
      ∧ s.spair 4 + sext (0 : BitVec 9) * BitVec.ofNat 64 4 = e
      ∧ (BitVec.ofNat 64 (firstPc + 1)).toNat % 4 ≠ 0 ∧ (BitVec.ofNat 64 (firstPc + 4)).toNat % 8 ≠ 0
      ∧ (∃ t i, poisonedWord.checkAccess 0 e 4 false = .ok t ∧ poisonedWord.loadAt poisonedWord.grp t 4 = .poison i)
      ∧ (∃ t k, s.checkAccess 0 0x40000000 4 false = .ok t ∧ s.loadAt s.grp t 4 = .fault k)
      ∧ s.xlate s.grp e aRead = .ok firstPc true ∧ isView firstPc = false ∧ firstPc % 128 + 128 ≤ 128 := by
  refine ⟨by decide, by decide, ⟨_, _, rfl, rfl⟩, ⟨_, _, rfl, rfl⟩, ⟨_, _, rfl, rfl⟩, ?_⟩
  refine ⟨by decide, by decide, by decide, ⟨_, _, rfl, rfl⟩, ⟨_, _, rfl, rfl⟩, by decide⟩

theorem test_witness_ScalarStores :
    let e := BitVec.ofNat 64 firstPc
    let s := loaded 0
    evenReg 4 = true ∧ evenReg 6 = true
      ∧ (∃ g t, s.checkAccess 0 e 4 true = .ok g ∧ s.storeAt g 4 7 (.set 0) = .ok t)
      ∧ (∃ g t, s.checkAccess 0 e 8 true = .ok g ∧ s.storeAt g 8 7 (.set 0) = .ok t)
      ∧ (∃ g t, s.checkAccess 0 e 64 true = .ok g ∧ s.storeAt g 64 7 (.set 0) = .ok t)
      ∧ (BitVec.ofNat 64 (firstPc + 2)).toNat % 4 ≠ 0
      ∧ s.xlate s.grp (BitVec.ofNat 64 (firstPc + 124)) aWrite = .ok (firstPc + 124) true ∧ (firstPc + 124) % 128 + 4 ≤ 128 := by
  refine ⟨by decide, by decide, ⟨_, _, rfl, rfl⟩, ⟨_, _, rfl, rfl⟩, ⟨_, _, rfl, rfl⟩, by decide, rfl, by decide⟩

theorem test_witness_ScalarStores_tags :
    let s := loaded 0
    let g : Target := ⟨0, 0, firstPc, BitVec.ofNat 64 firstPc⟩
    (∃ t, s.storeAt g 4 7 .keep = .ok t) ∧ (∃ t, s.storeAt g 8 7 (.word 3) = .ok t)
      ∧ s.xlate s.grp g.e aWrite = .ok firstPc true ∧ ((TagMode.word 3).onPage true).tag = some 3 ∧ (TagMode.keep.onPage true).tag = none :=
  ⟨⟨_, rfl⟩, ⟨_, rfl⟩, by decide⟩

theorem test_witness_ScalarStores_bytes :
    let e := BitVec.ofNat 64 firstPc
    let s := loaded 0
    s.grp.unack < unackMax ∧ s.Reaches e 4 aWrite firstPc true ∧ s.Reaches e 8 aWrite firstPc true ∧ s.Reaches e 64 aWrite firstPc true :=
  ⟨by decide, by constructor <;> decide, by constructor <;> decide, by constructor <;> decide⟩

/-- The partition that owns everything, so that the group's core has an owner. -/
def owned : State := { loaded 0 with driver := { (loaded 0).driver with
  parts := [0, 1, 2, 3, 4, 5, 6, 7, 8].map fun u => (u, BitVec.allOnes 64) } }
/-- An atomic of the scalar stream whose request, number 7, has left. -/
def asked : State := onWay (loaded 0) { access true (.samo 5 4 6 0 4) acc0 with sent := some 7 }
/-- The first line pinned to the L1. -/
def pinnedLine : State := (loaded 0).setL1 0 { (loaded 0).l1 0 with pins := [firstPc / 128] }

theorem test_witness_ScalarOrdering :
    let e := BitVec.ofNat 64 firstPc
    let s := loaded 5
    s.grp.fellS = false ∧ s.grp.acqS = none ∧ s.grp.unack = 0 ∧ s.grp.syncIdle = true ∧ (0 : BitVec 3).toNat < 2 ∧ (1 : BitVec 3).toNat < 2
      ∧ s.grp.relS = none ∧ (1 : BitVec 3).toNat < 6 ∧ s.clamped 1 = false ∧ s.clamped 5 = false ∧ s.readsOut s.grp = false
      ∧ (s.l1 (s.l1Of s.grp.core)).pins = [] ∧ s.unpinsOut (s.l1Of s.grp.core) = false ∧ s.unsentIn (s.l1Of s.grp.core) = false
      ∧ s.writesBefore (s.l1Of s.grp.core) s.fresh = false ∧ s.hostView = [] ∧ s.grp.accesses = []
      ∧ (s.l1 (s.l1Of s.grp.core)).sweeping = false ∧ s.acksOut (s.l1Of s.grp.core) = false ∧ (s.l1 0).c < 63 ∧ (s.l1 0).s < 63
      ∧ pinnedLine.grp.unack = 0 ∧ pinnedLine.grp.syncIdle = true ∧ pinnedLine.readsOut pinnedLine.grp = false
      ∧ unpinScope (pinnedLine.l1Of pinnedLine.grp.core) ≤ 5 ∧ (pinnedLine.l1 (pinnedLine.l1Of pinnedLine.grp.core)).pins ≠ []
      ∧ evenReg 4 = true ∧ s.grp.answer = none ∧ (∃ t ts, s.checkAccess 0 e 4 false = .ok t ∧ s.loadAt s.grp t 4 = .ok 5 ts)
      ∧ (∃ g t, s.checkAccess 0 e 4 true = .ok g ∧ releasingStore s g 0 4 7 (.set 0) = .ok t)
      ∧ (6 : BitVec 3) ≠ 7 ∧ (∃ g, s.checkAccess 0 e 4 true = .ok g) ∧ s.xlate s.grp e aAtomic = .ok firstPc true ∧ isView firstPc = false
      ∧ (BitVec.ofNat 64 (firstPc + 2)).toNat % 4 ≠ 0
      ∧ asked.grp.accesses.find? (fun y => y.sent == some 7) = some { access true (.samo 5 4 6 0 4) acc0 with sent := some 7 }
      ∧ lab.feature 17 = true ∧ 2 ≤ (2 : BitVec 3).toNat ∧ (4 : BitVec 3).toNat < 5 ∧ 48 ≤ (withS lab [(1, 48)]).sreg 1
      ∧ (withS owned [(1, 0)]).sreg 1 = BitVec.ofNat 32 owned.grp.core ∧ owned.grp.core < 48
      ∧ owned.foreignCore owned.grp.core = false ∧ owned.grp.racq = 0
      ∧ owned.grp.acqS = none ∧ (∃ t, owned.acquire 2 false = .done t) ∧ (∃ t, owned.acquire 4 false = .done t) := by
  repeat (refine ⟨by decide, ?_⟩)
  refine ⟨⟨_, _, rfl, rfl⟩, ⟨_, _, rfl, rfl⟩, by decide, ⟨_, rfl⟩, ?_⟩
  repeat (refine ⟨by decide, ?_⟩)
  exact ⟨⟨_, rfl⟩, ⟨_, rfl⟩⟩

theorem test_witness_ScalarOrdering_racq :
    owned.grp.fellS = false ∧ (owned.l1 (owned.l1Of owned.grp.core)).sweeping = false ∧ owned.acksOut (owned.l1Of owned.grp.core) = false ∧ (owned.l1 0).c < 63 ∧ (owned.l1 0).h < 63
      ∧ (owned.l1 0).p < 63 := by decide

/-- s1 names a core; cluster 2 belongs to partition 5 alone. -/
def leased (core : Word) : State :=
  { withS owned [(1, core)] with driver := { owned.driver with
    featEn := 0x3FFFF, parts := (0, ~~~4) :: owned.driver.parts.drop 1 ++ [(80, 4)] } }

theorem test_witness_ScalarOrdering_cores :
    let other := leased 9
    let free := leased 16
    (other.sreg 1).toNat < 48 ∧ other.foreignCore (other.sreg 1).toNat = true
      ∧ (free.sreg 1).toNat < 48 ∧ free.foreignCore (free.sreg 1).toNat = false ∧ free.grp.racq = 0 ∧ (∃ t, free.acquire 2 false = .done t)
      ∧ ∀ x ∈ free.launches, ∀ l, x.2 = some l → ∀ c ∈ l.casts, c.core ≠ (free.sreg 1).toNat := by
  refine ⟨by decide, by decide, by decide, by decide, by decide, ⟨_, rfl⟩, ?_⟩
  intro x hx l hl c hc
  have h : (leased 16).launches = [(0, some firstLaunch)] := rfl
  rw [h] at hx
  obtain rfl := List.mem_singleton.mp hx
  cases hl
  obtain rfl := List.mem_singleton.mp (show c ∈ [cast0] from hc)
  decide

/-- A descriptor of one 4-byte element: scratch where `space` is 1, GLOBAL where it is 0 (R225). -/
def tensor (space : Nat) : BitVec 512 := BitVec.ofNat 512 (2 + 16 * space + 0x80 + 2 ^ 64 * firstPc)
/-- Descriptors in z2 to z5, register block s8 on. -/
def described (z2 z3 z4 : BitVec 512) (xs : List (Nat × Word)) : State :=
  (withS lab xs).upd fun g => { g with zs := [(2, z2), (3, z3), (4, z4)] }
/-- A descriptor of rows (R250). -/
def rowsOf (space : Nat) : BitVec 512 := tensor space ||| 0x1000

theorem test_witness_CopyCommands :
    let s := described (tensor 1) (tensor 0) (tensor 0) [(9, 0x100)]
    let r := described (tensor 1) (rowsOf 0) (tensor 0) []
    let bad := described 0 (tensor 0) 0 []
    s.grp.engOut < 512 ∧ s.grp.copyQ.length < 16 ∧ ¬((1 : Slot) = 0 ∧ true = true)
      ∧ (tensorOk (s.zreg 2) = true ∧ tensorOk (s.zreg 3) = true) ∧ evenReg 8 = true
      ∧ zfield (s.zreg 2) 6 2 ≠ 3 ∧ tensorOk (s.zreg 2 ||| 0x40) = true ∧ zfield (s.zreg 2 ||| 0x40) 6 2 = 3
      ∧ tensorOk (r.zreg 2) = true ∧ indexedOk (r.zreg 3) (r.zreg 4) = true ∧ tensorOk (r.zreg 4) = true
      ∧ s.feature 9 = true ∧ (8 : SReg).toNat % 4 = 0 ∧ zfield (s.zreg 2) 4 2 = 1 ∧ (s.grp.rdS 9).toNat / 256 % 4096 ≠ 0
      ∧ (s.grp.rdS 9).toNat / 2 ^ 22 = 0 ∧ (s.grp.rdS 9).toNat / 64 % 4 = 0 ∧ (s.grp.rdS 10).toNat % 4 = 0
      ∧ tensorOk (bad.zreg 2) = false ∧ 512 ≤ (s.upd fun g => { g with engOut := 512 }).grp.engOut := by
  decide

theorem test_witness_FabricCommands :
    let s := described (tensor 0) (tensor 0) (tensor 0) [(8, 0x002001)]
    let c := described (tensor 0) (tensor 0) (tensor 0) [(8, 0x2001)]
    ¬((1 : Slot) = 0 ∧ true = true) ∧ s.grp.engOut < 512 ∧ s.grp.fabQ.length < 16 ∧ s.feature 10 = true ∧ (8 : SReg).toNat % 4 = 0
      ∧ s.grp.fabOut < 64 ∧ transferOk (s.zreg 2) (s.grp.rdS 8) = true
      ∧ c.feature 11 = true ∧ evenReg 8 = true ∧ c.grp.collOut < 8 ∧ collOk (c.zreg 3) (c.zreg 4) (c.grp.rdS 8) = true
      ∧ (2 : BitVec 2) ≠ 3 := by decide

theorem test_witness_CommandWaits :
    lab.grp.engOut ≤ (0 : BitVec 18).toNat ∧ (0 : BitVec 18).toNat < (lab.upd fun g => { g with engOut := 1 }).grp.engOut
      ∧ lab.feature 10 = true ∧ lab.grp.fabOut ≤ (0 : BitVec 7).toNat ∧ (63 : BitVec 7).toNat < (lab.upd fun g => { g with fabOut := 64 }).grp.fabOut
      ∧ lab.feature 11 = true ∧ lab.grp.collOut ≤ (0 : BitVec 4).toNat ∧ (7 : BitVec 4).toNat < (lab.upd fun g => { g with collOut := 8 }).grp.collOut
      ∧ State.feature { lab with driver := { lab.driver with featEn := 0 } } 10 = false := by decide

/-- A ring of `n` slots at offset 0 of the cast's scratch as queue 3, `filled` of them with handles. -/
def ringed (n filled : Nat) (lost : Bool) (launch : Nat) : State :=
  lab.setQueue 0 3 (some { id := 1, launch := launch, offset := 0, slots := n, head := 0, tail := filled % n, filled := filled
                           free := n - filled, lost := lost, ended := false })

theorem test_witness_QueueBinding :
    let s := withS lab [(1, 0), (2, 256), (6, 257), (7, 2)]
    lab.castOn lab.grp.launch lab.grp.core = some cast0 ∧ s.castOn s.grp.launch s.grp.core = some cast0
      ∧ (s.sreg 2).toNat ≤ 256 ∧ (s.sreg 2).toNat ≠ 0 ∧ (s.sreg 1).toNat % 4 = 0
      ∧ (s.sreg 1).toNat + 4 * (s.sreg 2).toNat ≤ cast0.scratchSize ∧ s.queue? s.grp.core 3 = none
      ∧ 256 < (s.sreg 6).toNat ∧ ((ringed 4 0 false 7).queue? 0 3).any (fun y => y.launch != (ringed 4 0 false 7).grp.launch) = true
      ∧ (ringed 4 0 false 7).castOn 0 0 = some cast0
      ∧ (s.sreg 7).toNat % 4 ≠ 0 ∧ cast0.scratchSize < 524285 + 4 * 1 ∧ (s.sreg 0).toNat = 0
      ∧ ((ringed 4 0 false 0).queue? 0 3).all (fun y => y.launch == (ringed 4 0 false 0).grp.launch) = true := by decide

/-- A lock over the ring, and a poisoned word at its head. -/
def slotLocked : State :=
  let s := ringed 4 1 false 0
  s.setCore 0 { s.core 0 with locks := [(0, some ⟨1, 1, 0, 0, 4, true⟩)] }
def slotPoisoned : State :=
  let s := ringed 4 1 false 0
  s.setCore 0 { s.core 0 with scratchTags := [(0, tagPOI)] }

theorem test_witness_QueueInstructions :
    let s := ringed 4 1 false 0
    let y : Queue := ⟨1, 0, 0, 4, 0, 1, 1, 3, false, false⟩
    s.grp.waitQueue = none ∧ s.grp.answer = none ∧ s.grp.fellS = false ∧ s.grp.acqS = none ∧ s.grp.unack = 0 ∧ s.grp.syncIdle = true
      ∧ s.readsOut s.grp = false ∧ (1 : BitVec 3).toNat < 2 ∧ s.queue? s.grp.core 3 = some y ∧ y.launch = s.grp.launch ∧ y.free ≠ 0 ∧ y.lost = false ∧ y.filled ≠ 0
      ∧ ((ringed 4 4 false 0).queue? 0 3).any (fun y => y.free == 0) = true
      ∧ ((ringed 4 0 false 0).queue? 0 3).any (fun y => y.filled == 0 && !y.lost) = true
      ∧ ((ringed 4 1 true 0).queue? 0 3).any (fun y => y.lost) = true ∧ evenReg 62 = true ∧ (62 : SReg) ≠ 0
      ∧ s.slotCheck 0 y y.tail true = none ∧ s.slotCheck 0 y y.head false = none
      ∧ slotLocked.slotCheck 0 y y.tail true ≠ none ∧ slotLocked.slotCheck 0 y y.head false ≠ none
      ∧ slotPoisoned.slotCheck 0 y y.head false = some (cPOISON, poisonInfo 1 0) := by decide

theorem test_witness_SpecialRegisterReads :
    0x15 < (0x16 : BitVec 12).toNat ∧ (0x15 : BitVec 12).toNat = 0x15 ∧ (1 : BitVec 12).toNat = 1 ∧ (0 : BitVec 12).toNat = 0 ∧ (2 : BitVec 12).toNat = 2 ∧ (4 : BitVec 12).toNat = 4 ∧ (0xA : BitVec 12).toNat = 0xA
      ∧ (lab.launch? lab.grp.launch).isSome = true := by decide

theorem test_witness_SpecialRegisterWrites :
    let live := lab.upd fun g => g.setThread 0 { Thread.start with wtop := 1 }
    lab.grp.wingsLive = false ∧ live.grp.wingsLive = true ∧ lab.wingSizeOk 0 = true ∧ lab.wingSizeOk 8 = true ∧ lab.wingSizeOk 3 = false
      ∧ lab.wingSizeOk 9 = false ∧ (7 : BitVec 12).toNat < 8 := by decide

/-- A launch with a handler at word 1 of its section. -/
def guarded : State := withRecord lab fun r => { r with trapent := 1 }
/-- Another group of the datapath is in handler mode. -/
def rival : State := guarded.setGroup 1 { (inHandler guarded false false).grp with groupId := 1, place := 1 }

theorem test_witness_TrapEntry :
    let c : TrapInfo := ⟨cSWTRAP, 0x100000, 5, false, 0, false⟩
    (guarded.group 0).handler = none ∧ (guarded.recordOf (guarded.group 0)).trapent ≠ 0 ∧ guarded.windowBusy 0 = false
      ∧ (guarded.group 0).otherBusy c = false ∧ (guarded.group 0).deferred = none ∧ (guarded.group 0).parked = none
      ∧ (guarded.group 0).otherBusy { c with lane := true } = false ∧ (guarded.group 0).otherBusy { c with late := true } = false := by
  decide

theorem test_witness_HeldAndFatalTraps :
    let c : TrapInfo := ⟨cSWTRAP, 0x100000, 5, false, 0, false⟩
    let p : TrapInfo := ⟨cPOISON, 0x100000, poisonInfo 3 0, true, 0, false⟩
    let mid := (withRecord lanes fun r => { r with trapent := 1 }).upd fun g => { g with lane := g.lane.setIssued 0 true }
    let held := guarded.upd fun g => { g with parked := some ⟨none, 0, 0, 0, true, 0, 0⟩ }
    (rival.group 0).handler = none ∧ (rival.recordOf (rival.group 0)).trapent ≠ 0 ∧ rival.windowBusy 0 = true
      ∧ (rival.group 0).deferred = none ∧ c.cause ≠ cPOISON ∧ p.cause = cPOISON ∧ p.info.toNat / 2 ^ 61 = 3 ∧ ((onWay guarded (access true (.sld 5 4 0) acc0)).group 0).otherBusy p = true
      ∧ (mid.group 0).otherBusy { c with late := true } = true ∧ (mid.group 0).otherBusy c = true ∧ mid.windowBusy 0 = false
      ∧ (held.group 0).parked.isSome = true
      ∧ (guarded.launch? 0).any (fun l => l.ending.isNone) = true ∧ (inHandler guarded false false).grp.handler.isSome = true
      ∧ (lab.launch? 0).any (fun l => l.record.trapent == 0 && l.ending.isNone) = true ∧ lab.grp.handler = none := by decide

theorem test_witness_TrapReturn :
    lab.grp.handler = none ∧ (inHandler lab false true).grp.handler.any (fun h => h.lane.running) = true
      ∧ (inHandler lab false false).grp.handler.any (fun h => !h.lane.running && h.trap.cause != cWATCHDOG && !h.trap.lane) = true
      ∧ (inHandler lanes true false).grp.handler.any (fun h => !h.lane.running && h.trap.lane) = true
      ∧ (inHandler lab false false).grp.watchdogPc ≠ some (inHandler lab false false).grp.trapPc
      ∧ (inHandler lab false false).grp.accesses = []
      ∧ (onWay (inHandler lab false false) (access true (.sld 5 4 0) acc0)).grp.accesses ≠ [] := by decide

/-- In handler mode after a lane trap that a late step met. -/
def lateHandler : State := (inHandler lanes true false).upd fun g =>
  { g with trapPc := g.pc, handler := g.handler.map fun h => { h with trap := { h.trap with late := true } } }

/-- In handler mode after a scalar trap that a late access met, TRAPPC moved past it. -/
def lateScalar : State := (inHandler lab false false).upd fun g =>
  { g with trapPc := g.pc + 4, handler := g.handler.map fun h => { h with trap := { h.trap with late := true } } }

theorem test_witness_TrapReturn_late :
    lateScalar.grp.handler.any (fun h => !h.lane.running && h.trap.late && !h.trap.lane && lateScalar.grp.trapPc == h.trap.pc + 4) = true ∧
    lateHandler.grp.handler.any (fun h => !h.lane.running && h.trap.cause != cWATCHDOG && h.trap.late && lateHandler.grp.trapPc == h.trap.pc) = true
      ∧ (inHandler lanes true false).grp.lates = [] ∧ (inHandler lab false false).grp.lates = []
      ∧ (inHandler lanes true false).grp.handler.any (fun h => !h.trap.late
          && (lanes.grp.lane.frags.get Fragment.none h.trap.frag).mask != 0) = true := by decide

/-- `State.Issues` and `State.Clean` as tests. -/
def issues (s : State) (i : Instr) : Bool := (s.laneIllegal i).isNone && (s.scoreboard i).isNone
def clean (s : State) (w : LaneOps) (i : Instr) : Bool := (s.firstPoison (s.active w) i.sources).isNone

theorem issues_iff (s : State) (i : Instr) : issues s i = true ↔ s.Issues i := by
  simp [issues, State.Issues, Option.isNone_iff_eq_none]
theorem clean_iff (s : State) (w : LaneOps) (i : Instr) : clean s w i = true ↔ s.Clean w i := by
  simp [clean, State.Clean, Option.isNone_iff_eq_none]

/-- Every instruction of a list issues in `s` and reads no poisoned register, with threads active. -/
def runIn (s : State) (xs : List (Instr × LaneOps)) : Bool :=
  xs.all fun x => issues s x.1 && clean s x.2 x.1 && !(s.active x.2).isEmpty

theorem test_witness_LaneIntegerArithmetic :
    runIn lanes
      [(.iadd (ops 0 8 4 6 0 2 0), ops 0 8 4 6 0 2 0), (.isub (ops 0 8 4 6 0 2 0), ops 0 8 4 6 0 2 0)
     , (.imul (ops 0 8 4 6 0 2 0), ops 0 8 4 6 0 2 0), (.imulh (ops 0 8 4 6 0 2 0), ops 0 8 4 6 0 2 0)
     , (.imad (ops 0 8 4 6 2 2 0), ops 0 8 4 6 2 2 0), (.imin (ops 0 8 4 6 0 2 0), ops 0 8 4 6 0 2 0)
     , (.imax (ops 0 8 4 6 0 2 0), ops 0 8 4 6 0 2 0), (.iabs (ops 0 8 4 0 0 2 0), ops 0 8 4 0 0 2 0)
     , (.mov (ops 0 8 4 0 0 2 0), ops 0 8 4 0 0 2 0), (.sregr (ops 0 8 0 0 0 0 0), ops 0 8 0 0 0 0 0)
     , (.movi (ops 0 8 0 0 0 0 0), ops 0 8 0 0 0 0 0)] = true
      ∧ runIn lanes [(.iadd (ops 1 14 4 6 0 7 0), ops 1 14 4 6 0 7 0), (.imulh (ops 0 14 4 6 0 7 0), ops 0 14 4 6 0 7 0)] = true
      ∧ issues lanes (.moviLong32 15 0 false 0xFFFFFFFF) = true ∧ issues lanes (.moviLong64 14 0 false 1) = true
      ∧ issues lanes (.moviLong64 15 0 false 1) = false ∧ issues lanes (.moviLong32 16 0 false 0) = false := by decide

theorem test_witness_LaneBitInstructions :
    runIn lanes
      [(.vand (ops 0 8 4 6 0 2 0), ops 0 8 4 6 0 2 0), (.vor (ops 0 8 4 6 0 2 0), ops 0 8 4 6 0 2 0)
     , (.vxor (ops 0 8 4 6 0 2 0), ops 0 8 4 6 0 2 0), (.blut (ops 0 8 4 6 2 2 0), ops 0 8 4 6 2 2 0)
     , (.shl (ops 0 8 4 6 0 2 0), ops 0 8 4 6 0 2 0), (.shr (ops 0 8 4 6 0 2 0), ops 0 8 4 6 0 2 0)
     , (.sra (ops 0 8 4 6 0 2 0), ops 0 8 4 6 0 2 0), (.sra (ops 0 8 4 6 0 6 0), ops 0 8 4 6 0 6 0), (.rotr (ops 0 8 4 6 0 2 0), ops 0 8 4 6 0 2 0)
     , (.popc (ops 0 8 4 0 0 2 0), ops 0 8 4 0 0 2 0), (.clz (ops 0 8 4 0 0 2 0), ops 0 8 4 0 0 2 0)
     , (.brev (ops 0 8 4 0 0 2 0), ops 0 8 4 0 0 2 0), (.bfx (ops 0 8 4 0 0 2 0), ops 0 8 4 0 0 2 0)
     , (.bfi (ops 0 8 4 6 0 2 0), ops 0 8 4 6 0 2 0), (.icmp (ops 0 8 4 6 0 2 0), ops 0 8 4 6 0 2 0)
     , (.sel (ops 0 8 4 6 0 2 0), ops 0 8 4 6 0 2 0), (.qlop (ops 0 8 4 6 0 0 0), ops 0 8 4 6 0 0 0)] = true
      ∧ runIn lanes [(.bfx (ops 0 14 4 0 0 7 0xFC0), ops 0 14 4 0 0 7 0xFC0), (.sel (ops 0 14 4 6 0 3 31), ops 0 14 4 6 0 3 31)] = true
      ∧ 31 < 32 ∧ 0 + 32 ≤ 32 ∧ 31 + 1 ≤ 32 ∧ 0 < 1 ∧ leading (1 : BitVec 32) < 32 := by decide

theorem test_witness_LaneFloatArithmetic :
    runIn lanes
      [(.fadd (ops 0 8 4 6 0 10 0), ops 0 8 4 6 0 10 0), (.fsub (ops 0 8 4 6 0 10 0), ops 0 8 4 6 0 10 0)
     , (.fmul (ops 0 8 4 6 0 10 0), ops 0 8 4 6 0 10 0), (.ffma (ops 0 8 4 6 2 10 0), ops 0 8 4 6 2 10 0)
     , (.fdiv (ops 0 8 4 6 0 10 0), ops 0 8 4 6 0 10 0), (.fsqrt (ops 0 8 4 0 0 10 0), ops 0 8 4 0 0 10 0)
     , (.frnd (ops 0 8 4 0 0 10 0), ops 0 8 4 0 0 10 0), (.fmin (ops 0 8 4 6 0 10 0), ops 0 8 4 6 0 10 0)
     , (.fmax (ops 0 8 4 6 0 10 0), ops 0 8 4 6 0 10 0), (.frcp (ops 0 8 4 0 0 10 0), ops 0 8 4 0 0 10 0)
     , (.frsq (ops 0 8 4 0 0 10 0), ops 0 8 4 0 0 10 0), (.fex2 (ops 0 8 4 0 0 10 0), ops 0 8 4 0 0 10 0)
     , (.flg2 (ops 0 8 4 0 0 10 0), ops 0 8 4 0 0 10 0), (.fsin (ops 0 8 4 0 0 10 0), ops 0 8 4 0 0 10 0)
     , (.fcos (ops 0 8 4 0 0 10 0), ops 0 8 4 0 0 10 0), (.fsinpi (ops 0 8 4 0 0 10 0), ops 0 8 4 0 0 10 0)
     , (.fcospi (ops 0 8 4 0 0 10 0), ops 0 8 4 0 0 10 0), (.ftanh (ops 0 8 4 0 0 10 0), ops 0 8 4 0 0 10 0)] = true
      ∧ runIn lanes [(.fadd (ops 0 14 4 6 0 11 0), ops 0 14 4 6 0 11 0), (.ffma (ops 0x3F 9 4 6 2 8 0), ops 0x3F 9 4 6 2 8 0)] = true := by
  decide

theorem test_witness_LaneFloatConversions :
    runIn lanes
      [(.fcmp (ops 0 8 4 6 0 10 0), ops 0 8 4 6 0 10 0), (.fclass (ops 0 8 4 0 0 10 0), ops 0 8 4 0 0 10 0)
     , (.cvt (ops 0 8 4 0 0 2 0), ops 0 8 4 0 0 2 0), (.pack (ops 0 8 4 6 0 0 1), ops 0 8 4 6 0 0 1)
     , (.unpack (ops 0 8 4 0 0 2 1), ops 0 8 4 0 0 2 1)] = true
      ∧ 2 * fmtF16.signBit = 2 ^ 16 ∧ 2 * fmtF64.signBit = 2 ^ 64 ∧ 2 ^ 64 - 1 < 2 * fmtF64.signBit := by decide

theorem test_witness_LaneResultFrame :
    ([(0, 1), (7, 2)] : List (Nat × Word)).map (·.1) = [0, 7] ∧ [0, 7].Nodup ∧ (15 : VReg).toNat < lanes.grp.registerBound
      ∧ (inHandler lab true false).grp.handler.isSome = true ∧ (63 : VReg).toNat < (inHandler lab true false).grp.registerBound
      ∧ (∀ p ∈ ([(0, .w32 1)] : List (Nat × Out)), ∀ j < p.2.size, 17 ≠ lanes.grp.wordIndex p.1 ((3 : VReg).toNat + j))
      ∧ lanes.grp.n % 2 = 0 ∧ lanes.grp.rwb % 8 = 0 ∧ (12 : VReg).toNat + (Out.words [1, 2, 3, 4]).size ≤ lanes.grp.registerBound
      ∧ (14 : VReg).toNat + (Out.tw ⟨5, 3⟩).size ≤ lanes.grp.registerBound ∧ (14 : VReg).toNat + (Out.w64 5).size ≤ lanes.grp.registerBound
      ∧ (Out.bit true).size = 0 ∧ lanes.grp.handler = none := by decide

theorem test_witness_LaneControl :
    issues lanes (.brm ⟨1, false, 5⟩ ⟨0, true, 0⟩ ⟨0, true, 0⟩ ⟨0, true, 0⟩) = true ∧ issues lanes (.rcv (ops 0 0 0 0 0 0 1)) = true
      ∧ issues lanes (.lend (ops 0 0 0 0 0 0 0)) = true ∧ issues lanes (.lnop (ops 0 0 0 0 0 0 0)) = true
      ∧ issues lanes (.gset (ops 0 0 0 0 0 0 0x35)) = true ∧ issues lanes (.gset (ops 1 0 0 0 0 0 0x35)) = true
      ∧ issues lanes (.gset (ops 2 0 0 0 0 0 0x35)) = true ∧ (3 : BitVec 8).toNat % 4 = 3 := by decide

/-- A lane stream whose two fragments stand parked under one entry. -/
def joining : LaneStream :=
  { LaneStream.idle 8 with running := true, stack := [⟨0, 0x60, 0xFF⟩], nextId := 1
                           frags := [(0, ⟨0x0F, 0x60, .parked 0, 0, 0, false⟩), (1, ⟨0xF0, 0x60, .parked 0, 0, 0, false⟩)] }

theorem test_witness_Divergence :
    let dest : Nat → Dword := fun t => if t < 4 then 0x10 else 0x20
    (∀ t ∈ [0, 7], dest t ∈ [0x10, 0x20]) ∧ (∀ t ∈ [0, 7], t < 128) ∧ ((0x10, 1) : Dword × BitVec 128) ∈ groupBy [0x10, 0x20] [0, 7] dest
      ∧ (127 : Nat) < 128 ∧ joining.complete = some ⟨0, 0x60, 0xFF⟩ := by decide

theorem test_witness_CrossLane :
    (∀ t r, lanes.rdTag t r ≠ tagPOI) ∧ lanes.active (ops 0 8 4 6 0 2 0) = [0, 1, 2, 3, 4, 5, 6, 7]
      ∧ lanes.active { ops 0 8 4 6 0 2 0 with q := 1 } = []
      ∧ [.shfl (ops 0 8 4 6 0 2 0), .ballot (ops 0 8 0 0 0 0 0), .vote (ops 0 8 0 0 0 0 0), .vote (ops 1 8 0 0 0 0 0), .vote (ops 2 8 0 0 0 0 0)
         , .vote (ops 3 8 0 0 0 0 0), .vmatch (ops 0 8 4 0 0 2 0), .redux (ops 0 8 4 0 0 2 0), .redux { ops 0 8 4 0 0 2 0 with q := 1 }
         , .psum (ops 8 8 4 0 0 2 0), .vtos (ops 0 8 4 0 0 2 0), .vtos { ops 0 8 4 0 0 2 0 with q := 1 }].all (issues lanes) = true
      ∧ ∃ x, (scan 0 2 none [(0, 1), (1, 2)]).getLast? = some x := by
  refine ⟨?_, by decide, by decide, by decide, ⟨(1, some 1, 3), by decide⟩⟩
  intro t r
  have h : lanes.rdTag t r = 0 := rfl
  rw [h]; decide

/-- One thread of the group in the block, its base pair v4:v5 at `firstPc`, the first line in the L1. -/
def solo (bytes : Nat) : State :=
  let s := warm { lanes with tlb := [⟨0, firstPc / 2 ^ 16, BitVec.ofNat 64 (firstPc + 0xBF), false⟩] } bytes
  withV (s.upd fun g => { g with lane := { g.lane with frags := [(0, ⟨1, BitVec.ofNat 64 firstPc, .ready, 0, 0, false⟩)] } }) [(4, BitVec.ofNat 32 firstPc)]

/-- The same thread, the first word of the line poisoned. -/
def tainted : State :=
  let s := solo 0
  s.setL1 0 { s.l1 0 with lines := (s.l1 0).lines.set none (firstPc / 128) (some { (s.l1 0).newLine with
    valid := BitVec.allOnes 128, tags := 14, tagKnown := 0xFFFF }) }

/-- Nothing of the page in the L1. -/
def unlined (s : State) : State := s.setL1 0 { s.l1 0 with lines := [] }

/-- The access of thread 0 at `firstPc`. -/
def target0 : Target := ⟨0, 0, firstPc, BitVec.ofNat 64 firstPc⟩

theorem test_witness_LaneLoads :
    let s := solo 0x1122334455667788
    let away := unlined s
    let w := ops 0 8 4 0 0 2 0
    let v := ops 0 8 4 0 0 0 0
    let m := ops 0 8 4 0 0 2 2
    let made := fun (r : Loads) => r.fault = none ∧ r.poison = none ∧ r.rest = [] ∧ r.got ≠ []
    let left := fun (r : Loads) => r.fault = none ∧ r.poison = none ∧ r.rest ≠ []
    let none_ := { w with q := 1 }
    issues s (.ld w) = true ∧ w.order = 0 ∧ s.grp.acqL = none ∧ s.active w ≠ [] ∧ s.windowStall w 4 = none ∧ s.windowStall v 8 = none
      ∧ (∃ acc, s.checkThreads w.space 4 false none (s.address w (sext w.imm)) (s.unmarked w) = .ok acc ∧ made (s.loads (.ld w) 4 acc))
      ∧ (∃ acc, away.checkThreads w.space 4 false none (away.address w (sext w.imm)) (away.unmarked w) = .ok acc
        ∧ left (away.loads (.ld w) 4 acc)) ∧ issues away (.ld w) = true ∧ away.active w ≠ []
      ∧ issues s (.ldv v) = true
      ∧ (∃ acc, s.checkThreads v.space 8 false none (s.address v (sext v.imm)) (s.unmarked v) = .ok acc ∧ made (s.loads (.ldv v) 8 acc))
      ∧ issues s (.ld m) = true
      ∧ (∃ c i, s.checkThreads m.space 4 false none (s.address m (sext m.imm)) (s.unmarked m) = .error (c, i))
      ∧ issues tainted (.ld w) = true ∧ tainted.grp.acqL = none
      ∧ (∃ acc i, tainted.checkThreads w.space 4 false none (tainted.address w (sext w.imm)) (tainted.unmarked w) = .ok acc
        ∧ (tainted.loads (.ld w) 4 acc).fault = none ∧ (tainted.loads (.ld w) 4 acc).poison = some i)
      ∧ issues s (.ld none_) = true ∧ s.active none_ = [] := by
  repeat (refine ⟨by decide, ?_⟩)
  refine ⟨⟨_, rfl, by decide⟩, ⟨_, rfl, by decide⟩, by decide, by decide, by decide, ⟨_, rfl, by decide⟩, by decide, ⟨_, _, rfl⟩, ?_⟩
  repeat (refine ⟨by decide, ?_⟩)
  exact ⟨⟨_, _, rfl, rfl, rfl⟩, by decide⟩

/-- A load of the lane stream on its way, at `firstPc`. -/
def laneOnWay (i : Instr) : State := onWay (solo 0x1122334455667788) (access false i acc0)

theorem test_witness_LaneLoads_landing :
    let is := [Instr.ld (ops 0 8 4 0 0 2 0), .ldv (ops 0 8 4 0 0 0 0)]
    (∀ i ∈ is, (laneOnWay i).grp.life = .resident ∧ (laneOnWay i).grp.accesses.find? (fun y => y.id == 3) = some (access false i acc0)
      ∧ (laneOnWay i).accWaits (access false i acc0) acc0 = false ∧ ((laneOnWay i).l1 0).sweeping = false ∧ (laneOnWay i).l1Of (laneOnWay i).grp.core = 0)
      ∧ acc0.atom = none ∧ acc0.space = 0 ∧ acc0.at_ % 128 + 8 ≤ 128
      ∧ ∀ n, 0 < n → n ≤ 8 → ∀ i ∈ is, (laneOnWay i).Holds firstPc n (lineAt (laneOnWay i)) := by
  refine ⟨by decide, by decide, by decide, by decide, ?_⟩
  intro n h1 h2 i hi
  rcases hi with _ | ⟨_, _ | ⟨_, h⟩⟩
  · exact loaded_holds _ _ n h1 (by omega) (by decide) (by rfl) (by decide) (by decide)
  · exact loaded_holds _ _ n h1 (by omega) (by decide) (by rfl) (by decide) (by decide)
  · cases h

/-- Past a load that misses the fragment goes on (R118); its line brings the registers. -/
theorem test_ld_goes_on :
    let t := after (exec (.ld (ops 0 8 4 0 0 2 0)) (unlined (solo 0)))
    t.grp.stream.frag.pc = BitVec.ofNat 64 (firstPc + 12) ∧ t.rdV 0 8 = 0 ∧ (t.scoreboard (.mov (ops 0 9 8 0 0 2 0))).isSome = true
      ∧ (t.scoreboard (.mov (ops 0 9 6 0 0 2 0))).isNone = true
      ∧ ((laneOnWay (.ld (ops 0 8 4 0 0 2 0))).runAccess 0 3).rdV 0 8 = 0x55667788 := by decide

theorem test_witness_LaneLoads_bytes :
    let s := solo 0x1122334455667788
    let w := ops 0 8 4 0 0 2 0
    clean s w (.ld w) = true ∧ clean s w (.ldv w) = true ∧ w.space = 0 ∧ s.unmarked w = [0] ∧ s.address w (sext w.imm) 0 = BitVec.ofNat 64 firstPc
      ∧ s.Reaches (BitVec.ofNat 64 firstPc) 4 aRead firstPc true ∧ s.Reaches (BitVec.ofNat 64 firstPc) 8 aRead firstPc true
      ∧ s.Holds firstPc 4 (lineAt s) ∧ s.Holds firstPc 8 (lineAt s) := by
  have hold : ∀ n, 0 < n → n ≤ 128 → (solo 0x1122334455667788).Holds firstPc n (lineAt (solo 0x1122334455667788)) := fun n a b =>
    loaded_holds _ _ n a b (by decide) (by rfl) (by decide) (by decide)
  repeat (refine ⟨by decide, ?_⟩)
  exact ⟨by constructor <;> decide, by constructor <;> decide, hold 4 (by decide) (by decide), hold 8 (by decide) (by decide)⟩

/-- A write of core 0's L1, merged and not yet acknowledged (number 0). -/
def unacked (s : State) : State :=
  s.setReq 0 (some { (default : Req) with kind := .write 0 1 0 0 false, stage := .replied, l1 := 0, group := 0 })

theorem test_witness_LaneLoads_acquire :
    let s := solo 7
    let w := { ops 0 8 4 0 0 2 0 with order := 1, scope := 5 }
    let l := s.l1 0
    let loaded := fun (s : State) (r : Loads) =>
      s.putAll w.vd (r.got.flatMap fun x => (s.receivers w x.1).map fun r => (r, loadedOut w.type x.2.1))
    let made := fun (r : Loads) => r.fault = none ∧ r.poison = none ∧ r.rest = []
    let begun := s.upd fun g => { g with acqL := some (2, true) }
    issues s (.ld w) = true ∧ w.order = 1 ∧ s.active w ≠ [] ∧ s.windowStall w 4 = none ∧ s.clamped w.scope.toNat = false ∧ s.grp.acqL = none
      ∧ s.grp.fellL = false ∧ l.sweeping = false ∧ s.acksOut 0 = false ∧ l.c < 63 ∧ l.h < 63 ∧ l.p < 63 ∧ l.s < 63 ∧ 2 ≤ w.scope.toNat
      ∧ issues begun (.ld w) = true ∧ begun.grp.acqL.isSome = true ∧ issues (unacked s) (.ld w) = true ∧ (unacked s).grp.acqL = none
      ∧ (∃ acc, s.checkThreads w.space 4 false none (s.address w (sext w.imm)) (s.unmarked w) = .ok acc
        ∧ made (s.loads (.ld w) 4 acc) ∧ ∃ t, (loaded s (s.loads (.ld w) 4 acc)).acquire w.scope.toNat true = .done t)
      ∧ (∃ acc, (unacked s).checkThreads w.space 4 false none ((unacked s).address w (sext w.imm)) ((unacked s).unmarked w) = .ok acc
        ∧ made ((unacked s).loads (.ld w) 4 acc)
        ∧ ∃ t, (loaded (unacked s) ((unacked s).loads (.ld w) 4 acc)).acquire w.scope.toNat true = .wait t)
      ∧ (∃ acc, (unlined s).checkThreads w.space 4 false none ((unlined s).address w (sext w.imm)) ((unlined s).unmarked w) = .ok acc
        ∧ ((unlined s).loads (.ld w) 4 acc).rest ≠ [] ∧ issues (unlined s) (.ld w) = true)
      ∧ (∃ t, begun.acquire w.scope.toNat true = .done t) ∧ (∃ t, (unacked begun).acquire w.scope.toNat true = .wait t) := by
  repeat (refine ⟨by decide, ?_⟩)
  exact ⟨⟨_, rfl, by decide, _, rfl⟩, ⟨_, rfl, by decide, _, rfl⟩, ⟨_, rfl, by decide, by decide⟩, ⟨_, rfl⟩, ⟨_, rfl⟩⟩

/-- A store that meets no translation fault and no trap. -/
def noFault (r : StoreRes) : Bool :=
  match r with
  | .fault _ | .trap _ _ => false
  | _ => true
theorem noFault_ne {r : StoreRes} (h : noFault r = true) : (∀ k, r ≠ .fault k) ∧ ∀ c x, r ≠ .trap c x := by
  constructor <;> (intros; intro e; subst e; simp [noFault] at h)

theorem test_witness_LaneStores :
    let s := solo 0
    let w := ops 0 0 4 0 2 2 0
    let v := ops 0 0 4 0 2 0 0
    let plain := fun (s : State) (t : Target) (n v : Nat) (m : TagMode) => s.storeAt t n v m
    issues s (.st w) = true ∧ clean s w (.st w) = true ∧ clean s v (.stv v) = true ∧ w.order = 0 ∧ s.active w ≠ []
      ∧ s.windowStall w 4 = none ∧ s.windowStall v 8 = none
      ∧ (∃ acc t, s.checkThreads w.space 4 true (some aWrite) (s.address w (sext w.imm)) (s.unmarked w) = .ok acc
        ∧ s.stores 4 (.set 0) plain (acc.map fun a => (a.2, s.cN w w.type a.1 % 2 ^ (8 * 4))) = .ok t
        ∧ (∀ a ∈ acc, noFault (s.storeAt a.2 4 0 (.set 0)) = true) ∧ acc ≠ [])
      ∧ issues s (.stv v) = true
      ∧ (∃ acc t, s.checkThreads v.space 8 true (some aWrite) (s.address v (sext v.imm)) (s.unmarked v) = .ok acc
        ∧ s.stores 8 .keep plain (acc.map fun a => (a.2, s.regsValue a.1 v.vc.toNat v.vcount)) = .ok t
        ∧ (∀ a ∈ acc, noFault (s.storeAt a.2 8 0 .keep) = true) ∧ acc ≠ []) := by
  repeat (refine ⟨by decide, ?_⟩)
  refine ⟨⟨_, _, rfl, rfl, ?_, by decide⟩, by decide, ⟨_, _, rfl, rfl, ?_, by decide⟩⟩ <;> decide

theorem test_witness_LaneStores_bytes :
    let s := solo 0
    let w := ops 0 0 4 0 2 2 0
    w.space = 0 ∧ s.unmarked w = [0] ∧ s.grp.unack + (s.unmarked w).length + (s.l1 (s.l1Of s.grp.core)).pins.length ≤ 1024 ∧ s.address w (sext w.imm) 0 = BitVec.ofNat 64 firstPc
      ∧ s.Reaches (BitVec.ofNat 64 firstPc) 4 aWrite firstPc true ∧ s.Reaches (BitVec.ofNat 64 firstPc) 8 aWrite firstPc true
      ∧ issues s (.st { w with q := 1 }) = true ∧ s.active { w with q := 1 } = [] := by
  repeat (refine ⟨by decide, ?_⟩)
  exact ⟨by constructor <;> decide, by constructor <;> decide, by decide, by decide⟩

theorem test_witness_LaneStores_release :
    let s := solo 0
    let w := { ops 0 0 4 0 2 2 0 with order := 2, scope := 1 }
    let busy := s.upd fun g => { g with unack := 1 }
    let releasing := fun (s : State) (t : Target) (n v : Nat) (m : TagMode) => releasingStore s t 1 n v m
    issues s (.st w) = true ∧ clean s w (.st w) = true ∧ w.order = 2 ∧ s.active w ≠ [] ∧ s.windowStall w 4 = none ∧ w.scope.toNat < 2
      ∧ s.grp.unack = 0 ∧ s.readsOut s.grp = false ∧ issues busy (.st w) = true ∧ clean busy w (.st w) = true ∧ busy.clamped w.scope.toNat = false ∧ busy.grp.unack ≠ 0
      ∧ (∃ acc t, s.checkThreads w.space 4 true (some aWrite) (s.address w (sext w.imm)) (s.unmarked w) = .ok acc
        ∧ s.stores 4 (.set 0) releasing (acc.map fun a => (a.2, s.cN w w.type a.1 % 2 ^ (8 * 4))) = .ok t
        ∧ (∀ a ∈ acc, noFault (releasing s a.2 4 0 (.set 0)) = true) ∧ acc ≠ [])
      ∧ (∃ acc, busy.checkThreads w.space 4 true (some aWrite) (busy.address w (sext w.imm)) (busy.unmarked w) = .ok acc) := by
  repeat (refine ⟨by decide, ?_⟩)
  exact ⟨⟨_, _, rfl, rfl, by decide, by decide⟩, ⟨_, rfl⟩⟩

/-- A write lock over units `lo` to `hi` of a space in core 0's table. -/
def lockedAt (space lo hi : Nat) : State := lab.setCore 0 { lab.core 0 with locks := [(5, some ⟨1, space, 0, lo, hi, true⟩)] }

theorem test_witness_AccessChecks_locks :
    let g := lockedAt 0 0x1000 0x1001
    let x := lockedAt 1 0 1
    canonical 0x1000FC = true ∧ (0x1000FC : Dword).toNat % 4 = 0 ∧ g.castOn g.grp.launch g.grp.core = some cast0
      ∧ (g.core 0).lockHit 0 (g.contextOf g.grp) ((0x1000FC : Dword).toNat % 2 ^ 57) 4 true = some 5
      ∧ (g.core 0).lockHit 0 (g.contextOf g.grp) ((0x100100 : Dword).toNat % 2 ^ 57) 4 true = none
      ∧ x.castOn x.grp.launch x.grp.core = some cast0 ∧ (x.core 0).lockHit 1 0 (cast0.scratch + 252) 4 false = some 5
      ∧ (x.core 0).lockHit 1 0 (cast0.scratch + 256) 4 false = none ∧ 256 + 4 ≤ cast0.scratchSize
      ∧ 2 ^ 23 ≤ (0x800000 : Dword).toNat ∧ (0x7FFFFC : Dword).toNat < 2 ^ 23
      ∧ x.castOn x.grp.launch (x.grp.core / 4 * 4 + (0x200000 : Dword).toNat / 2 ^ 21 % 4) = none
      ∧ x.castOn x.grp.launch (x.grp.core / 4 * 4 + (0x1FFFFC : Dword).toNat / 2 ^ 21 % 4) = some cast0 ∧ cast0.saved = none
      ∧ cast0.scratchSize < (0x1FFFFC : Dword).toNat % 2 ^ 21 + 4 := by decide

theorem test_witness_AccessChecks :
    let c : Cast := ⟨0, 0, 0, 0, 524288, 0, none⟩
    lab.castOn lab.grp.launch lab.grp.core = some c ∧ (4 : Nat) ≠ 0 ∧ (2 : Dword).toNat % 4 ≠ 0 ∧ (0x200000000000000 : Dword).toNat % 4 = 0
      ∧ canonical 0x200000000000000 = false ∧ c.scratchSize < (0x80000 : Dword).toNat + 4 ∧ (0x80000 : Dword).toNat % 4 = 0
      ∧ lab.grp.w * lab.grp.n * 4 < (512 : Dword).toNat + 4 ∧ (512 : Dword).toNat % 4 = 0
      ∧ (∃ t, lab.checkAccess 1 0x7FFFC 4 true = .ok t) ∧ (∃ t, lab.checkAccess 2 508 4 true = .ok t)
      ∧ (∃ t, lab.checkAccess 0 0x100000 4 true = .ok t) := by
  repeat (refine ⟨by decide, ?_⟩)
  exact ⟨⟨_, rfl⟩, ⟨_, rfl⟩, ⟨_, rfl⟩⟩

/-- The group's line with bytes that it has not sent, or none of it dirty; and an L1 that sweeps. -/
def unsentLine : State :=
  let s := solo 0
  s.setL1 0 { s.l1 0 with lines := (s.l1 0).lines.set none (firstPc / 128) (some { lineAt s with dirty := 15, unsent := [(0, 15)] }) }
def sweepingL1 : State := (solo 0).setL1 0 { (solo 0).l1 0 with sweeping := true }

theorem test_witness_CacheInstructions :
    let w := ops 0 0 4 0 0 0 0
    let drop := ops 0x40 0 4 0 0 0 0
    [Instr.pref w, .cwb w, .pref drop, .cwb drop].all (fun i => issues (solo 0) i && issues sweepingL1 i) = true
      ∧ clean (solo 0) w (.cwb w) = true ∧ clean sweepingL1 w (.cwb w) = true ∧ (solo 0).sweepingHere = false ∧ sweepingL1.sweepingHere = true
      ∧ (solo 0).namedLines (.cwb w) w false = [firstPc / 128] ∧ (solo 0).grp.unack + 1 + ((solo 0).l1 ((solo 0).l1Of 0)).pins.length ≤ 1024
      ∧ 1024 < ((solo 0).upd fun g => { g with unack := 1024 }).grp.unack + 1
      ∧ (lineAt (solo 0)).pinned = false ∧ (lineAt (solo 0)).dirty = 0 ∧ (lineAt unsentLine).pinned = false ∧ (lineAt unsentLine).dirty ≠ 0
      ∧ (lineAt unsentLine).unsent = [(unsentLine.cur, 15)] ∧ (15 : BitVec 128) ≠ 0 := by decide

/-- Every active thread has had its answer. -/
def marked : State := (solo 0).upd fun g => g.setThread 0 { g.thread 0 with mark := true }

theorem test_witness_LaneAtomics :
    let s := solo 0
    let w := ops 0 8 4 0 2 2 0
    let x := ops 1 8 6 0 2 2 0
    let k : AtomKind := ⟨0, w.atomOp, true, true⟩
    let same := { ops 0 8 4 0 2 2 0 with ska := true }
    (Instr.atom w, k) ∈ [(Instr.atom w, k)]
      ∧ [.atom w, .cas w, .red (ops 0 0 4 0 2 2 0), .fatom (ops 0 8 4 0 2 10 0), .lres (ops 0 8 4 0 0 2 0), .scond w, .atom x].all (issues s) = true
      ∧ w.order = 0 ∧ s.grp.acqL = none ∧ s.stepsOut = false ∧ s.grp.poisoned = []
      ∧ marked.active w ≠ [] ∧ (∀ t ∈ marked.active w, (marked.grp.thread t).mark = true)
      ∧ s.active w ≠ [] ∧ (∀ t ∈ s.active w, (s.grp.thread t).mark = false) ∧ s.active { w with q := 1 } = []
      ∧ issues s (.atom { w with q := 1 }) = true ∧ s.sweepingHere = false
      ∧ (∃ acc t, s.checkThreads 1 4 true (some aAtomic) (s.address x 0) (s.active x) = .ok acc ∧ sameAddress (acc.map fun a => a.2.e) = none
        ∧ s.scratchHeld x acc = false ∧ s.scratchAtomics (.atom x) x k acc = .ok t ∧ acc ≠ [] ∧ x.space ≠ 0)
      ∧ (∃ acc y, s.checkThreads 0 4 true (some aAtomic) (s.address w 0) (s.active w) = .ok acc
        ∧ sameAddress (acc.map fun a => a.2.e) = none ∧ acc.map (s.siteOf (.atom w) aAtomic) = [y].map Sent.site
        ∧ s.sitesHeld w [y] = false ∧ s.grp.unack + 1 ≤ 1024)
      ∧ (∃ acc e, lanes.checkThreads 0 4 true (some aAtomic) (lanes.address same 0) (lanes.active same) = .ok acc
        ∧ sameAddress (acc.map fun a => a.2.e) = some e) := by
  repeat (refine ⟨by decide, ?_⟩)
  refine ⟨⟨_, _, rfl, by decide, by decide, rfl, by decide, by decide⟩, ⟨_, _, rfl, by decide, rfl, by decide, by decide⟩, ⟨_, 0, rfl, by decide⟩⟩

theorem test_witness_LaneAtomics_ordered :
    let s := solo 0
    let w := fun (o : BitVec 2) => { ops 0 8 4 0 2 2 0 with order := o, scope := 1 }
    let q := { w 1 with scope := 2 }
    let busy := s.upd fun g => { g with unack := 1 }
    let x := { ops 1 8 6 0 2 2 0 with order := 3, scope := 1 }
    let k : AtomKind := ⟨0, x.atomOp, true, true⟩
    [1, 2, 3].all (fun o => issues s (.atom (w o)) && issues busy (.atom (w o)) && decide ((w o).scope.toNat < 2)
        && !s.clamped (w o).scope.toNat && issues marked (.atom { w o with scope := 2 })) = true
      ∧ issues s (.atom x) = true ∧ s.readsOut s.grp = false ∧ s.grp.unack = 0 ∧ busy.grp.unack ≠ 0 ∧ marked.grp.lostL = false ∧ marked.clamped 2 = false
      ∧ (∃ t, (marked.upd fun g => { g with lostL := false }).acquire q.scope.toNat true = .done t)
      ∧ (∃ acc t u, s.checkThreads 1 4 true (some aAtomic) (s.address x 0) (s.active x) = .ok acc
        ∧ s.scratchHeld x acc = false ∧ s.scratchAtomics (.atom x) x k acc = .ok t
        ∧ (t.upd fun g => { g with lostL := false }).acquire x.scope.toNat true = .done u)
      ∧ (∃ acc y, s.checkThreads 0 4 true (some aAtomic) (s.address (w 3) 0) (s.active (w 3)) = .ok acc
        ∧ sameAddress (acc.map fun a => a.2.e) = none ∧ acc.map (s.siteOf (.atom (w 3)) aAtomic) = [y].map Sent.site)
      ∧ (∃ acc, busy.checkThreads 0 4 true (some aAtomic) (busy.address (w 2) 0) (busy.active (w 2)) = .ok acc
        ∧ sameAddress (acc.map fun a => a.2.e) = none)
      ∧ (default : AtomReq).use ≠ 4 ∧ ({ (default : AtomReq) with use := 4, seen := [1] }).use = 4 := by
  repeat (refine ⟨by decide, ?_⟩)
  exact ⟨⟨_, rfl⟩, ⟨_, _, _, rfl, by decide, rfl, rfl⟩, ⟨_, _, rfl, by decide, rfl⟩, ⟨_, rfl, by decide⟩, by decide, by decide⟩

/-- A group of the launch in another cluster waits in XCHG under tag 0x3C1. -/
def meeting : State :=
  lanes.setGroup 1 { lanes.grp with groupId := 1, core := 4, xchg := some ⟨0x3C1, 0, 0, ops 0x40 10 10 0 12 0 0x3C1⟩ }

theorem test_witness_Exchange :
    let w := ops 0x40 10 10 0 12 0 0x3C1
    let n := ops 0x40 10 10 0 12 0 0x33C1
    issues meeting (.xchg w) = true ∧ clean meeting w (.xchg w) = true ∧ meeting.grp.xchg = none
      ∧ (∃ f, meeting.xchgPartner 0x3C1 = some (1, f))
      ∧ issues lanes (.xchg w) = true ∧ issues lanes (.xchg n) = true ∧ clean lanes w (.xchg w) = true ∧ clean lanes n (.xchg n) = true
      ∧ meeting.active w ≠ [] ∧ lanes.active { w with q := 1 } = [] ∧ issues lanes (.xchg { w with q := 1 }) = true
      ∧ clean lanes { w with q := 1 } (.xchg { w with q := 1 }) = true ∧ lanes.active n ≠ []
      ∧ lanes.grp.xchg = none ∧ lanes.xchgPartner 0x3C1 = none ∧ n.imm.toNat / 4096 = 3 ∧ w.imm.toNat / 4096 ≠ 3 := by
  refine ⟨by decide, by decide, by decide, ⟨_, rfl⟩, ?_⟩
  decide

/-- A thread's term registers: a heap and a choice stack with one record, at `firstPc`, and an empty trail. -/
def termThread : Thread :=
  { Thread.start with htop := BitVec.ofNat 64 (firstPc + 512), hlim := BitVec.ofNat 64 (firstPc + 528), ctop := BitVec.ofNat 64 firstPc
                      cbase := BitVec.ofNat 64 firstPc, clim := BitVec.ofNat 64 (firstPc + 192) }
/-- One thread with these term registers, and words of the first line with their tags. -/
def term (x : Thread) (bytes : Nat) (tags : BitVec 64) : State :=
  let s := (solo bytes).upd fun g => g.setThread 0 x
  s.setL1 0 { s.l1 0 with lines := (s.l1 0).lines.set none (firstPc / 128) (some { (s.l1 0).newLine with
    data := BitVec.ofNat 1024 bytes, valid := BitVec.allOnes 128, tags := tags, tagKnown := 0xFFFF }) }
/-- The pair v4:v5 with a tag. -/
def tagged (s : State) (t : Tag) : State := s.setTag 0 4 t

/-- One thread runs its instruction from its first step. -/
def runs (s : State) (effect : Bool) (w : LaneOps) (act : Act Unit) : List Stop := (runThreads effect act (s.unmarked w) s).2

theorem test_witness_TermWords :
    let s := solo 7
    let tld := ops 0 8 4 0 0 0 0
    let tst := ops 0 0 4 0 2 0 0
    issues s (.tld tld) = true ∧ s.active tld ≠ [] ∧ s.windowStall tld 8 = none
      ∧ (∃ acc, s.checkThreads 0 8 false none (s.address tld 0) (s.unmarked tld) = .ok acc ∧ (s.loads (.tld tld) 8 acc).fault = none
        ∧ (s.loads (.tld tld) 8 acc).poison = none ∧ (s.loads (.tld tld) 8 acc).rest = [] ∧ (s.loads (.tld tld) 8 acc).got.length = 1)
      ∧ issues (unlined s) (.tld tld) = true
      ∧ (∃ acc, (unlined s).checkThreads 0 8 false none ((unlined s).address tld 0) ((unlined s).unmarked tld) = .ok acc
        ∧ ((unlined s).loads (.tld tld) 8 acc).fault = none ∧ ((unlined s).loads (.tld tld) 8 acc).poison = none
        ∧ ((unlined s).loads (.tld tld) 8 acc).rest ≠ [])
      ∧ issues s (.tst tst) = true ∧ clean s tst (.tst tst) = true ∧ s.active tst ≠ [] ∧ s.windowStall tst 8 = none
      ∧ (∃ acc t, s.checkThreads 0 8 true (some aWrite) (s.address tst 0) (s.unmarked tst) = .ok acc
        ∧ (∀ a ∈ acc, noFault (s.storeAt a.2 8 0 .keep) = true)
        ∧ acc.foldl (fun (r : StoreRes) a =>
            match r with
            | .ok u => u.storeAt a.2 8 (s.rdV64 a.1 tst.vc.toNat).toNat (.word (s.rdTag a.1 tst.vc.toNat))
            | _ => r) (.ok s) = .ok t ∧ acc.length = 1)
      ∧ issues s (.tld { tld with q := 1 }) = true ∧ s.active { tld with q := 1 } = []
      ∧ issues s (.tmk (ops 0 8 4 0 0 0 8)) = true ∧ clean s (ops 0 8 4 0 0 0 8) (.tmk (ops 0 8 4 0 0 0 8)) = true ∧ (8 : Tag).toNat < 9
      ∧ issues s (.tmk (ops 0 8 4 0 0 0 9)) = true ∧ 9 ≤ (9 : Tag).toNat ∧ s.active (ops 0 8 4 0 0 0 9) = [0]
      ∧ ((List.range 9).all fun n => issues s (.tget (ops (BitVec.ofNat 8 n) 8 (if n = 0 then 4 else 0) 0 0 0 0))) = true
      ∧ issues s (.tset (ops 0 8 6 0 0 0 0)) = true ∧ clean s (ops 0 8 6 0 0 0 0) (.tset (ops 0 8 6 0 0 0 0)) = true
      ∧ (∀ t ∈ s.active (ops 0 8 6 0 0 0 0), (s.a32 (ops 0 8 6 0 0 0 0) t).toNat % 16 < 9)
      ∧ issues s (.ttest (ops 0 8 4 0 0 0 15)) = true ∧ issues s (.func (ops 0 8 4 6 0 0 0)) = true
      ∧ clean s (ops 0 8 4 6 0 0 0) (.func (ops 0 8 4 6 0 0 0)) = true := by
  refine ⟨by decide, by decide, by decide, ⟨_, rfl, by decide⟩, by decide, ⟨_, rfl, by decide⟩, by decide, by decide, by decide, by decide,
    ⟨_, _, rfl, by decide, rfl, by decide⟩, ?_⟩
  decide

theorem test_witness_TermWords_landing :
    let i := Instr.tld (ops 0 8 4 0 0 0 0)
    let s := laneOnWay i
    s.grp.life = .resident ∧ s.grp.accesses.find? (fun y => y.id == 3) = some (access false i acc0) ∧ (access false i acc0).instr = i
      ∧ s.accWaits (access false i acc0) acc0 = false ∧ (s.l1 (s.l1Of s.grp.core)).sweeping = false ∧ acc0.at_ % 8 = 0
      ∧ s.Holds acc0.at_ 8 (lineAt s) :=
  ⟨by decide, by decide, rfl, by decide, by decide, by decide,
    loaded_holds _ _ 8 (by decide) (by decide) (by decide) (by rfl) (by decide) (by decide)⟩

theorem test_witness_TermThreads :
    let s := term termThread 0 0
    let empty := term { termThread with ctop := 0 } 0 0
    let fun4 := tagged s 4
    let str := tagged (term termThread 0x10001 4) 3
    let f1 := ops 1 8 4 0 0 0 0
    let f3 := ops 3 8 4 6 0 0 0
    issues empty (.tset (ops 1 0 6 8 0 0 0)) = true ∧ runs empty true (ops 1 0 6 8 0 0 0) (tsetThread (ops 1 0 6 8 0 0 0)) = []
      ∧ issues fun4 (.func f1) = true ∧ fun4.wrongTag f1 tagFUN (fun4.unmarked f1) = none ∧ runs fun4 false f1 (funcThread f1) = []
      ∧ issues fun4 (.func { f1 with fn := 2 }) = true ∧ runs fun4 false f1 (funcThread { f1 with fn := 2 }) = []
      ∧ issues str (.func f3) = true ∧ str.wrongTag f3 tagSTR (str.unmarked f3) = none ∧ runs str false f3 (funcThread f3) = [] := by
  decide

theorem test_witness_TermThreads_heap :
    let s := term termThread 0 0
    let var := tagged (term termThread firstPc 1) 1
    let un := ops 1 9 6 6 0 0 1
    let h0 := ops 0 8 0 0 0 0 2
    let h1 := ops 1 8 0 0 0 0 2
    issues s (.unify un) = true ∧ runs s true un (unifyThread un) = []
      ∧ issues s (.halloc h0) = true ∧ runs s true h0 (hallocThread h0) = []
      ∧ issues s (.halloc h1) = true ∧ runs s true h1 (hallocThread h1) = []
      ∧ issues var (.deref (ops 0 8 4 0 0 0 0)) = true ∧ runs var false (ops 0 8 4 0 0 0 0) (derefThread (ops 0 8 4 0 0 0 0)) = []
      ∧ issues s (.bind (ops 0 9 4 6 0 0 0)) = true ∧ runs s true (ops 0 9 4 6 0 0 0) (bindThread (ops 0 9 4 6 0 0 0)) = [] := by
  decide

theorem test_witness_TermThreads_choice :
    let s := term termThread 0 0
    let ch := ops 1 0 4 0 0 0 0
    let na := ops 0 0 0 0 0 0 3
    let ct := ops 0 0 6 0 0 0 0
    let ba := ops 0 8 0 0 0 0 0
    issues s (.choice ch) = true ∧ runs s true ch (choiceThread ch) = []
      ∧ issues s (.nextalt na) = true ∧ runs s true na (nextaltThread na) = []
      ∧ issues s (.cut ct) = true ∧ runs s true ct (cutThread ct) = []
      ∧ issues s (.backtrack ba) = true ∧ (∀ x ∈ s.active ba, (s.thr x).progress = 0)
      ∧ (match backtrackPlan s (s.unmarked ba) with
          | .ok p => (runThreads true (backtrackThread 8) (s.unmarked ba) p).2
          | .error _ => [.wait .none]) = [] := by
  decide

theorem test_witness_TermThreads_commit :
    let co := ops 0 8 0 0 0 0 0
    issues marked (.commit co) = true ∧ marked.stepsOut = false ∧ marked.grp.poisoned = []
      ∧ (∃ x ∈ marked.active co, (marked.thr x).begun = true) ∧ (∃ t, commitThreads 8 (marked.unmarked co) marked = .done t)
      ∧ issues marked (.commit { co with q := 1 }) = true ∧ marked.active { co with q := 1 } = [] :=
  ⟨by decide, by decide, by decide, ⟨0, by decide, by decide⟩, ⟨_, rfl⟩, by decide, by decide⟩

theorem test_witness_TermThreadSteps :
    let s := term termThread 0 0
    let x := s.thr 0
    let trailed := term { termThread with ttop := BitVec.ofNat 64 (firstPc + 64), tlim := BitVec.ofNat 64 (firstPc + 80) } 0 0
    let var := term termThread firstPc 1
    let w := ops 0 8 0 0 0 0 2
    let stepped := s.upd fun g => g.setThread 0 { x with done := [⟨0, 0⟩] }
    let ends := fun (s : State) (act : Act Unit) => (runThread true act 0 s).2
    (stepped.thr 0).done[0]? = some ⟨0, 0⟩ ∧ x.done = []
      ∧ (ops 1 8 0 0 0 0 2).fn.getLsbD 0 = true ∧ x.progress = 0 ∧ ends s (hallocThread (ops 1 8 0 0 0 0 2)) = none
      ∧ w.fn.getLsbD 0 = false ∧ x.htop ≠ 0 ∧ x.htop.toNat + 8 * 2 ≤ x.hlim.toNat ∧ x.hlim.toNat < x.htop.toNat + 8 * 3
      ∧ (solo 0).thr 0 = Thread.start ∧ Thread.start.htop = 0 ∧ Thread.start.cbase = 0 ∧ Thread.start.ctop = 0 ∧ x.cbase ≠ 0
      ∧ ({ x with clim := x.clim - 1 }).clim.toNat < x.ctop.toNat + 96 + 96 ∧ x.ctop ≠ 0
      ∧ ends s (choiceThread (ops 0 0 0 0 0 0 0)) = none ∧ ends s (cutThread (ops 0 0 4 0 0 0 0)) = none
      ∧ ends s (cutThread (ops 0 0 6 0 0 0 0)) = none
      ∧ (8 : Dword).toNat % 8 = 0 ∧ (8 : Dword) ≤ 8 ∧ (0 : Dword) < 8 ∧ s.regPoison 0 (Instr.tset (ops 1 0 6 8 0 0 0)).sources = none
      ∧ (bindVar (BitVec.ofNat 64 firstPc) ⟨1, 0⟩ ⟨0, true⟩ trailed 0).2.toOption.map (·.1) = some 0
      ∧ (bindVar 0 ⟨1, 0⟩ ⟨0, true⟩ (term { termThread with ttop := 16, tlim := 31 } 0 0) 0).2.toOption.map (·.1) = some 3
      ∧ (deref 1 ⟨BitVec.ofNat 64 firstPc, 1⟩ ⟨0, true⟩ var 0).2.toOption.map (·.1) = some ⟨BitVec.ofNat 64 firstPc, tagVAR⟩
      ∧ (s.wordLoad 0 x.ctop).toOption.isSome = true := by
  decide

/-- One thread whose unify stack holds a root pair, over two unbound variables at `firstPc` and `firstPc` + 8 and functor words after. -/
def unifying (a b : TWord) : State :=
  let w0 := firstPc
  let w1 := (firstPc + 8) * 2 ^ 64
  let w2 := 0x10002 * 2 ^ 128
  let w3 := 0x20001 * 2 ^ 192
  let w4 := (firstPc + 32) * 2 ^ 256
  term { termThread with ttop := BitVec.ofNat 64 (firstPc + 64), tlim := BitVec.ofNat 64 (firstPc + 128), ustack := [.root a b] }
    (w0 + w1 + w2 + w3 + w4) 0x24411
/-- The words at which the two sides of the root pair end. -/
def ends (limit : Nat) (a b : TWord) : Option (TWord × TWord) :=
  match ((deref limit a).bind fun y => (deref limit b).bind fun z => Act.pure (y, z)) ⟨0, true⟩ (unifying a b) 0 with
  | (_, .ok (p, _)) => some p
  | _ => none
/-- A word at byte `i` of the first line, and a constant. -/
def at_ (i : Nat) (t : Tag) : TWord := ⟨BitVec.ofNat 64 (firstPc + i), t⟩

theorem test_witness_TermThreadSteps_unify :
    (((unifying default default).thr 0).ustack = [.root default default]) ∧ ((unifying default default).thr 0).done = []
      ∧ ends 1024 (at_ 0 1) (at_ 0 2) = some (at_ 0 1, at_ 0 1) ∧ ends 1024 (at_ 0 1) (at_ 8 1) = some (at_ 0 1, at_ 8 1)
      ∧ ends 1024 (at_ 8 2) (at_ 0 1) = some (at_ 8 1, at_ 0 1) ∧ ends 1024 (at_ 0 1) ⟨7, 8⟩ = some (at_ 0 1, ⟨7, 8⟩)
      ∧ ends 1024 ⟨7, 8⟩ (at_ 0 1) = some (⟨7, 8⟩, at_ 0 1) ∧ ends 1024 ⟨7, 8⟩ ⟨7, 7⟩ = some (⟨7, 8⟩, ⟨7, 7⟩)
      ∧ ends 1024 ⟨7, 8⟩ ⟨7, 8⟩ = some (⟨7, 8⟩, ⟨7, 8⟩) ∧ ends 1024 (at_ 64 5) (at_ 64 5) = some (at_ 64 5, at_ 64 5)
      ∧ ends 1024 (at_ 16 3) (at_ 24 3) = some (at_ 16 3, at_ 24 3)
      ∧ ends 2 (at_ 32 2) ⟨7, 8⟩ = some (at_ 32 2, ⟨7, 8⟩) ∧ ends 0 ⟨7, 8⟩ (at_ 32 2) = some (⟨7, 8⟩, at_ 32 2) := by decide

theorem test_witness_TermThreadSteps_more :
    let s := term termThread 0 0
    let heads := fun (a b : TWord) =>
      match ((Act.header a.value).bind fun h => (Act.header b.value).bind fun g => Act.pure (h, g)) ⟨0, true⟩ (unifying a b) 0 with
      | (_, .ok (p, _)) => some p
      | _ => none
    let un := ops 0 10 4 6 0 0 1
    let run := fun (a b : TWord) => runThread true (unifyThread un) 0 (unifying a b)
    let str := tagged (term { termThread with ctop := 0 } 0x10001 4) 3
    let bad := tagged (term { termThread with ctop := 0 } 0x10001 3) 3
    let at0 := fun (s : State) => withV s [(4, BitVec.ofNat 32 firstPc), (6, 1)]
    (runThread true (nextaltThread (ops 0 0 0 0 0 0 3)) 0 s).2 = none
      ∧ s.grp.stream.frag.pc = (s.recordOf s.grp).lcode + BitVec.ofNat 64 (12 * 0)
      ∧ heads (at_ 16 3) (at_ 16 3) = some (⟨0x10002, 4⟩, ⟨0x10002, 4⟩) ∧ heads (at_ 16 3) (at_ 24 3) = some (⟨0x10002, 4⟩, ⟨0x20001, 4⟩)
      ∧ (run ⟨7, 8⟩ ⟨7, 8⟩).2 = none ∧ (run ⟨7, 8⟩ ⟨7, 8⟩).1.rdV 0 10 = 0 ∧ (run ⟨7, 8⟩ ⟨7, 7⟩).2 = none ∧ (run ⟨7, 8⟩ ⟨7, 7⟩).1.rdV 0 10 = 1
      ∧ (run (at_ 64 5) (at_ 72 5)).2 = none ∧ (run (at_ 64 5) (at_ 72 5)).1.rdV 0 10 = 2
      ∧ (runThread false (funcThread (ops 3 8 4 6 0 0 0)) 0 (at0 str)).2 = none
      ∧ ((at0 bad).wordLoad 0 ((at0 bad).a64 (ops 3 8 4 6 0 0 0) 0)).toOption.any (fun h => h.tag != tagFUN) = true := by decide

/-- 32 threads of 64 registers in a block that captured a format block of two E4M3 operands in z0 and of two S8 in z1. -/
def matrix : State := wide.upd fun g => { g with n := 64, lane := { g.lane with cap := { g.lane.cap with zs := [(0, 0xCC1), (1, 1)] } } }
/-- The same with an open operation, or with `n` closed batches from number 0 on. -/
def openOp : State := after (execMzero (ops 0 0 0 0 0 0 0) matrix)
def closed : State := after (execMfence (ops 0 0 0 0 0 0 0) openOp)

theorem test_witness_MatrixIssue :
    let s := matrix
    let w := ops 0 8 4 12 2 0 0
    let i := ops 1 8 4 12 2 0 0
    let z := ops 0 8 0 0 0 0 15
    let last := ops 0 767 0 0 0 0 0
    let la := ops 0 8 4 0 0 10 0
    let tile := ops 0x80 8 4 0 0 10 0
    (32 ≤ s.grp.w ∧ s.grp.stream.frags.length ≤ 1 ∧ [.mma w, .mmai i, .mzero z, .mzero last, .mflagc z].all (fun j => decide (s.matActive j w = s.fragThreads)) = true) ∧ (s.unitQueue s.grp.core (s.grp.datapath / 4)).length < 8
      ∧ issues s (.mma w) = true ∧ s.mmaIllop (.mma w) false w = none ∧ firstCause (s.mmaChecks w) = none
      ∧ issues s (.mmai i) = true ∧ s.mmaIllop (.mmai i) true i = none ∧ firstCause (s.mmaChecks i) = none
      ∧ issues s (.mzero z) = true ∧ issues s (.mflagc z) = true ∧ s.framesTrap (.mzero z) = none ∧ s.framesTrap (.mzero last) = none ∧ s.framesTrap (.mflagc z) = none
      ∧ s.framesTrap (.mzero { last with imm := 1 }) ≠ none ∧ issues s (.mzero last) = true ∧ issues s (.mflag (ops 0 8 4 0 0 0 0)) = true
      ∧ s.framesTrap (.mflag (ops 0 8 4 0 0 0 0)) = none
      ∧ issues s (.mlda la) = true ∧ s.moveIllop (.mlda la) la la.va = none
      ∧ issues s (.mlda tile) = true ∧ s.moveIllop (.mlda tile) tile tile.va = none
      ∧ firstCause (s.tileChecks (s.tileAt 4) 32 128 false) = none
      ∧ issues s (.msta la) = true ∧ s.moveIllop (.msta la) la la.vd = none := by decide

/-- An atomic issued ahead has still to write v5 of thread 0. -/
def awaiting : State :=
  let s := matrix.setReq 0 (some { (default : Req) with kind := .atomic { (default : AtomReq) with late := true, dest := some 5, takers := 1, type := 2 } })
  s.upd fun g => { g with reqs := [(0, 0)] }

theorem test_witness_MatrixIssue_rows :
    let w := ops 0 8 4 12 2 0 0
    let m : MatOp := { (default : MatOp) with instr := .mma w, cap := awaiting.cap }
    awaiting.rowsAwait m = true ∧ matrix.rowsAwait m = false ∧ issues awaiting (.mma w) = true ∧ awaiting.mmaIllop (.mma w) false w = none
      ∧ firstCause (awaiting.mmaChecks w) = none ∧ awaiting.matActive (.mma w) w = awaiting.fragThreads
      ∧ [.mflag (ops 0 8 4 0 0 0 0), .mlda (ops 0 8 4 0 0 10 0), .msta (ops 0 8 4 0 0 10 0), .mfence (ops 0 0 0 0 0 0 0), .mwait (ops 0 0 0 0 0 0 0)
        , .mwaitn (ops 0 0 0 0 0 0 0)].all (fun i => decide (matrix.matActive i (ops 0 0 0 0 0 0 0) = matrix.fragThreads)) = true := by decide

theorem test_witness_MatrixIssue_batches :
    let none_ := ops 0 0 0 0 0 0 0
    (32 ≤ openOp.grp.w ∧ openOp.grp.stream.frags.length ≤ 1 ∧ openOp.activeBy 0 false = openOp.fragThreads)
      ∧ issues openOp (.mfence none_) = true ∧ openOp.grp.openOps ≠ [] ∧ (∀ b ∈ openOp.grp.batches, b.id ≠ openOp.grp.batchCtr.toNat)
      ∧ issues matrix (.mfence none_) = true ∧ matrix.grp.openOps = [] ∧ matrix.grp.batches = []
      ∧ issues closed (.mwait none_) = true ∧ closed.grp.batches.any (fun b => b.id == 0) = true
      ∧ issues closed (.mwaitn none_) = true ∧ 0 < closed.grp.batches.length
      ∧ issues closed (.mwait (ops 0 0 0 0 0 0 15)) = true ∧ closed.grp.batches.any (fun b => b.id == 15) = false
      ∧ (32 ≤ closed.grp.w ∧ closed.grp.stream.frags.length ≤ 1 ∧ closed.activeBy 0 false = closed.fragThreads) := by decide

theorem test_witness_MatrixResults :
    31 < LaneOps.extM (ops 0 8 4 12 2 0 0) ∧ 31 < LaneOps.extN (ops 0 8 4 12 2 0 0)
      ∧ (∀ i < 4, ∀ j < 4, (0 : Nat) ≠ 1024 + blockIndex 8 32 i j)
      ∧ openOp.grp.openOps.map (·.instr) = [.mzero (ops 0 0 0 0 0 0 0)] := by decide

/-- An operation of the group on its frames. -/
def opOf (i : Instr) (inHandler : Bool) : MatOp := { (default : MatOp) with instr := i, inHandler := inHandler }

theorem test_witness_MatrixResults_moves :
    let sta := ops 0 8 4 0 0 10 0
    let flag := ops 1 9 4 0 0 0 0
    ((opOf (.mlda sta) false).instr = .mlda sta ∧ (opOf (.msta sta) false).instr = .msta sta ∧ sta.type = 10)
      ∧ sta.fn.getLsbD 7 = false ∧ LaneOps.count sta = 1 ∧ (opOf (.msta sta) false).inHandler = false
      ∧ sta.vd.toNat + 8 * elemBytes sta.type ≤ (matrix.group 0).n
      ∧ (inHandler matrix true false).grp.handler.isSome = true ∧ (opOf (.msta sta) true).inHandler = true ∧ sta.vd.toNat + 8 * elemBytes sta.type ≤ 64
      ∧ (ops 0x80 8 4 0 0 10 0).fn.getLsbD 7 = true ∧ flag.fn = 1 ∧ 0 < flag.vd.toNat ∧ flag.vd.toNat < 16
      ∧ (ops 0 9 4 0 0 0 0).fn ≠ 1 ∧ (9 : VReg).toNat + 1 ≤ (matrix.group 0).n
      ∧ (((opOf (.mflag flag) false).finds (matrix.core 0)).lost).wf false = true ∧ 0 < (matrix.group 0).w := by decide

theorem test_witness_MatrixResults_tile :
    let t := tileOf 0 0 128
    let place := matrix.tileByte 0 t
    ∀ r r' b b', r < 32 → r' < 32 → b < 128 → b' < 128 → place r b = place r' b' → r = r' ∧ b = b' := by
  intro t place r r' b b' hr hr' hb hb' h
  have e : ∀ r b, r < 32 → place r b = matrix.scratchBase 0 0 + (r / 32 * 4096 + r % 32 * 128 + b) := by
    intro r b _
    simp [place, t, State.tileByte, tileOf, rotate, Tile.row]
  rw [e r b hr, e r' b' hr'] at h
  omega

/-- A group with a block and a copy entry at the heads of its queues, decided as `run`. -/
def heads (run : Bool) : State := lab.upd fun g => { g with
  laneQ := [⟨.decided run, 3, .none⟩], copyQ := [⟨.decided run, .cpy none, 0, 0⟩], fabQ := [⟨.decided run, .coll 0 0 0 0 0, 0⟩]
  engOut := 2, collOut := 1 }
/-- The open operation's batch, started and done. -/
def finished : State := closed.upd fun g => g.mapOp 0 fun m => { m with started := true, done := true }
/-- The unit has started the operation. -/
def started : State := closed.upd fun g => g.mapOp 0 fun m => { m with started := true }
/-- A closed batch of no operation. -/
def emptied : State := closed.upd fun g => { g with batches := [⟨0, []⟩] }
/-- A ready fragment past its limit of 4096 slots, beside another. -/
def late : State := (withRecord lanes fun r => { r with watchdog := 1, trapent := 1 }).upd fun g =>
  { g with lane := { g.lane with frags := [(0, ⟨0x0F, 0x60, .ready, 4097, 0, false⟩), (1, ⟨0xF0, 0x6C, .ready, 4096, 0, false⟩)] } }
/-- Two ready fragments, the current one with 256 slots used. -/
def turning : State := lanes.upd fun g => { g with lane := { g.lane with
  slots := 256, frags := [(0, ⟨0x0F, 0x60, .ready, 0, 0, false⟩), (1, ⟨0xF0, 0x6C, .ready, 0, 0, false⟩)] } }
/-- A group that has asked to grow to 18 registers. -/
def growing : State := after (execWgrow 18 lab)

theorem test_witness_GroupEvents :
    ((heads true).group 0).blockMayStart = true ∧ (((heads true).group 0).readyBlock).isSome = true
      ∧ ((heads false).group 0).life = .resident ∧ [QueueKind.lane, .copy, .fabric].all ((heads false).group 0).headDiscarded = true
      ∧ (closed.nextOp 0 0).isSome = true
      ∧ (started.findOp 0).any (fun x => started.opMayComplete x.1 x.2.1 x.2.2) = true
      ∧ (finished.group 0).life = .resident ∧ (finished.group 0).batchReady = true
      ∧ (emptied.group 0).batches.map (·.ops) = [[]] ∧ (emptied.group 0).life = .resident
      ∧ ((guarded.upd fun g => { g with deferred := some ⟨cSWTRAP, g.pc, 5, false, 0, false⟩ }).group 0).deferred.isSome = true
      ∧ guarded.windowBusy 0 = false ∧ (guarded.group 0).otherBusy ⟨cSWTRAP, 0, 5, false, 0, false⟩ = false ∧ (guarded.group 0).handler = none
      ∧ (guarded.group 0).parked = none ∧ (guarded.group 0).life = .resident
      ∧ (late.overdue (late.group 0)).isSome = true ∧ (late.group 0).life = .resident ∧ (late.group 0).laneHeld = false
      ∧ (late.group 0).stream.unfinished = false
      ∧ (turning.group 0).life = .resident ∧ (turning.group 0).switchDue = true
      ∧ growing.oldestGrower 0 = some (0, 18) ∧ (growing.placeWindow 0 (8 * 18 * 4) 2048 (some 0)).isSome = true
      ∧ ((fusing.group 1).fuse).isSome = true ∧ (fusing.group 1).life = .resident
      ∧ ((meeting.group 1).xchg).isSome = true ∧ (meeting.group 1).life = .resident := by decide

/-- The group saved in full; its partition pausing, so that its space is needed; its cast saved with it, and the partition running on. -/
def saved : State := (lab.upd fun g => { g with preempt := some ⟨true, false⟩ }).servePreempt 0
def vacated : State := saved.setPart 0 { saved.part 0 with pausing := true }
def castAway : State := { after (execCastSave 0 0 vacated) with partitions := [] }
/-- A group that has asked for more registers than its core has left, beside another that holds the rest. -/
def stuck : State :=
  let s := (growing.upd fun g => { g with n := 2048, waitS := .width }).setCore 0 { growing.core 0 with growers := [(0, 2048)], partition := some (8, 1) }
  s

/-- The saved cast has a CPYQ that waits for a place, from scratch to scratch. -/
def pushWaits : State :=
  let z : BitVec 512 := BitVec.ofNat 512 (2 + 16 + 0x80 + 2 ^ 128)
  { castAway with copyCmds := [(0, some { castAway.newCopy 0 ⟨.decided true, .cpyq 9 3, z, z⟩ with pushing := some 1 })] }

/-- The group in its start region, and with a write that is not acknowledged. -/
def regional : State := lab.upd fun g => { g with region := .start }
def mid : State := lab.upd fun g => { g with unack := 1 }

theorem test_witness_PreemptionEvents :
    (lab.group 0).life = .resident ∧ (lab.group 0).preempt = none
      ∧ ((lab.upd fun g => { g with preempt := some ⟨false, false⟩ }).group 0).preempt = some ⟨false, false⟩
      ∧ ({ lab.group 0 with preempt := some ⟨false, false⟩, region := .absent } : Group).stopped = false
      ∧ ({ regional.group 0 with preempt := some ⟨false, false⟩ } : Group).stopped = true ∧ (regional.group 0).quiet = true
      ∧ (regional.liveIns (regional.group 0)).isSome = true ∧ (regional.group 0).life = .resident ∧ (regional.group 0).preempt = none
      ∧ (lab.group 0).quiet = true ∧ (mid.group 0).quiet = false ∧ (mid.group 0).life = .resident
      ∧ saved.mayRestore 0 (saved.group 0) = true ∧ ((saved.group 0).saved).isSome = true
      ∧ (saved.placeFor 0 false).isSome = true ∧ (saved.placeWindow 0 (saved.group 0).windowBytes (saved.group 0).area none).isSome = true
      ∧ (vacated.launch? 0).any (fun l => l.ending.isNone && vacated.spaceNeeded 0 0 l) = true
      ∧ (vacated.castOn 0 0).any (fun c => c.saved.isNone && vacated.castQuiet 0 c) = true ∧ vacated.castLeft 0 0 = true
      ∧ (castAway.castOn 0 0).any (fun c => c.saved.isSome) = true
      ∧ [castAway, pushWaits].all (fun s => (s.launch? 0).any fun l => (s.roomForCast 0 l.record).any fun r =>
          (s.castOn 0 0).any fun c => c.saved.any fun v => s.castFits l c v && (s.placeCast 0 l c v r.1 r.2).relockFits 0
            && ((s.placeCast 0 l c v r.1 r.2).missingLocks 0).isEmpty == s.copyCmds.isEmpty) = true
      ∧ (stuck.youngest 0).isSome = true ∧ stuck.growBlocked 0 = true ∧ stuck.growStuck 0 = true
      ∧ (lab.launch? (lab.group 0).launch).isSome = true ∧ 7 < (lab.group 0).w ∧ 15 < (lab.group 0).n ∧ 7 < (lab.group 0).n / 2
      ∧ (lab.group 0).n ≤ 2048 := by decide

/-! ### Engines, memory, failures -/

/-- A copy entry at the head of the copy queue, ready. -/
def copying (op : CopyOp) : State := lab.upd fun g => { g with copyQ := [⟨.decided true, op, tensor 1, tensor 0⟩], engOut := 1 }
/-- A copy command under way as number 0. -/
def engaged (op : CopyOp) (pushing : Option Nat) (ds : List (Nat × Delivery)) : State :=
  let s := copying op
  { s with copyCmds := [(0, some { s.newCopy 0 ⟨.decided true, op, tensor 1, tensor 0⟩ with pushing := pushing, deliveries := ds })] }

/-- A fill of one 4-byte element of scratch at 0x40, under way as number 0. -/
def filling : State :=
  let s := lab
  let z := BitVec.ofNat 512 (2 + 16 + 0x80 + 2 ^ 64 * 0x40 + 2 ^ 128)
  { s with copyCmds := [(0, some (s.newCopy 0 ⟨.decided true, .cpys 9, z, z⟩))] }
/-- Queue 3 of core 0 or of core 46 bound by the launch as binding 1, with `free` of 4 slots free. -/
def bindings (s : State) (core free : Nat) : State :=
  s.setCore core { s.core core with queues := [(3, some ⟨1, 0, 0x100, 4, 0, 0, 0, free, false, false⟩)] }

theorem test_witness_CopyEngineEvents :
    let s := copying (.cpy none)
    let q := engaged (.cpyq 9 3) none []
    ((s.group 0).readyCopy).isSome = true ∧ (s.group 0).life = .resident
      ∧ ((s.group 0).readyCopy).any (fun e => s.locksFree (s.group 0).core ((s.copyPlan (s.newCopy 0 e)).getD [])) = true
      ∧ ((engaged (.cpy none) none []).copyCmd? 0).any (fun c => !c.isMcast && c.pushing.isNone) = true
      ∧ (filling.copyCmd? 0).any (fun c => c.pushing.isNone && c.op == .cpys 9 && (tensorOf c.zd).space == 1 && (tensorOf c.zd).rot == 0
          && (tensorOf c.zd).dims == 0 && (tensorOf c.zd).e0 != 0 && (tensorOf c.zd).addr % (tensorOf c.zd).esize == 0
          && (filling.runCopy c c.total).2 == .ok && (filling.castOn c.launch c.core).any fun z =>
            z.saved.isNone && decide ((tensorOf c.zd).addr + (tensorOf c.zd).e0 * (tensorOf c.zd).esize ≤ z.scratchSize)) = true
      ∧ (q.copyCmd? 0).any (fun c => c.op == .cpyq 9 3 && (q.boundTo c.launch c.core 3).isNone
          && ((bindings q 0 4).boundTo c.launch c.core 3).any fun b => b.id == 1) = true := by decide

theorem test_witness_CopyEngineEvents_fails :
    ((engaged (.cpys 1) none []).setCopyCmd 0 (((engaged (.cpys 1) none []).copyCmd? 0).map fun c => { c with zd := 0x181 })).copyCmd? 0
      |>.any (fun c => (lab.copyPlan c).isNone && c.pushing.isNone && !c.isMcast) := by decide

theorem test_witness_CopyEngineEvents_pushes :
    let m : CopyOp := .mcast 7 2 0x801 3 0x40
    let q := engaged (.cpyq 9 3) (some 1) []
    let w := engaged m none [(0, .pending), (11, .pending)]
    let r := engaged m none [(0, .done), (11, .landed 1)]
    let read := fun (s : State) => s.setCopyCmd 0 ((s.copyCmd? 0).map fun c => { c with data := some [(5, 0)] })
    (q.copyCmd? 0).any (fun c => c.op == .cpyq 9 3 && c.pushing == some 1) = true
      ∧ [4, 0].all (fun n => ((bindings q 0 n).boundTo 0 0 3).any fun b => b.id == 1 && b.free == n) = true ∧ q.boundTo 0 0 3 = none
      ∧ q.castSaved 0 0 = false
      ∧ (w.copyCmd? 0).any (fun c => c.op == m && c.deliveries.find? (fun d => d.1 == 11) == some (11, .pending)) = true
      ∧ ((read w).copyCmd? 0).any (fun c => c.op == m && c.data.isSome && c.deliveries.find? (fun d => d.1 == 11) == some (11, .pending)) = true
      ∧ (after (execIslandFault 11 w)).mappedOut 7 11 = false ∧ ((after (execIslandFault 11 w)).island 11).failed = true
      ∧ w.mappedOut 7 11 = false ∧ (w.island 11).failed = false ∧ w.boundTo 0 46 3 = none ∧ w.savedBinding 0 46 3 = false
      ∧ [4, 0].all (fun n => ((bindings r 46 n).copyCmd? 0).any fun c =>
          c.op == m && c.deliveries.find? (fun d => d.1 == 11) == some (11, .landed 1)
            && ((bindings r 46 n).boundTo c.launch 46 3).any fun b => b.id == 1 && b.free == n) = true
      ∧ ((engaged m none [(0, .done), (11, .nacked)]).copyCmd? 0).any (fun c => c.op == m && c.resolved
          && (lab.castOn c.launch c.core).any fun z => z.saved.isNone && decide (0x44 ≤ z.scratchSize)) = true := by decide

theorem test_witness_CopyEngineEvents_arriving :
    let m : CopyOp := .mcast 7 2 0x801 3 0x40
    let a := engaged m none [(0, .done), (11, .arriving 1 0)]
    (a.copyCmd? 0).any (fun c => c.op == m && c.deliveries.find? (fun d => d.1 == 11) == some (11, .arriving 1 0)) = true
      ∧ a.boundTo 0 46 3 = none ∧ a.savedBinding 0 46 3 = false := by decide

/-- The package with collective set 1 of two members on landing region 1, whose tables stand at 0x1000 and 0x2000. -/
def fabric : State :=
  let s := { lab with driver := { lab.driver with landBase := 0x1000, collBase := 0x2000 } }
  let s := s.pokeBytes 0x1028 (leBytes 2 0 ++ leBytes 6 0 ++ leBytes 8 (2 ^ 63 + 2 ^ 59))
  s.pokeBytes 0x2028 (leBytes 8 (2 ^ 63 + 2 ^ 34 + 1) ++ leBytes 4 64)
/-- A fabric-queue entry at the head, ready. -/
def sending (op : FabOp) : State := lab.upd fun g => { g with fabQ := [⟨.decided true, op, tensor 0⟩], engOut := 1 }
/-- A transfer under way as number 0 to package `target`, and an instance of set 1 as number 0. -/
def underWay (get : Bool) (target : Word) (aborted : Option Bool) (landed : List Landed) : State :=
  { fabric with
    fabCmds := [(0, some { group := 0, launch := 0, core := 0, context := 0, get := get, z := tensor 0, target := target, offset := 0, signal := 0, past := .none })]
    collCmds := [(0, some { group := 0, launch := 0, core := 0, context := 0, kind := 0, op := 0, zd := tensor 0, zs := tensor 0, set := 1
                            seq := 4, past := .none, aborted := aborted })]
    landed := landed }

/-- Landing region 2 begins at `firstPc` and takes XPUTs; region 1 is a staging region there. -/
def openRegion : State :=
  let s := { fabric with tlb := [⟨0, firstPc / 2 ^ 16, BitVec.ofNat 64 (firstPc + 0xBF), false⟩] }
  (s.pokeBytes 0x1020 (leBytes 8 firstPc)).pokeBytes 0x1040 (leBytes 8 firstPc ++ leBytes 8 0 ++ leBytes 8 (2 ^ 63 + 2 ^ 62))

theorem test_witness_FabricEvents :
    let s := sending (.transfer false 1 0 0)
    let c := sending (.coll 0 0 (tensor 0) 1 4)
    (s.group 0).readyFab = some (⟨.decided true, .transfer false 1 0 0, tensor 0⟩ : FabEntry) ∧ (s.group 0).life = .resident
      ∧ s.locksFree (s.group 0).core (s.fabPlan ⟨0, 0, 0, s.contextOf (s.group 0), false, tensor 0, 1, 0, 0, .none⟩) = true
      ∧ ((underWay false 0 none []).fabCmd? 0).any (fun c => c.target.toNat % 4096 == fabric.driver.domainId.toNat) = true
      ∧ ((underWay false 5 none []).fabCmd? 0).any (fun c => !c.get && !fabric.reaches (c.actor fabric).part (c.target.toNat % 4096)) = true
      ∧ ((underWay true 5 none []).fabCmd? 0).any (fun c => c.get) = true ∧ (2 : BitVec 2) ≠ 3 ∧ (2 : BitVec 2) ≠ 0
      ∧ ((c.group 0).readyFab).any (fun e => e.op == .coll 0 0 (tensor 0) 1 4) = true
      ∧ (c.collSet 1).valid = false ∧ (fabric.collSet 1).valid = true := by decide

theorem test_witness_FabricEvents_packets :
    let p : Packet := ⟨1, 2, 0, 0, 8, 8, List.replicate 8 0, [0], 0, false, none, true⟩
    let s := openRegion
    packetSound p = true ∧ s.fabricDown = false ∧ s.checkLanding (s.landing 3) 0 8 8 false none = some (1, .bad)
      ∧ s.checkLanding (s.landing 2) 0 8 8 false none = none ∧ p.get = false ∧ p.signal = none ∧ p.bytes.length = p.esize
      ∧ canonical (BitVec.ofNat 64 (((s.landing 2).base + p.offset) % 2 ^ 64)) = true
      ∧ (match s.translate (s.landing 2).context (s.partOf (s.landing 2).context) (((s.landing 2).base + p.offset) % 2 ^ 64) aWrite with
          | .ok pa _ => !isView pa && !s.stackDead pa && decide (pa + p.esize ≤ 2 ^ 51)
          | _ => false) = true := by decide

theorem test_witness_FabricEvents_contributions :
    let s := openRegion
    let e := s.collSet 1
    let l := s.landing e.stage
    let mine := underWay false 0 none []
    let without := mine.pokeBytes 0x1028 (leBytes 2 0 ++ leBytes 6 0 ++ leBytes 8 0)
    let plain := mine.pokeBytes 0x1028 (leBytes 2 0 ++ leBytes 6 0 ++ leBytes 8 (2 ^ 63))
    e.valid = true ∧ l.valid = true ∧ l.stage = true ∧ 2 * e.members * e.slot ≤ l.bytes ∧ 1 < e.members ∧ 1 ≠ e.rank
      ∧ s.bufferFree 1 4 1 = true ∧ s.fabricDown = false ∧ (List.replicate 64 (0 : Byte)).length ≤ e.slot ∧ s.hasEnded 1 4 = false
      ∧ (s.landBytes 1 e l 4 1 [7, 8] [0]).2 = .ok
      ∧ e.rank < e.members ∧ [mine, without, plain].all (fun s => s.bufferFree 1 4 e.rank && (s.collSet 1).valid
          && (s.openColl 1 4).any fun x => x.2.aborted.isNone) = true
      ∧ (without.landing e.stage).valid = false ∧ (plain.landing e.stage).valid = true ∧ (plain.landing e.stage).stage = false := by decide

theorem test_witness_FabricEvents_routes :
    let u := underWay false 0 none []
    let s := ((u.pokeBytes 0x2020 (leBytes 8 (firstPc + 0x300))).pokeBytes (firstPc + 0x302) (leBytes 2 5)).pokeBytes 20 (leBytes 4 35)
    let cut := { s with ports := (List.range 18).map fun p => (p, ⟨true, 0⟩) }
    let waits := fun (s : State) (lost : Bool) => (s.collCmd? 0).any fun c =>
      c.aborted.isNone && !s.allLanded c.setIndex c.seq (s.collSet c.setIndex).members && s.routeLost c == lost
    waits s false = true ∧ waits { s with fabricDown := true } true = true ∧ waits cut true = true
      ∧ (cut.collCmd? 0).any (fun c => decide (1 < (cut.collSet c.setIndex).members) && (cut.collSet c.setIndex).rank != 1
          && (match cut.member (cut.collSet c.setIndex) 1 with
            | .ok v _ => !cut.reaches (c.actor cut).part (v % 4096)
            | _ => false)) = true
      ∧ (s.openColl 1 (6 - 2)).isSome = true := by decide

theorem test_witness_FabricEvents_ends :
    let both : List Landed := [⟨1, 4, 0⟩, ⟨1, 4, 1⟩]
    let ended := { underWay false 0 none [] with collCmds := [], collEnded := [(2, some 4)] }
    ((underWay false 0 (some true) []).collCmd? 0).any (fun c => c.aborted == some true) = true
      ∧ ((underWay false 0 none both).collCmd? 0).any (fun c => c.aborted.isNone
          && (underWay false 0 none both).allLanded c.setIndex c.seq (fabric.collSet 1).members) = true
      ∧ ((underWay false 0 none []).openColl 1 4).any (fun x => x.2.aborted.isNone) = true ∧ (underWay false 0 none []).openColl 1 5 = none
      ∧ (underWay false 0 none []).hasEnded 1 5 = false ∧ ended.openColl 1 4 = none ∧ ended.hasEnded 1 4 = true := by
  decide

/-- A request of core 0's L1 for line `line`, as number 0, at its home or at the slice of its own sector. -/
def request (s : State) (kind : ReqKind) (stage : ReqStage) (line : Nat) (home : Bool) : Req :=
  { kind := kind, stage := stage, l1 := 0, group := 0, context := 0, line := line
    slice := if home then s.homeSlice (128 * line) else s.localSlice 0 line, arrived := 0
    lane := false, ordered := false, scope := 0, tries := 0, data := 7, tags := 0, c := 0, h := 0, p := 0, s := 0
    visitor := 0, fellBack := false, prefetch := false }
def asking (kind : ReqKind) (stage : ReqStage) (line : Nat) : State :=
  let s := { lab with fresh := 1 }
  s.setReq 0 (some (request s kind stage line true))
/-- Request 0 meets a test. -/
def holdsFor (s : State) (f : Req → Bool) : Bool := (s.req? 0).any f

/-- A line whose home is not in core 0's sector. -/
def farLine : Nat := ((List.range 64).map fun i => 8192 + 32 * i).find? (fun n => lab.localSlice 0 n != lab.homeSlice (128 * n)) |>.getD 0
/-- A granted request for that line, not yet at its home, and one in order whose line another L1 pins. -/
def afar (kind : ReqKind) : State :=
  let s := { lab with fresh := 1 }
  s.setReq 0 (some (request s kind .granted farLine false))
def contested (kind : ReqKind) : State :=
  let s := { lab with fresh := 1 }
  let k := s.homeSlice (128 * 8192)
  (s.setReq 0 (some { request s kind .granted 8192 true with ordered := true })).setSlice k { s.slice k with pins := [(8192, 1)] }
/-- The sector keeps a visitor copy of the far line. -/
def visited : State :=
  let s := afar .read
  let k := s.localSlice 0 farLine
  s.setSlice k { s.slice k with visitors := [(farLine, some ⟨5, 0, (s.sector 0).visitor⟩)] }
/-- A scalar atomic's request. -/
def samoReq : AtomReq := { (default : AtomReq) with pa := 128 * 8192, size := 4, type := 2, operand := ⟨1, 0⟩, dest := some 8, scalar := true, counted := true }

/-- The request of a scalar atomic stands at its home, whose group waits for the register it brings. -/
def answering (i : Instr) : State :=
  let s := asking (.atomic samoReq) .granted 8192
  onWay s { access true i acc0 with sent := some 0 }

theorem test_witness_MemoryEvents_scalar :
    [Instr.samo 5 4 6 0 4, .scas 5 4 6 4].all (fun i =>
      let s := answering i
      ((s.group 0).accesses.find? fun y => y.sent == some 0) == some { access true i acc0 with sent := some 0 }
        && holdsFor s (fun r => s.mayPerform r.slice 0 r && s.atHome r && !s.refuses r && !s.unreachable (sectorOfL1 r.l1) r.line
          && r.kind == .atomic samoReq && !((s.touchHome r).atomAtHome r.group samoReq).1.poison)) = true
      ∧ (answering (.samo 5 4 6 0 4)).grp.life = .resident := by decide

theorem test_witness_MemoryEvents :
    let may := fun (s : State) (home refuse : Bool) => holdsFor s fun r =>
      s.mayPerform r.slice 0 r && s.atHome r == home && s.refuses r == refuse
        && !s.unreachable (sectorOfL1 r.l1) r.line && (s.badBlocks r.line).isEmpty
    let w : ReqKind := .write 0 1 0 0 false
    let down := fun (s : State) => { s with deadStacks := List.range 12 }
    may (asking .read .granted 8192) true false = true ∧ may (contested .read) true true = true
      ∧ may (afar .read) false false = true ∧ (afar .read).visitorCopy 0 farLine = none
      ∧ may visited false false = true ∧ (visited.visitorCopy 0 farLine).any (fun v => v.data == 5) = true
      ∧ may (asking .prefetch .granted 8192) true false = true
      ∧ may (asking w .granted 8192) true false = true ∧ may (afar w) false false = true
      ∧ may (asking (.write 0 1 0 0 true) .granted 8192) true false = true ∧ (8192 < 2 ^ 44)
      ∧ holdsFor (down (asking w .granted 8192)) (fun r => (down (asking w .granted 8192)).mayPerform r.slice 0 r
          && (down (asking w .granted 8192)).unreachable (sectorOfL1 r.l1) r.line) = true
      ∧ may (asking (.atomic samoReq) .granted 8192) true false = true ∧ may (afar (.atomic samoReq)) false false = true
      ∧ may (contested (.atomic samoReq)) true true = true
      ∧ holdsFor (contested (.atomic samoReq)) (fun r => !(contested (.atomic samoReq)).leftOut r samoReq) = true
      ∧ samoReq.scalar = true ∧ samoReq.joined = [] ∧ ((asking (.atomic samoReq) .granted 8192).group 0).life = .resident
      ∧ may (asking .pin .granted 8192) true false = true ∧ may (afar .pin) false false = true
      ∧ holdsFor (down (asking .pin .granted 8192)) (fun r => (down (asking .pin .granted 8192)).mayPerform r.slice 0 r
          && (down (asking .pin .granted 8192)).unreachable (sectorOfL1 r.l1) r.line) = true := by
  decide

theorem test_witness_MemoryEvents_replies :
    let filled := asking .read .replied 8192
    let w : ReqKind := .write 0 1 0 0 false
    holdsFor filled (fun r => r.stage == .replied && !(filled.l1 r.l1).sweeping && !filled.acksOut r.l1 (some r.line) && !(filled.l1 r.l1).staleFill false r && !r.dropsFill) = true
      ∧ ((filled.l1 0).lines.get none 8192) = none
      ∧ holdsFor (asking .read .replied farLine) (fun r =>
          let s := (asking .read .replied farLine).setReq 0 (some { r with data := (lab.homeLine farLine).1, tags := (lab.homeLine farLine).2 })
          (s.req? 0).any s.mayVisit) = true
      ∧ [w, .write 0 1 0 0 true, .atomic samoReq].all (fun k => holdsFor (asking k .replied 8192) fun r =>
          r.kind == k && r.stage == .replied && (asking k .replied 8192).ackDue 0 r && !((lab.l1 r.l1).pins.contains r.line)) = true
      ∧ holdsFor (asking .read .refused 8192) (fun r => r.stage == .refused) = true
      ∧ ((unsentLine.l1 0).lines.get none (firstPc / 128)).any (fun x => x.unsent.get 0 0 != 0 && x.unsent.get 0 1 == 0) = true := by decide

theorem test_witness_MemoryEvents_slices :
    let drain := fun (n : Nat) => lab.upd fun g => { g with racq := n, racqCore := 5 }
    let l1 := lab.l1Of 5
    let held := (drain 1).setL1 l1 { (drain 1).l1 l1 with draining := some 0, drainFrom := 1 }
    let writes := held.setReq 0 (some { request held (.write 0 1 0 0 false) .granted 8192 true with l1 := l1 })
    let steps := held.setReq 0 (some { request held (.atomic samoReq) .granted 8192 true with l1 := l1 })
    let served := lab.setSlice 0 { lab.slice 0 with served := true }
    let rated := owned.setSlice 0 { owned.slice 0 with contexts := [(0, { SliceContext.start with rate := 1 })] }
    ((drain 1).group 0).racq = 1 ∧ ((drain 1).l1 ((drain 1).l1Of 5)).sweeping = false ∧ ((drain 1).l1 ((drain 1).l1Of 5)).draining = none
      ∧ (writes.group 0).racq = 1 ∧ (writes.l1 l1).draining = some 0 ∧ writes.writesBefore l1 (writes.l1 l1).drainFrom = true
      ∧ (steps.group 0).racq = 1 ∧ (steps.l1 l1).draining = some 0 ∧ steps.stepsBefore l1 (steps.l1 l1).drainFrom = true
      ∧ ((drain 2).group 0).racq = 2 ∧ (rated.acting 0 0).rate ≠ 0 ∧ (lab.acting 0 0).rate = 0
      ∧ (lab.slice 0).served = false ∧ (lab.slice 0).queue = [] ∧ (served.slice 0).served = true
      ∧ (served.slice 0).contexts.wf SliceContext.start = true
      ∧ SliceContext.start.rate = 0 ∧ ({ SliceContext.start with rate := 1, tokens := 2 }).rate ≠ 0
      ∧ SliceContext.start.tokens.toNat ≤ SliceContext.start.depth.toNat
      ∧ SliceContext.pays { SliceContext.start with rate := 1, tokens := 2 } 2 = true := by decide

theorem test_witness_FailureEvents :
    let s := { lab with ports := [(3, ⟨false, 7⟩)] }
    let empty := lab.setSlice 3 { lab.slice 3 with moving := true }
    let full := lab.setSlice 3 { lab.slice 3 with errors := lab.darkThreshold }
    (s.ports.get ⟨false, 0⟩ 3).resends = 7 ∧ (s.ports.get ⟨false, 0⟩ 4).resends < 7 ∧ (s.ports.get ⟨false, 0⟩ 4).down = false
      ∧ (lab.slice 3).errors < lab.darkThreshold ∧ lab.darkThreshold ≤ (full.slice 3).errors ∧ (full.slice 3).dark = false
      ∧ (∀ i < 16, (full.slice (3 / 16 * 16 + i)).dark = false ∧ (full.slice (3 / 16 * 16 + i)).moving = false)
      ∧ (lab.launch? 0).any (fun l => l.ending.isNone && l.casts.any fun c => sectorOfCore c.core == 0 && clusterOfCore c.core == 0) = true
      ∧ ((underWay false 0 none []).fabList.any fun x => x.2.launch == 0) = true
      ∧ (∃ x ∈ (underWay false 0 none []).collCmds, x.2.any fun c => c.launch == 0)
      ∧ (empty.slice 3).moving = true ∧ (empty.slice 3).queue = [] ∧ empty.reqList = [] := by decide

/-! ### Launches, power, the driver, the step -/

/-- Queue 5's descriptor at 160 and its ring on the mapped page, one record announced by a notify store: a launch of one group of
8 threads with this priority, cluster mask and fused setting. -/
def queueing (prio place fused : Nat) (f : Option Bool) : State :=
  let s := { owned with slots := [(0, some 5)], workQueues := [(5, ⟨0, 1, [(1, 0)]⟩)], fused := [(0, f)] }
  let s := s.pokeBytes 160 (leBytes 8 (firstPc + 0x200) ++ leBytes 8 (firstPc + 0x100) ++ leBytes 4 1)
  let s := s.pokeBytes (firstPc + 0x200) (leBytes 8 firstPc ++ leBytes 8 firstPc)
  let s := s.pokeBytes (firstPc + 0x220) (leBytes 4 0x10001)
  s.pokeBytes (firstPc + 0x260) (leBytes 4 0x20410 ++ leBytes 4 (2 ^ 27 + 8 * 2 ^ 22 + 8 * 2 ^ 16 + fused * 2 ^ 15 + prio * 2 ^ 12 + place)
    ++ leBytes 8 0 ++ leBytes 4 (2 ^ 28))
/-- A launch that is due, without its groups. -/
def dueLaunch : State := { lab with groups := [], launches := [(0, some { firstLaunch with left := 0 })] }
/-- Every resident group of the launch waits, and one is not yet dispatched. -/
def blockedLaunch : State :=
  let s := lab.upd fun g => { g with waitS := .lsync }
  { s with launches := [(0, some { firstLaunch with todo := [(0, 1)], left := 2 })] }

/-- Queue 5's record in a package whose permitted cores the launch of the states of the tests holds. -/
def crowded : State := queueing 1 1 1 (some false)

theorem test_witness_LaunchEvents :
    let s := queueing 0 0 0 none
    (5 < 1024) ∧ (s.queueDesc 5).enable = true ∧ notBehind (s.workQueue 5).head 1 = true ∧ notBehind (s.workQueue 5).announced 1 = true
      ∧ 31 < 32 ∧ s.slotFrees 31 = true
      ∧ s.bestQueue (s.decidable.map (·.1)) = some 5
      ∧ (s.decidable.find? (fun x => x.1 == 5)).any (fun x => match x.2.2 with | .enter _ => true | _ => false) = true ∧ s.boot.ready = true
      ∧ (dueLaunch.launch? 0).any (fun l => l.due && dueLaunch.metered 0 l && l.l1s.all (fun j => !dueLaunch.sweepOf 0 j && (dueLaunch.l1 j).pins.isEmpty)) = true
      ∧ dueLaunch.accessesDone 0 = true ∧ dueLaunch.hostView = []
      ∧ (blockedLaunch.launch? 0).any (blockedLaunch.rotates 0) = true ∧ blockedLaunch.asked 0 = none ∧ blockedLaunch.lastBlocked 0 = some 0
      ∧ ((lab.setLaunch 1 (some { firstLaunch with context := 3, todo := [(0, 0)] })).nextContext 0).isSome = true
      ∧ (lab.launch? 0).any (fun l => l.ending.isNone && l.context == 0) = true := by decide

/-- A launch with one group to start, and one with none or that ends. -/
theorem test_witness_LaunchEvents_dispatch :
    let s := { dueLaunch with launches := [(0, some { firstLaunch with todo := [(0, 0)], left := 1 })] }
    (s.launch? 0).any (fun l => l.ending.isNone && s.mayRun l.partition l.context && l.todo == [(0, 0)] && (s.startFor l (0, 0)).isSome) = true
      ∧ (lab.launch? 0).any (fun l => l.todo.isEmpty) = true ∧ lab.launch? 1 = none := by decide

theorem test_witness_LaunchEvents_preempts :
    (crowded.headRecord 5).any (fun r => (crowded.victims (crowded.queueDesc 5) r).all (fun x => x.2.preempt.isNone)
        && crowded.youngestOf (crowded.victims (crowded.queueDesc 5) r) == some 0
        && crowded.verdict (crowded.queueDesc 5) r == .wait true) = true ∧ crowded.inSlot 5 = true := by decide

theorem test_witness_PowerEvents :
    let capped := { lab with driver := { lab.driver with parts := [(9, 600)] } }
    (lab.island 0).cap ≤ 7 ∧ (lab.island 0).slow ≤ 2 ∧ lab.level 0 ≠ 0 ∧ (lab.island 0).thermal ≤ 7 ∧ (lab.island 0).part.get 7 0 ≤ 7
      ∧ lab.capOf 0 = 0 ∧ capped.capOf 0 ≠ 0
      ∧ (lab.island 0).row ≤ 7 ∧ (lab.launch? 0).isSome = true ∧ lab.launch? 1 = none
      ∧ { lab with clock := 64 }.routerIdle 3 = true ∧ lab.fabricWake = false ∧ lab.routerIdle 3 = false
      ∧ (heads true).fabricWake = true ∧ 3 ≤ 4 ∧ (4 : Nat) ≠ 0 := by decide

theorem test_witness_DriverEvents :
    let busy : State := { lab with driver := { lab.driver with invBusy := true } }
    let open_ : State := { lab with driver := { lab.driver with freplyId := 1 }, faults := [⟨1, 0, 0⟩] }
    let dead : State := { lab with deadStacks := List.range 12 }
    lab.driver.invBusy = false ∧ busy.driver.invBusy = true ∧ (∀ f ∈ lab.faults, f.id ≠ lab.driver.freplyId.toNat)
      ∧ (∃ f ∈ open_.faults, f.id = open_.driver.freplyId.toNat) ∧ open_.parkedOn open_.driver.freplyId.toNat = []
      ∧ open_.faults ≠ [] ∧ lab.faults = [] ∧ 2 ^ 51 ≤ (0x8000000000000 : BitVec 52).toNat
      ∧ (0x8000000000000 : BitVec 52).toNat + 8 ≤ 2 ^ 52 ∧ lab.driver.tagBase.toNat + 2 ^ 47 ≤ 2 ^ 51
      ∧ (0x7FFFFFFFFFFFF : BitVec 52).toNat < 2 ^ 51 ∧ (0x100000 : BitVec 52).toNat + 8 ≤ 2 ^ 51 ∧ lab.stackDead 0x100000 = false
      ∧ dead.stackDead 0x100000 = true := by
  refine ⟨by decide, by decide, by decide, ⟨⟨1, 0, 0⟩, by decide, by decide⟩, ?_⟩
  decide

theorem test_witness_DeviceStartEvents :
    State.reset.boot.step = 0 ∧ ([(1, 0)] : List (Nat × Nat)).contains (1, 0) = true ∧ ([] : List (Nat × Nat)).contains (1, 0) = false
      ∧ State.reset.boot.record = [] ∧ lab.boot.step ≠ 0 ∧ maskOk 1 = true ∧ maskOk 0 = false
      ∧ ([(9, 0)] : List (Nat × Nat)) = [(9, 0)] ∧ lab.boot.halted = false ∧ lab.boot.fixed = false ∧ 11 ≤ lab.boot.step ∧ State.reset.boot.step < 11
      ∧ State.boot { lab with boot := { lab.boot with halted := true } } = { lab.boot with halted := true }
      ∧ 2 ^ 51 ≤ (2 ^ 51 : BitVec 64).toNat ∧ (2 ^ 51 : BitVec 64).toNat + (16 : BitVec 32).toNat ≤ 2 ^ 52 := by decide

/-- The image's signature either verifies or does not: of the two clauses one holds at reset. -/
theorem test_witness_DeviceStartEvents_image :
    Config.sm2Verifies State.reset.boot.image = true ∨ Config.sm2Verifies State.reset.boot.image = false := by
  cases Config.sm2Verifies State.reset.boot.image <;> simp

/-- The scalar word SADDI s7, s6, −4 about to be fetched, and the word `w`. -/
def placed (nbits w : Nat) : State := State.reset.withFetchWord nbits w

theorem test_witness_StepRunsDecoded :
    let a := { placed 32 0x101C6FFC with agenda := [] }
    let b := { placed 32 0x80000000 with agenda := [] }
    (placed 32 0x101C6FFC).agenda = .scalar 0 :: [] ∧ a.grp.scalarRuns = true ∧ a.fetchScalar a.grp = .ok [0xFC, 0x6F, 0x1C, 0x10]
      ∧ (decodeBytes false [0xFC, 0x6F, 0x1C, 0x10]).toOption = some (.saddi 7 6 0xFFC)
      ∧ (placed 32 0x80000000).agenda = .scalar 0 :: [] ∧ b.grp.scalarRuns = true ∧ b.fetchScalar b.grp = .ok [0, 0, 0, 0x80]
      ∧ (decodeBytes false [0, 0, 0, 0x80]).toOption = none
      ∧ a.scalarHeld (.saddi 7 6 0xFFC) = false ∧ a.grp.accesses = [] ∧ a.scalarLegal (.saddi 7 6 0xFFC) = true
      ∧ (onWay a (access true (.sld 6 4 0) acc0)).scalarHeld (.saddi 7 6 0xFFC) = true
      ∧ (onWay a (access true (.sld 6 4 0) acc0)).grp.scalarRuns = true
      ∧ (lab.upd fun g => { g with waitS := .none, handler := none, life := .saved }).grp.scalarRuns = false := by decide

theorem test_witness_StepRunsDecoded_lane :
    let a := { placed 96 0x0001_00A0_1803_8000_0400_0000 with agenda := [] }
    let due := a.upd fun g => { g with poisonDue := [3, 5] }
    let mid := due.upd fun g => { g with lane := g.lane.setIssued 0 true }
    let held := mid.upd fun g => { g with deferred := some ⟨cSWTRAP, g.pc, 5, false, 0, false⟩ }
    (placed 96 0x0001_00A0_1803_8000_0400_0000).agenda = .lane 0 :: [] ∧ a.laneIssues = true ∧ a.laneBound = false ∧ a.poisonFirst = none
      ∧ a.fetchLane a.grp = .ok [0, 0, 0, 4, 0, 0x80, 3, 0x18, 0xA0, 0, 1, 0]
      ∧ (decodeBytes true [0, 0, 0, 4, 0, 0x80, 3, 0x18, 0xA0, 0, 1, 0]).toOption = some (.iadd (ops 1 5 6 7 0 2 0))
      ∧ (decodeBytes true [0, 0, 0, 0, 0, 0, 0, 0, 0, 0, 0, 0xFF]).toOption = none
      ∧ due.laneIssues = true ∧ due.laneBound = false ∧ due.grp.poisonDue = 3 :: [5] ∧ due.grp.stream.frag.issued = false ∧ due.grp.xchg = none
      ∧ mid.laneIssues = true ∧ mid.poisonFirst = none ∧ held.laneIssues = true ∧ held.laneBound = true
      ∧ lab.laneIssues = false ∧ { lab with agenda := [.ahead 0] }.agenda = .ahead 0 :: []
      ∧ Instr.isLane (.syieldResume 0) = false ∧ Instr.isScalar (.syieldResume 0) = false := by decide

/-- A group at the first of these instructions. -/
def program (lane : Bool) (is : List Instr) : State :=
  { (State.reset.withGroup lane).pokeBytes firstPc (is.flatMap fun i => (encode i).getD []) with agenda := [] }

/-- One thread stands at a relaxed load, with an atomic declared `use` of another word after it. -/
def leads (use : BitVec 3) : State :=
  let at_ := { ops 0 10 6 0 2 2 0 with use := use }
  let s := { program true [.ld (ops 0 8 4 0 0 2 0), .atom at_] with tlb := [⟨0, firstPc / 2 ^ 16, BitVec.ofNat 64 (firstPc + 0xBF), false⟩] }
  withV (s.upd fun g => { g with lane := { g.lane with frags := [(0, ⟨1, BitVec.ofNat 64 firstPc, .ready, 0, 0, false⟩)] } })
    [(4, BitVec.ofNat 32 firstPc), (6, BitVec.ofNat 32 (firstPc + 0x400))]

/-- An atomic whose use lets it take effect before the load, and one of no use. -/
theorem test_witness_StepRunsDecoded_ahead :
    (leads 3).laneIssues = true ∧ (leads 0).laneIssues = true ∧ (leads 0).leading = none
      ∧ ∃ x t, (leads 3).leading = some x ∧ earlyAtomic x.1 x.2.1 x.2.2 ((leads 3).upd Group.movedOn) = some t := by
  refine ⟨by decide, by decide, by decide, ⟨_, _, rfl, rfl⟩⟩

/-- The lane stream `back` bytes before the end of its page; the next page mapped, or not. -/
def atEdge (back : Nat) (mapped : Bool) : State :=
  let s := { lanes with tlb := [⟨0, firstPc / 2 ^ 16, BitVec.ofNat 64 (firstPc + 0xA7), false⟩] ++
    (if mapped then [⟨0, firstPc / 2 ^ 16 + 1, BitVec.ofNat 64 (2 * firstPc + 0xA7), false⟩] else []) }
  let s := withLlen s
  s.upd fun g => { g with lane := .start 8 (BitVec.ofNat 64 (firstPc + 65536 - back)) .none }
where
  withLlen (s : State) : State := s.setLaunch 0 (some { firstLaunch with record := { firstLaunch.record with llen := 257 } })

theorem test_witness_Fetch_edge :
    let s := atEdge 4 true
    let sick := s.setTagsOf (2 * firstPc) 8 tagPOI
    let worn := s.setTagsOf (firstPc + 65528) 8 tagPOI
    let pc := fun (s : State) => s.grp.stream.frag.pc
    let crossing := fun (s : State) => inSection (s.recordOf s.grp).lcode (s.recordOf s.grp).llen (pc s) && canonical (pc s)
      && decide (65536 - (pc s).toNat % 65536 < 12) && s.xlate s.grp (pc s) aFetch == .ok (firstPc + 65532) true
      && s.xlate s.grp (pc s + 11) aFetch == .ok (2 * firstPc + 7) true
    [s, sick, worn].all crossing = true ∧ s.poisoned 0 (firstPc + 65532) 4 = false ∧ s.poisoned 0 (2 * firstPc) 8 = false
      ∧ sick.poisoned 0 (2 * firstPc) 8 = true ∧ worn.poisoned 0 (firstPc + 65532) 4 = true
      ∧ (match (atEdge 4 false).xlate (atEdge 4 false).grp (pc (atEdge 4 false) + 11) aFetch with | .fault _ => true | _ => false) = true
      ∧ (atEdge 4 false).xlate (atEdge 4 false).grp (pc (atEdge 4 false)) aFetch = .ok (firstPc + 65532) true := by decide

theorem test_witness_Fetch :
    let s := lanes
    let r := s.recordOf s.grp
    let last := BitVec.ofNat 64 (firstPc + 16372)
    let sick := s.setTagsOf firstPc 8 tagPOI
    let gone := { s with tlb := [] }
    let out := s.upd fun g => { g with pc := BitVec.ofNat 64 (firstPc + 256), lane := .start 8 (BitVec.ofNat 64 (firstPc + 768)) .none }
    s.grp.pc.toNat % 4 = 0 ∧ inSection r.scode r.slen s.grp.pc = true ∧ canonical s.grp.pc = true
      ∧ s.xlate s.grp s.grp.pc aFetch = .ok firstPc true ∧ s.xlate s.grp (s.grp.pc + 3) aFetch = .ok (firstPc + 3) true
      ∧ s.poisoned (sectorOfCore s.grp.core) firstPc 4 = false ∧ inSection r.lcode r.llen s.grp.stream.frag.pc = true ∧ s.grp.stream.frag.pc.toNat % 65536 ≤ 65524
      ∧ s.xlate s.grp (s.grp.stream.frag.pc + 11) aFetch = .ok (firstPc + 11) true ∧ s.poisoned (sectorOfCore s.grp.core) firstPc 12 = false
      ∧ sick.xlate sick.grp sick.grp.pc aFetch = .ok firstPc true ∧ sick.xlate sick.grp (sick.grp.pc + 3) aFetch = .ok (firstPc + 3) true
      ∧ sick.poisoned (sectorOfCore sick.grp.core) firstPc 4 = true ∧ inSection r.scode r.slen sick.grp.pc = true
      ∧ (match gone.xlate gone.grp gone.grp.pc aFetch with | .fault _ => true | _ => false) = true
      ∧ (match gone.xlate gone.grp gone.grp.stream.frag.pc aFetch with | .fault _ => true | _ => false) = true
      ∧ inSection (gone.recordOf gone.grp).lcode (gone.recordOf gone.grp).llen gone.grp.stream.frag.pc = true
      ∧ sick.xlate sick.grp (sick.grp.stream.frag.pc + 11) aFetch = .ok (firstPc + 11) true ∧ sick.poisoned (sectorOfCore sick.grp.core) firstPc 12 = true
      ∧ gone.grp.pc.toNat % 4 = 0 ∧ inSection (gone.recordOf gone.grp).scode (gone.recordOf gone.grp).slen gone.grp.pc = true
      ∧ canonical gone.grp.pc = true
      ∧ last.toNat % 65536 ≤ 65524 ∧ (BitVec.ofNat 64 (firstPc + 2)).toNat % 4 ≠ 0
      ∧ out.grp.pc.toNat % 4 = 0 ∧ inSection r.scode r.slen out.grp.pc = false ∧ inSection r.lcode r.llen out.grp.stream.frag.pc = false := by
  decide

theorem test_witness_StepAlwaysRuns : ∀ i rest, lab.agenda = .event i :: rest → i.isLane = false ∧ i.isScalar = false := by
  intro i rest h
  have h' : lab.agenda = [] := rfl
  rw [h'] at h
  cases h

/-- A step that answers a next state from a state whose memory lists bytes. -/
theorem test_witness_StepKeepsMemoryOk : (placed 32 0x101C6FFC).MemoryOk ∧ ∃ t, step (placed 32 0x101C6FFC) = .next t := by
  refine ⟨?_, ⟨_, rfl⟩⟩
  unfold State.MemoryOk Memory.wf
  decide

theorem test_witness_StartValues : (63 : Nat) ≠ 0 ∧ 63 < 64 := by decide

theorem test_witness_EncodingFaithful :
    Instr.wf (.saddi 7 6 0xFFC) = true ∧ (encode (.saddi 7 6 0xFFC)).isSome = true ∧ Instr.wf (.iadd (ops 1 5 6 7 0 2 0)) = true
      ∧ (encode (.iadd (ops 1 5 6 7 0 2 0))).isSome = true := by decide

/-! ### Results the spec works out -/

/-- Register `r` of thread 0 after an instruction. -/
def result (s : State) (i : Instr) (r : Nat) : Word := (after (exec i s)).rdV 0 r

/-- R98: 0x7FFF_FFF0 + 0x20. -/
theorem test_iadd_wraps_and_saturates :
    let s := withV lanes [(6, 0x7FFFFFF0), (7, 0x20)]
    result s (.iadd (ops 0 5 6 7 0 2 0)) 5 = 0x80000010 ∧ result s (.iadd (ops 1 5 6 7 0 2 0)) 5 = 0x7FFFFFFF := by decide
/-- R98: 0xFFFF_FFF0 + 0x20 as .Z32, saturating. -/
theorem test_iadd_saturates_unsigned :
    result (withV lanes [(6, 0xFFFFFFF0), (7, 0x20)]) (.iadd (ops 1 5 6 7 0 6 0)) 5 = 0xFFFFFFFF := by decide
/-- R98: 5 − 9 as .Z32, saturating. -/
theorem test_isub_saturates_unsigned :
    result (withV lanes [(6, 5), (7, 9)]) (.isub (ops 1 5 6 7 0 6 0)) 5 = 0 := by decide

/-- R114: the worked example, 300.0, 464.0 and 500.0 to E4M3. -/
theorem test_cvt_e4m3 :
    result (withV lanes [(9, 0x43960000)]) (.cvt (ops 0 8 9 0 0 12 10)) 8 = 0x79
      ∧ result (withV lanes [(9, 0x43E80000)]) (.cvt (ops 0 8 9 0 0 12 10)) 8 = 0x7E
      ∧ result (withV lanes [(9, 0x43FA0000)]) (.cvt (ops 0 8 9 0 0 12 10)) 8 = 0x7F
      ∧ result (withV lanes [(9, 0x43FA0000)]) (.cvt (ops 1 8 9 0 0 12 10)) 8 = 0x7E := by decide
/-- R114: the same values to E5M2. -/
theorem test_cvt_e5m2 :
    result (withV lanes [(9, 0x43960000)]) (.cvt (ops 0 8 9 0 0 13 10)) 8 = 0x5D
      ∧ result (withV lanes [(9, 0x43E80000)]) (.cvt (ops 0 8 9 0 0 13 10)) 8 = 0x5F
      ∧ result (withV lanes [(9, 0x43FA0000)]) (.cvt (ops 0 8 9 0 0 13 10)) 8 = 0x60 := by decide
/-- R116: the example with 0x7F7E_3800. -/
theorem test_unpack_f16_e4m3 :
    let s := withV lanes [(2, 0x7F7E3800)]
    result s (.unpack (ops 0 4 2 0 0 8 12)) 4 = 0x3C000000 ∧ result s (.unpack (ops 0 4 2 0 0 8 12)) 5 = 0x7E005F00 := by decide

/-- A group of 64 threads whose threads 4 to 11 have q6 set and whose even threads have q2 set. -/
def voters : State :=
  let s := lanes.upd fun g => { g with w := 64, n := 32, lane := .start 64 (BitVec.ofNat 64 firstPc) .none }
  (List.range 64).foldl (fun (s : State) t => s.upd fun g =>
    (g.setPred t 6 (decide (4 ≤ t ∧ t ≤ 11))).setPred t 2 (decide (t % 2 = 0))) s
/-- The BALLOT example of spec 06 (R131): 56 active threads, even ones counted. -/
theorem test_ballot_example :
    let t := after (exec (.ballot { ops 0 20 0 0 0 0 2 with q := 6, neg := true }) voters)
    t.rdV 0 20 = 0x55555005 ∧ t.rdV 63 21 = 0x55555555 ∧ t.rdV 4 20 = voters.rdV 4 20 := by decide

/-- R32: with W = 64, N = 40 and RWB = 0x1_0000, v5 of thread 37 lies at byte 0x1_1734; after a split in two it is v5 of
thread 5 of the child at 0x1_1400. -/
theorem test_window_example :
    let s := (lanes.upd fun g => { g with w := 64, n := 40, rwb := 0x10000 }).wrV 37 5 0xAB
    (s.core 0).regByte 0x11734 = 0xAB ∧ (s.upd fun g => { g with w := 32, rwb := 0x11400 }).rdV 5 5 = 0xAB := by decide

/-- R149: K = 4, OFFSET = 0x100, thread 3. -/
theorem test_wings_example :
    let s := lanes.upd fun g => { g with lane := { g.lane with cap := { g.lane.cap with wingBase := 0x1000, wingSize := 4 } } }
    s.wingSlots 0x4000082348 = [9, 10, 11, 12, 13, 14, 15, 0] ∧ s.wingAt 3 9 = 0x1390 := by decide

/-- R168: a thread's COMMIT ends with its own 2^K entries (K = 1). -/
theorem test_commit_own_table :
    let s := (lanes.upd fun g => { g with lane := { g.lane with cap := { g.lane.cap with wingBase := 0x1000, wingSize := 1 } } }).setThr 0
      { lanes.thr 0 with progress := 2 }
    (commitScan 2 2 ⟨0, true⟩ s 0) = (s, .ok (true, 0)) := rfl

/-- The elements of the FP8 example of spec 11. -/
def fp8 (bytes : Nat) : Side := ⟨⟨bytes, false⟩, 12, false, 0, []⟩
/-- Spec 11, "An FP8 step": with aw = 0 a bit is lost, with aw = 1 none is. -/
theorem test_fp8_step :
    stepsOf false (fp8 0x01183C) (fp8 0x992C40) (BitVec.allOnes 128) 32 32 0 0x3F800000 = (0x4080BE80, true)
      ∧ stepsOf false (fp8 0x01183C) (fp8 0x992C40) (BitVec.allOnes 128) 32 32 1 0x3F800000 = (0x4080BEE0, false) := by decide
/-- Spec 11, "Steps along K round separately". -/
theorem test_steps_round_separately :
    let x := fp8 (0x38 + 0x38 * 2 ^ 256)
    stepsOf false x x (BitVec.allOnes 128) 64 32 3 0x4B800000 = (0x4B800000, false)
      ∧ stepsOf false (fp8 0x3838) (fp8 0x3838) (BitVec.allOnes 128) 64 32 3 0x4B800000 = (0x4B800001, false)
      ∧ stepsOf false x x (BitVec.allOnes 128) 64 32 0 0x4B800000 = (0x4B800000, true) := by decide
/-- Spec 11, "An asymmetric INT8 × INT4 group". -/
theorem test_int8_int4_group :
    let a : Side := ⟨⟨(List.range 30).foldl (fun v k => v + 128 * 2 ^ (8 * (k + 2))) (130 + 120 * 256), false⟩, 15, true, 32, [(0x00803800, false)]⟩
    let b : Side := ⟨⟨(List.range 30).foldl (fun v k => v + 2 * 2 ^ (4 * (k + 2))) 0xD7, false⟩, 14, false, 32, [(0x00023400, false)]⟩
    stepsOf true a b (BitVec.allOnes 128) 32 32 0 0 = (0x40C80000, false) := by decide

/-- R319: the two worked lines with LOCAL = 16. -/
theorem test_memory_layout :
    let s := { State.reset with driver := { State.reset.driver with localSel := 2 } }
    s.stackOf 0x35080 = some (5, 0x4080) ∧ s.stackOf 0xA800013000 = some (7, 0xC00009000) := by decide

/-- R398: the check value of the nine digits. -/
theorem test_crc16 : crc16 0xFFFF [0x31, 0x32, 0x33, 0x34, 0x35, 0x36, 0x37, 0x38, 0x39] = 0x29B1 := by decide
end Sys2Proof.Tests
end

