-- ==== Sys2Proof/Proofs/MemoryOk.lean ====
section
/-!
SUPPORT and O57. Every operation keeps the canonical form of memory's bytes and tags: one lemma per operation, in the model's order.
An operation that leaves memory alone has an equivalence, one that writes it an implication.
-/
namespace Sys2Proof.Machine

/-! ### The form of what an operation answers -/

/-- A state written out with its fields has canonical memory when its first two fields, the bytes and the tags, are canonical: an update
of any other field says nothing about memory. -/
@[simp] theorem State.memoryOk_mk {m t x0 x1 x2 x3 x4 x5 x6 x7 x8 x9 x10 x11 x12 x13 x14 x15 x16 x17 x18 x19 x20 x21 x22 x23 x24 x25 x26 x27
    x28 x29 x30 x31 x32 x33 x34 x35 x36 x37 x38 x39 x40 x41 x42 x43 x44 x45 x46 x47 x48 x49} :
    State.MemoryOk ⟨m, t, x0, x1, x2, x3, x4, x5, x6, x7, x8, x9, x10, x11, x12, x13, x14, x15, x16, x17, x18, x19, x20, x21, x22, x23, x24,
      x25, x26, x27, x28, x29, x30, x31, x32, x33, x34, x35, x36, x37, x38, x39, x40, x41, x42, x43, x44, x45, x46, x47, x48, x49⟩ ↔
    Memory.wf m ∧ t.wf 0#4 = true := Iff.rfl

/-- Folds the two parts back, after `State.memoryOk_mk`. -/
@[simp] theorem State.memoryOk_eta (s : State) : (Memory.wf s.mem ∧ s.tags.wf 0#4 = true) ↔ s.MemoryOk := Iff.rfl

@[simp] theorem State.memoryOk_ite {c : Prop} [Decidable c] {s t : State} :
    (if c then s else t).MemoryOk ↔ if c then s.MemoryOk else t.MemoryOk := by split <;> rfl

/-- A fold of steps that leave memory alone leaves it alone. -/
@[simp] theorem State.memoryOk_foldl {α : Type} {f : State → α → State} (hf : ∀ s a, (f s a).MemoryOk ↔ s.MemoryOk) (xs : List α)
    (s : State) : (xs.foldl f s).MemoryOk ↔ s.MemoryOk := by
  induction xs generalizing s with
  | nil => rfl
  | cons x xs ih => exact (ih _).trans (hf s x)

@[simp] theorem State.memoryOk_foldl_fst {α β : Type} {f : State × β → α → State × β}
    (hf : ∀ p a, (f p a).1.MemoryOk ↔ p.1.MemoryOk) (xs : List α) (p : State × β) :
    (xs.foldl f p).1.MemoryOk ↔ p.1.MemoryOk := by
  induction xs generalizing p with
  | nil => rfl
  | cons x xs ih => exact (ih _).trans (hf p x)

@[simp] theorem State.memoryOk_foldl_snd {α β : Type} {f : β × State → α → β × State}
    (hf : ∀ p a, (f p a).2.MemoryOk ↔ p.2.MemoryOk) (xs : List α) (p : β × State) :
    (xs.foldl f p).2.MemoryOk ↔ p.2.MemoryOk := by
  induction xs generalizing p with
  | nil => rfl
  | cons x xs ih => exact (ih _).trans (hf p x)

/-- The next state of an answer, if it has one, has canonical memory. -/
def Ans.MemoryOk (a : Ans) : Prop := ∀ t, a = .next t → t.MemoryOk

@[simp] theorem Ans.memoryOk_next {s : State} : Ans.MemoryOk (.next s) ↔ s.MemoryOk := by simp [Ans.MemoryOk]
@[simp] theorem Ans.memoryOk_fault {r : Fault} : Ans.MemoryOk (.fault r) := by simp [Ans.MemoryOk]
@[simp] theorem Ans.memoryOk_ite {c : Prop} [Decidable c] {a b : Ans} :
    Ans.MemoryOk (if c then a else b) ↔ if c then a.MemoryOk else b.MemoryOk := by split <;> rfl

/-- The state of an instruction's result has canonical memory. -/
def Res.MemoryOk (r : Res) : Prop := r.state.MemoryOk

@[simp] theorem Res.memoryOk_done {s : State} : (Res.done s).MemoryOk ↔ s.MemoryOk := Iff.rfl
@[simp] theorem Res.memoryOk_jump {s : State} : (Res.jump s).MemoryOk ↔ s.MemoryOk := Iff.rfl
@[simp] theorem Res.memoryOk_stay {s : State} : (Res.stay s).MemoryOk ↔ s.MemoryOk := Iff.rfl
@[simp] theorem Res.memoryOk_trap {c i} {s : State} : (Res.trap c i s).MemoryOk ↔ s.MemoryOk := Iff.rfl
@[simp] theorem Res.memoryOk_park {v k a} {s : State} : (Res.park v k a s).MemoryOk ↔ s.MemoryOk := Iff.rfl
@[simp] theorem Res.memoryOk_ite {c : Prop} [Decidable c] {a b : Res} :
    (if c then a else b).MemoryOk ↔ if c then a.MemoryOk else b.MemoryOk := by split <;> rfl

/-- The state after a store, if it is performed, has canonical memory. -/
def StoreRes.MemoryOk (r : StoreRes) : Prop := ∀ t, r = .ok t → t.MemoryOk

@[simp] theorem StoreRes.memoryOk_ok {s : State} : (StoreRes.ok s).MemoryOk ↔ s.MemoryOk := by simp [StoreRes.MemoryOk]
@[simp] theorem StoreRes.memoryOk_fault {k} : (StoreRes.fault k).MemoryOk := by simp [StoreRes.MemoryOk]
@[simp] theorem StoreRes.memoryOk_trap {c i} : (StoreRes.trap c i).MemoryOk := by simp [StoreRes.MemoryOk]
@[simp] theorem StoreRes.memoryOk_wait : StoreRes.wait.MemoryOk := by simp [StoreRes.MemoryOk]

/-- The state that a release or an acquire leaves. -/
def SyncRes.state : SyncRes → State
  | .done s | .wait s | .trap _ _ s => s

/-- The state that a release or an acquire leaves has canonical memory. -/
def SyncRes.MemoryOk (r : SyncRes) : Prop := r.state.MemoryOk

@[simp] theorem SyncRes.memoryOk_done {s : State} : (SyncRes.done s).MemoryOk ↔ s.MemoryOk := Iff.rfl
@[simp] theorem SyncRes.memoryOk_wait {s : State} : (SyncRes.wait s).MemoryOk ↔ s.MemoryOk := Iff.rfl
@[simp] theorem SyncRes.memoryOk_trap {c i} {s : State} : (SyncRes.trap c i s).MemoryOk ↔ s.MemoryOk := Iff.rfl
@[simp] theorem SyncRes.memoryOk_ite {c : Prop} [Decidable c] {a b : SyncRes} :
    (if c then a else b).MemoryOk ↔ if c then a.MemoryOk else b.MemoryOk := by split <;> rfl

/-- The state after an access that waited, where it has one, has canonical memory. -/
def Performed.MemoryOk : Performed → Prop
  | .later s | .done s | .sent _ s => s.MemoryOk
  | .poison _ => True

@[simp] theorem Performed.memoryOk_later {s : State} : (Performed.later s).MemoryOk ↔ s.MemoryOk := Iff.rfl
@[simp] theorem Performed.memoryOk_done {s : State} : (Performed.done s).MemoryOk ↔ s.MemoryOk := Iff.rfl
@[simp] theorem Performed.memoryOk_sent {id} {s : State} : (Performed.sent id s).MemoryOk ↔ s.MemoryOk := Iff.rfl
@[simp] theorem Performed.memoryOk_poison {i} : (Performed.poison i).MemoryOk := trivial

/-! ### Machine/Ops -/

@[simp] theorem State.memoryOk_setGroup (s : State) (g x) : (s.setGroup g x).MemoryOk ↔ s.MemoryOk := Iff.rfl

@[simp] theorem State.memoryOk_setGrp (s : State) (x) : (s.setGrp x).MemoryOk ↔ s.MemoryOk := Iff.rfl

@[simp] theorem State.memoryOk_upd (s : State) (f) : (s.upd f).MemoryOk ↔ s.MemoryOk := Iff.rfl

@[simp] theorem State.memoryOk_setCore (s : State) (n x) : (s.setCore n x).MemoryOk ↔ s.MemoryOk := Iff.rfl

@[simp] theorem State.memoryOk_setL1 (s : State) (n x) : (s.setL1 n x).MemoryOk ↔ s.MemoryOk := Iff.rfl

@[simp] theorem State.memoryOk_setSlice (s : State) (k x) : (s.setSlice k x).MemoryOk ↔ s.MemoryOk := Iff.rfl

@[simp] theorem State.memoryOk_setSector (s : State) (half x) : (s.setSector half x).MemoryOk ↔ s.MemoryOk := Iff.rfl

@[simp] theorem State.memoryOk_setLaunch (s : State) (l x) : (s.setLaunch l x).MemoryOk ↔ s.MemoryOk := Iff.rfl

@[simp] theorem State.memoryOk_setReq (s : State) (r x) : (s.setReq r x).MemoryOk ↔ s.MemoryOk := Iff.rfl

@[simp] theorem State.memoryOk_take (s : State) : (s.take).2.MemoryOk ↔ s.MemoryOk := Iff.rfl

@[simp] theorem State.memoryOk_setTag (s : State) (t r tag) : (s.setTag t r tag).MemoryOk ↔ s.MemoryOk := by
  unfold State.setTag; dsimp only; (repeat' split) <;> simp

@[simp] theorem State.memoryOk_putV (s : State) (t r v) : (s.putV t r v).MemoryOk ↔ s.MemoryOk := by
  unfold State.putV; dsimp only; (repeat' split) <;> simp

@[simp] theorem State.memoryOk_wrV (s : State) (t r v) : (s.wrV t r v).MemoryOk ↔ s.MemoryOk := by
  simp [State.wrV]

@[simp] theorem State.memoryOk_wrTW (s : State) (t r v) : (s.wrTW t r v).MemoryOk ↔ s.MemoryOk := by
  simp [State.wrTW]

@[simp] theorem State.memoryOk_wrV64 (s : State) (t r v) : (s.wrV64 t r v).MemoryOk ↔ s.MemoryOk := by
  simp [State.wrV64]

@[simp] theorem State.memoryOk_waitScalar (s : State) (w) : (s.waitScalar w).MemoryOk ↔ s.MemoryOk := by
  simp [State.waitScalar]

@[simp] theorem State.memoryOk_waitLane (s : State) (w) : (s.waitLane w).MemoryOk ↔ s.MemoryOk := by
  simp [State.waitLane]

@[simp] theorem State.memoryOk_clearResvs (s : State) (g) : (s.clearResvs g).MemoryOk ↔ s.MemoryOk := Iff.rfl

@[simp] theorem State.memoryOk_clearResv (s : State) (g t) : (s.clearResv g t).MemoryOk ↔ s.MemoryOk := Iff.rfl

@[simp] theorem State.memoryOk_keepChain (s : State) (g) : (s.keepChain g).MemoryOk ↔ s.MemoryOk := by
  simp [State.keepChain]

@[simp] theorem State.memoryOk_endLaunch (s : State) (l status t) : (s.endLaunch l status t).MemoryOk ↔ s.MemoryOk := by
  unfold State.endLaunch; split <;> simp

@[simp] theorem State.memoryOk_enterHandler (s : State) (k t) : (s.enterHandler k t).MemoryOk ↔ s.MemoryOk := by
  simp [State.enterHandler]

@[simp] theorem State.memoryOk_takeTrap (s : State) (k t) : (s.takeTrap k t).MemoryOk ↔ s.MemoryOk := by
  unfold State.takeTrap
  extract_lets u g v
  have hu : u.MemoryOk ↔ s.MemoryOk := by unfold u; split <;> simp
  have hv : v.MemoryOk ↔ s.MemoryOk := by unfold v; split <;> simp [hu]
  clear_value u v
  (repeat' split) <;> simp [hv]

@[simp] theorem State.memoryOk_trapScalar (s : State) (cause info) : (s.trapScalar cause info).MemoryOk ↔ s.MemoryOk := by
  simp [State.trapScalar]

@[simp] theorem State.memoryOk_trapLane (s : State) (cause info) : (s.trapLane cause info).MemoryOk ↔ s.MemoryOk := by
  simp [State.trapLane]

@[simp] theorem State.memoryOk_raiseLate (s : State) (k) : (s.raiseLate k).MemoryOk ↔ s.MemoryOk := by
  unfold State.raiseLate; dsimp only; (repeat' split) <;> simp

@[simp] theorem State.memoryOk_meetLate (s : State) (k inHandler l) : (s.meetLate k inHandler l).MemoryOk ↔ s.MemoryOk := by
  simp [State.meetLate]

@[simp] theorem State.memoryOk_returnFromTrap (s : State) (k saved) : (s.returnFromTrap k saved).MemoryOk ↔ s.MemoryOk := by
  simp [State.returnFromTrap]

/-! ### Machine/Flags -/

@[simp] theorem State.memoryOk_setEffect (s : State) : (s.setEffect).MemoryOk ↔ s.MemoryOk := Iff.rfl

/-! ### Machine/Memory -/

@[simp] theorem State.memoryOk_recheck (s : State) (pa) : (s.recheck pa).MemoryOk ↔ s.MemoryOk := Iff.rfl

@[simp] theorem State.memoryOk_queueAt (s : State) (sl id r) : (s.queueAt sl id r).MemoryOk ↔ s.MemoryOk := Iff.rfl

@[simp] theorem State.memoryOk_post (s : State) (g line kind ordered scope lane via) :
    (s.post g line kind ordered scope lane via).2.MemoryOk ↔ s.MemoryOk := Iff.rfl

@[simp] theorem State.memoryOk_fetchLine (s : State) (g line ordered scope lane) :
    (s.fetchLine g line ordered scope lane).MemoryOk ↔ s.MemoryOk := by
  simp [State.fetchLine]

@[simp] theorem State.memoryOk_dropVisitor (s : State) (k line) : (s.dropVisitor k line).MemoryOk ↔ s.MemoryOk := Iff.rfl

@[simp] theorem State.memoryOk_sendUnsent (s : State) (k line g) : (s.sendUnsent k line g).MemoryOk ↔ s.MemoryOk := by
  unfold State.sendUnsent; dsimp only; (repeat' split) <;> simp

@[simp] theorem State.memoryOk_sendLine (s : State) (k line) : (s.sendLine k line).MemoryOk ↔ s.MemoryOk := by
  unfold State.sendLine; split <;> simp

@[simp] theorem State.memoryOk_unpinOne (s : State) (k g line) : (s.unpinOne k g line).MemoryOk ↔ s.MemoryOk := by
  unfold State.unpinOne; dsimp only; (repeat' split) <;> simp

@[simp] theorem State.memoryOk_unpin (s : State) (k line g) : (s.unpin k line g).MemoryOk ↔ s.MemoryOk := by
  simp [State.unpin]

@[simp] theorem State.memoryOk_unpinAll (s : State) (k g) : (s.unpinAll k g).MemoryOk ↔ s.MemoryOk := by
  simp [State.unpinAll]

@[simp] theorem State.memoryOk_sendOthers (s : State) (k line g which) : (s.sendOthers k line g which).MemoryOk ↔ s.MemoryOk := by
  unfold State.sendOthers; split <;> simp

@[simp] theorem State.memoryOk_storeL1 (s : State) (g pa n v mode) : (s.storeL1 g pa n v mode).MemoryOk ↔ s.MemoryOk := by
  simp [State.storeL1]

@[simp] theorem State.memoryOk_flushL1 (s : State) (k g) : (s.flushL1 k g).MemoryOk ↔ s.MemoryOk := by
  simp [State.flushL1]

@[simp] theorem State.memoryOk_pend (s : State) (a) : (s.pend a).MemoryOk ↔ s.MemoryOk := by
  simp [State.pend]

/-! ### Machine/Sync -/

@[simp] theorem State.memoryOk_noteStore (s : State) : (s.noteStore).MemoryOk ↔ s.MemoryOk := Iff.rfl

@[simp] theorem State.MemoryOk.storeAt {s : State} (h : s.MemoryOk) (t n v mode) : (s.storeAt t n v mode).MemoryOk := by
  unfold State.storeAt; dsimp only; (repeat' split) <;> simp [h]

@[simp] theorem State.MemoryOk.withClamp {s : State} (h : s.MemoryOk) {scope} {k : State → Nat → SyncRes}
    (hk : ∀ s scope, s.MemoryOk → (k s scope).MemoryOk) : (s.withClamp scope k).MemoryOk := by
  unfold State.withClamp
  split
  · dsimp only; split
    · exact h
    · exact hk _ _ h
  · exact hk _ _ h

@[simp] theorem State.MemoryOk.releaseEnd {s : State} (h : s.MemoryOk) (scope lane full) : (s.releaseEnd scope lane full).MemoryOk := by
  unfold State.releaseEnd; split <;> simp [h]

@[simp] theorem State.MemoryOk.release {s : State} (h : s.MemoryOk) (scope lane full) : (s.release scope lane full).MemoryOk :=
  h.withClamp fun s scope h => by
    dsimp only; (repeat' split) <;> simp [h]

@[simp] theorem State.memoryOk_bumpVisitor (s : State) (half) : (s.bumpVisitor half).MemoryOk ↔ s.MemoryOk := by
  simp [State.bumpVisitor]

@[simp] theorem State.MemoryOk.advanceAcquire {s : State} (h : s.MemoryOk) (scope lane) : (s.advanceAcquire scope lane).MemoryOk := by
  simp [State.advanceAcquire, h]

@[simp] theorem State.MemoryOk.acquire {s : State} (h : s.MemoryOk) (scope lane) : (s.acquire scope lane).MemoryOk := by
  unfold State.acquire
  split
  · simpa using h
  · exact h.withClamp fun s scope h => by
      dsimp only; (repeat' split) <;> simp [h]

@[simp] theorem State.MemoryOk.postFault {s : State} (h : s.MemoryOk) (ctx va kind access core place engine) :
    (s.postFault ctx va kind access core place engine).MemoryOk := by
  simp [State.postFault, h.deviceWrite]

@[simp] theorem State.MemoryOk.recordFault {s : State} (h : s.MemoryOk) (g) : (s.recordFault g).MemoryOk := by
  unfold State.recordFault; dsimp only; (repeat' split) <;> simp [h]

@[simp] theorem State.MemoryOk.parkGroup {s : State} (h : s.MemoryOk) (va kind access lane) :
    (s.parkGroup va kind access lane).MemoryOk := by
  simp [State.parkGroup, h]

@[simp] theorem State.MemoryOk.logError {s : State} (h : s.MemoryOk) (pa point unit kind) : (s.logError pa point unit kind).MemoryOk := by
  simp [State.logError, h, h.deviceWrite]

/-! ### Machine/Atomics -/

@[simp] theorem State.memoryOk_addResv (s : State) (g t granule) : (s.addResv g t granule).MemoryOk ↔ s.MemoryOk := by
  simp [State.addResv]

@[simp] theorem State.memoryOk_dropCopy (s : State) (k pa n id) : (s.dropCopy k pa n id).MemoryOk ↔ s.MemoryOk := by
  unfold State.dropCopy; dsimp only; (repeat' split) <;> simp

@[simp] theorem State.memoryOk_noteSeen (s : State) (line) : (s.noteSeen line).MemoryOk ↔ s.MemoryOk := Iff.rfl

@[simp] theorem State.memoryOk_found (s : State) (a) : (s.found a).2.MemoryOk ↔ s.MemoryOk := by
  unfold State.found; split <;> simp

/-- What an atomic operation leaves at home when it writes. -/
theorem State.MemoryOk.atomWrite {s : State} (h : s.MemoryOk) (a : AtomReq) (v : Nat) (t : Tag) :
    (if a.form = 4 ∧ !a.tagged then (s.hideFromHost a.pa a.size).writeMem a.pa (leBytes a.size v)
      else ((s.hideFromHost a.pa a.size).writeMem a.pa (leBytes a.size v)).setWordTag a.pa t).MemoryOk := by
  have hw := (h.hideFromHost a.pa a.size).writeMem a.pa (leBytes a.size v)
  split
  · exact hw
  · exact hw.setWordTag _ _

@[simp] theorem State.MemoryOk.atomAtHome {s : State} (h : s.MemoryOk) (g : Nat) (a : AtomReq) : (s.atomAtHome g a).2.MemoryOk := by
  have hf : (s.found a).2.MemoryOk := by simpa using h
  unfold State.atomAtHome
  split
  next old u hu =>
  rw [hu] at hf
  replace hf : u.MemoryOk := hf
  extract_lets tag granule write held v
  have hw : ∀ (u : State) (v : Nat) (t : Tag), u.MemoryOk → (write u v t).MemoryOk := fun u v t hu => hu.atomWrite a v t
  have hv : v.MemoryOk := by simpa [v] using hf
  clear_value write v
  simp [apply_ite Prod.snd, hf, hw, hv]

@[simp] theorem State.memoryOk_sendAtomic (s : State) (a ordered scope) : (s.sendAtomic a ordered scope).2.MemoryOk ↔ s.MemoryOk := by
  simp [State.sendAtomic]

@[simp] theorem State.memoryOk_atomAtScratch (s : State) (t a) : (s.atomAtScratch t a).2.MemoryOk ↔ s.MemoryOk := by
  unfold State.atomAtScratch; dsimp only; (repeat' split) <;> simp

/-! ### Machine/ScalarIssue -/

@[simp] theorem memoryOk_finishScalar {r : Res} (h : r.MemoryOk) : (finishScalar r).MemoryOk := by
  have h : r.state.MemoryOk := h
  cases r <;> simp_all [finishScalar, Res.state]

@[simp] theorem memoryOk_issueScalar {s : State} (h : s.MemoryOk) {i} {body : State → Res} (hb : (body s).MemoryOk) :
    (issueScalar i s body).MemoryOk := by
  unfold issueScalar; split <;> simp [h, hb]

@[simp] theorem State.memoryOk_resultS (s : State) (sd v) : (s.resultS sd v).MemoryOk ↔ s.MemoryOk := Iff.rfl

@[simp] theorem State.MemoryOk.hold {s : State} (h : s.MemoryOk) (w) : (s.hold w).MemoryOk := by
  simp [State.hold, h]

/-! ### Machine/ScalarMem -/

@[simp] theorem State.memoryOk_pendScalar (s : State) (i t access v atom) : (s.pendScalar i t access v atom).MemoryOk ↔ s.MemoryOk := by
  unfold State.pendScalar; split <;> simp

theorem memoryOk_scalarLoad {s : State} (h : s.MemoryOk) (i e size) {write : Nat → State} (hw : ∀ v, (write v).MemoryOk) :
    (scalarLoad s i e size write).MemoryOk := by
  unfold scalarLoad
  split
  · simpa using h
  · split <;> simp [h, hw]

theorem memoryOk_orderedLoad {s : State} (h : s.MemoryOk) {e size scope} {k : Nat → Res} (hk : ∀ v, (k v).MemoryOk) :
    (orderedLoad s e size scope k).MemoryOk := by
  unfold orderedLoad
  split
  · simpa using h
  · split <;> simp [h, hk]

@[simp] theorem memoryOk_scalarStore {s : State} (h : s.MemoryOk) (i e size v) : (scalarStore s i e size v).MemoryOk := by
  unfold scalarStore
  split
  · simpa using h
  · split
    next t heq => simpa using h.storeAt _ _ _ _ t heq
    all_goals simp [h]

@[simp] theorem memoryOk_execSld {s : State} (h : s.MemoryOk) (sd base off) : Ans.MemoryOk (execSld sd base off s) :=
  memoryOk_issueScalar h (memoryOk_scalarLoad h _ _ _ fun _ => h)

@[simp] theorem memoryOk_execSldp {s : State} (h : s.MemoryOk) (sd base off) : Ans.MemoryOk (execSldp sd base off s) :=
  memoryOk_issueScalar h (memoryOk_scalarLoad h _ _ _ fun _ => h)

@[simp] theorem memoryOk_execSst {s : State} (h : s.MemoryOk) (ss base off) : Ans.MemoryOk (execSst ss base off s) :=
  memoryOk_issueScalar h (by simp [h])

@[simp] theorem memoryOk_execSstp {s : State} (h : s.MemoryOk) (ss base off) : Ans.MemoryOk (execSstp ss base off s) :=
  memoryOk_issueScalar h (by simp [h])

@[simp] theorem memoryOk_withoutClampTrap {s : State} (h : s.MemoryOk) {scope} {k : State → Res} (hk : (k s).MemoryOk) :
    (withoutClampTrap s scope k).MemoryOk := by
  unfold withoutClampTrap; split <;> simp [h, hk]

theorem memoryOk_acquireThen {s : State} (h : s.MemoryOk) {scope} {k : State → Res} (hk : ∀ s, s.MemoryOk → (k s).MemoryOk) :
    (acquireThen s scope k).MemoryOk := by
  have ha := h.acquire scope false
  unfold acquireThen
  split <;> simp_all

theorem memoryOk_releaseThen {s : State} (h : s.MemoryOk) {scope} {k : State → Res} {full} (hk : ∀ s, s.MemoryOk → (k s).MemoryOk) :
    (releaseThen s scope k full).MemoryOk := by
  have ha := h.release scope false full
  unfold releaseThen
  split <;> simp_all

@[simp] theorem memoryOk_execSldaq {s : State} (h : s.MemoryOk) (sd base scope off) : Ans.MemoryOk (execSldaq sd base scope off s) := by
  refine memoryOk_issueScalar h (memoryOk_withoutClampTrap h ?_)
  have finish {s : State} (h : s.MemoryOk) (v : Dword) : (acquireThen s scope.toNat fun s =>
      .done (s.upd fun g => { g.wrS sd.toNat (v.setWidth 32) with answer := none })).MemoryOk :=
    memoryOk_acquireThen h fun _ h => h
  dsimp only; split
  · exact finish h _
  · exact memoryOk_orderedLoad h fun v => finish (s := s.upd _) h _

@[simp] theorem State.memoryOk_pinStore (s : State) (pa n v mode) : (s.pinStore pa n v mode).MemoryOk ↔ s.MemoryOk := by
  unfold State.pinStore; dsimp only; (repeat' split) <;> simp

@[simp] theorem memoryOk_releasingStore {s : State} (h : s.MemoryOk) (t scope n v mode) : (releasingStore s t scope n v mode).MemoryOk := by
  simp only [releasingStore]; (repeat' split) <;> simp [h]

@[simp] theorem memoryOk_execSstrl {s : State} (h : s.MemoryOk) (ss base scope off) : Ans.MemoryOk (execSstrl ss base scope off s) := by
  refine memoryOk_issueScalar h ?_
  dsimp only; split
  · exact h
  · refine memoryOk_releaseThen h fun s h => ?_
    split
    next t heq => simpa using memoryOk_releasingStore h _ _ _ _ _ t heq
    all_goals simp [h]

@[simp] theorem memoryOk_scalarAtomic {s : State} (h : s.MemoryOk) (i e a) : (scalarAtomic s i e a).MemoryOk := by
  simp only [scalarAtomic]; (repeat' split) <;> simp [h]

@[simp] theorem memoryOk_execSamo {s : State} (h : s.MemoryOk) (sd sa sb op scope) : Ans.MemoryOk (execSamo sd sa sb op scope s) :=
  memoryOk_issueScalar h (by simp [h])

@[simp] theorem memoryOk_execScas {s : State} (h : s.MemoryOk) (sd sa sb scope) : Ans.MemoryOk (execScas sd sa sb scope s) :=
  memoryOk_issueScalar h (by simp [h])

@[simp] theorem State.memoryOk_fenceUnpins (s : State) (scope) : (s.fenceUnpins scope).MemoryOk ↔ s.MemoryOk := by
  simp [State.fenceUnpins]

@[simp] theorem memoryOk_execFence {s : State} (h : s.MemoryOk) (scope order) : Ans.MemoryOk (execFence scope order s) := by
  refine memoryOk_issueScalar h ?_
  have acquires {s : State} (h : s.MemoryOk) : (acquireThen s scope.toNat .done).MemoryOk := memoryOk_acquireThen h fun _ h => h
  have acq {s : State} (h : s.MemoryOk) : Res.MemoryOk (if order = 2 then .done s
      else if order = 1 then
        withoutClampTrap s scope.toNat fun s =>
          if s.grp.accesses.isEmpty then acquireThen (s.fenceUnpins scope.toNat) scope.toNat .done else s.hold .acquire
      else acquireThen s scope.toNat .done) := by
    simp [h, acquires]
  dsimp only; split
  · exact acq h
  · exact memoryOk_releaseThen h fun _ h => acq h

@[simp] theorem memoryOk_execRacq {s : State} (h : s.MemoryOk) (ss scope) : Ans.MemoryOk (execRacq ss scope s) := by
  refine memoryOk_issueScalar h (memoryOk_withoutClampTrap h ?_)
  have acq : (acquireThen s scope.toNat fun s => .done (s.upd fun g => { g with racq := 0, racqCore := 0 })).MemoryOk :=
    memoryOk_acquireThen h fun _ h => h
  simp [h, acq]

@[simp] theorem memoryOk_execZld {s : State} (h : s.MemoryOk) (z base off) : Ans.MemoryOk (execZld z base off s) :=
  memoryOk_issueScalar h (memoryOk_scalarLoad h _ _ _ fun _ => h)

@[simp] theorem memoryOk_execZst {s : State} (h : s.MemoryOk) (z base off) : Ans.MemoryOk (execZst z base off s) :=
  memoryOk_issueScalar h (by simp [h])

@[simp] theorem memoryOk_execZset {s : State} (h : s.MemoryOk) (z sa w) : Ans.MemoryOk (execZset z sa w s) := by
  simp [execZset, h]

@[simp] theorem memoryOk_execZget {s : State} (h : s.MemoryOk) (sd z w) : Ans.MemoryOk (execZget sd z w s) := by
  simp [execZget, h]

@[simp] theorem memoryOk_execMkset {s : State} (h : s.MemoryOk) (mk sa w) : Ans.MemoryOk (execMkset mk sa w s) := by
  simp [execMkset, h]

@[simp] theorem memoryOk_execMksetPre {s : State} (h : s.MemoryOk) (mk sa) : Ans.MemoryOk (execMksetPre mk sa s) := by
  simp [execMksetPre, h]

/-! ### Machine/ScalarFlow -/

@[simp] theorem memoryOk_branchIf (s : State) (off taken) : (branchIf off taken s).MemoryOk ↔ s.MemoryOk := Iff.rfl

@[simp] theorem memoryOk_branchCmp {s : State} (h : s.MemoryOk) (sa sb off f) : Ans.MemoryOk (branchCmp sa sb off s f) := by
  simp [branchCmp, h]

@[simp] theorem memoryOk_execSbeq {s : State} (h : s.MemoryOk) (sa sb off) : Ans.MemoryOk (execSbeq sa sb off s) :=
  memoryOk_branchCmp h _ _ _ _

@[simp] theorem memoryOk_execSbne {s : State} (h : s.MemoryOk) (sa sb off) : Ans.MemoryOk (execSbne sa sb off s) :=
  memoryOk_branchCmp h _ _ _ _

@[simp] theorem memoryOk_execSblt {s : State} (h : s.MemoryOk) (sa sb off) : Ans.MemoryOk (execSblt sa sb off s) :=
  memoryOk_branchCmp h _ _ _ _

@[simp] theorem memoryOk_execSbge {s : State} (h : s.MemoryOk) (sa sb off) : Ans.MemoryOk (execSbge sa sb off s) :=
  memoryOk_branchCmp h _ _ _ _

@[simp] theorem memoryOk_execSblo {s : State} (h : s.MemoryOk) (sa sb off) : Ans.MemoryOk (execSblo sa sb off s) :=
  memoryOk_branchCmp h _ _ _ _

@[simp] theorem memoryOk_execSbhs {s : State} (h : s.MemoryOk) (sa sb off) : Ans.MemoryOk (execSbhs sa sb off s) :=
  memoryOk_branchCmp h _ _ _ _

@[simp] theorem memoryOk_execSj {s : State} (h : s.MemoryOk) (off) : Ans.MemoryOk (execSj off s) := by
  simp [execSj, h]

@[simp] theorem memoryOk_execSjal {s : State} (h : s.MemoryOk) (sd off) : Ans.MemoryOk (execSjal sd off s) :=
  memoryOk_issueScalar h (by simp [h])

@[simp] theorem memoryOk_execSjr {s : State} (h : s.MemoryOk) (sd sa imm) : Ans.MemoryOk (execSjr sd sa imm s) :=
  memoryOk_issueScalar h (by simp [h])

@[simp] theorem memoryOk_execSloop {s : State} (h : s.MemoryOk) (sa off) : Ans.MemoryOk (execSloop sa off s) :=
  memoryOk_issueScalar h (by simp [h])

@[simp] theorem memoryOk_execSbg {s : State} (h : s.MemoryOk) (g neg off) : Ans.MemoryOk (execSbg g neg off s) := by
  refine memoryOk_issueScalar h ?_
  split <;> simp [h]

@[simp] theorem memoryOk_enqueueBlock {s : State} (h : s.MemoryOk) (i g neg entry) : (enqueueBlock i g neg entry s).MemoryOk := by
  unfold enqueueBlock
  dsimp only; split <;> simp [h]

@[simp] theorem memoryOk_execLrun {s : State} (h : s.MemoryOk) (g neg entry) : Ans.MemoryOk (execLrun g neg entry s) :=
  memoryOk_issueScalar h (by simp [h])

@[simp] theorem memoryOk_execLrunr {s : State} (h : s.MemoryOk) (g neg sa) : Ans.MemoryOk (execLrunr g neg sa s) :=
  memoryOk_issueScalar h (by simp [h])

@[simp] theorem memoryOk_execLsync {s : State} (h : s.MemoryOk) : Ans.MemoryOk (execLsync s) :=
  memoryOk_issueScalar h (by simp [h])

@[simp] theorem memoryOk_execGnew {s : State} (h : s.MemoryOk) (g) : Ans.MemoryOk (execGnew g s) :=
  memoryOk_issueScalar h (by simp [h])

@[simp] theorem memoryOk_execGsets {s : State} (h : s.MemoryOk) (g neg sa) : Ans.MemoryOk (execGsets g neg sa s) :=
  memoryOk_issueScalar h (by simp [h])

@[simp] theorem memoryOk_execGwait {s : State} (h : s.MemoryOk) (g) : Ans.MemoryOk (execGwait g s) := by
  refine memoryOk_issueScalar h ?_
  split <;> simp [h]

@[simp] theorem memoryOk_execRegion {s : State} (h : s.MemoryOk) (index) : Ans.MemoryOk (execRegion index s) := by
  refine memoryOk_issueScalar h ?_
  dsimp only; (repeat' split) <;> simp [h]

@[simp] theorem State.memoryOk_endBindings (s : State) (launch core) : (s.endBindings launch core).MemoryOk ↔ s.MemoryOk := Iff.rfl

@[simp] theorem State.memoryOk_retire (s : State) (k) : (s.retire k).MemoryOk ↔ s.MemoryOk := by
  unfold State.retire; dsimp only; (repeat' split) <;> simp

@[simp] theorem memoryOk_execSexit {s : State} (h : s.MemoryOk) : Ans.MemoryOk (execSexit s) :=
  memoryOk_issueScalar h (by simp [h])

@[simp] theorem memoryOk_execSyield {s : State} (h : s.MemoryOk) : Ans.MemoryOk (execSyield s) :=
  memoryOk_issueScalar h (by simp [h])

/-! ### Machine/LaneIssue -/

theorem State.memoryOk_scoreboard {s t : State} {i} (he : s.scoreboard i = some t) : t.MemoryOk ↔ s.MemoryOk := by
  unfold State.scoreboard at he
  dsimp only at he
  (repeat' split at he) <;> simp at he <;> simp [← he]

@[simp] theorem State.memoryOk_moveLane (s : State) (slots f) : (s.moveLane slots f).MemoryOk ↔ s.MemoryOk := Iff.rfl

@[simp] theorem State.memoryOk_passLane (s : State) (slots) : (s.passLane slots).MemoryOk ↔ s.MemoryOk := by
  simp [State.passLane]

@[simp] theorem State.memoryOk_noteIssued (s : State) : (s.noteIssued).MemoryOk ↔ s.MemoryOk := by
  simp [State.noteIssued]

@[simp] theorem memoryOk_finishLane {r : Res} (h : r.MemoryOk) (slots) : (finishLane slots r).MemoryOk := by
  have h : r.state.MemoryOk := h
  cases r <;> simp_all [finishLane, Res.state]

theorem memoryOk_issueLane {s : State} (h : s.MemoryOk) {i slots} {body : State → Res} (hb : (body s).MemoryOk) :
    (issueLane i slots s body).MemoryOk := by
  unfold issueLane
  split
  · simp [h]
  split
  next he => simpa [State.memoryOk_scoreboard he] using h
  · simp [hb]

@[simp] theorem State.memoryOk_putWords (t) (vs) : ∀ (s : State) (r), (s.putWords t r vs).MemoryOk ↔ s.MemoryOk := by
  induction vs with
  | nil => simp [State.putWords]
  | cons v vs ih => simp [State.putWords, ih]

@[simp] theorem State.memoryOk_put (s : State) (t vd o) : (s.put t vd o).MemoryOk ↔ s.MemoryOk := by
  unfold State.put; split <;> simp

@[simp] theorem State.memoryOk_putAll (s : State) (vd rs) : (s.putAll vd rs).MemoryOk ↔ s.MemoryOk := by
  simp [State.putAll]

@[simp] theorem memoryOk_aluLane {s : State} (h : s.MemoryOk) (i w f) : (aluLane i w s f).MemoryOk := by
  refine memoryOk_issueLane h ?_
  dsimp only; split <;> simp [h]

/-! ### Machine/ScalarInt -/

@[simp] theorem memoryOk_aluRR {s : State} (h : s.MemoryOk) (sd sa sb f) : Ans.MemoryOk (aluRR sd sa sb s f) := by
  simp [aluRR, h]

@[simp] theorem memoryOk_aluRI {s : State} (h : s.MemoryOk) (sd sa imm f) : Ans.MemoryOk (aluRI sd sa imm s f) := by
  simp [aluRI, h]

@[simp] theorem memoryOk_aluShift {s : State} (h : s.MemoryOk) (sd sa n f) : Ans.MemoryOk (aluShift sd sa n s f) := by
  simp [aluShift, h]

@[simp] theorem memoryOk_execSadd {s : State} (h : s.MemoryOk) (sd sa sb) : Ans.MemoryOk (execSadd sd sa sb s) :=
  memoryOk_aluRR h _ _ _ _

@[simp] theorem memoryOk_execSsub {s : State} (h : s.MemoryOk) (sd sa sb) : Ans.MemoryOk (execSsub sd sa sb s) :=
  memoryOk_aluRR h _ _ _ _

@[simp] theorem memoryOk_execSmul {s : State} (h : s.MemoryOk) (sd sa sb) : Ans.MemoryOk (execSmul sd sa sb s) :=
  memoryOk_aluRR h _ _ _ _

@[simp] theorem memoryOk_execSmulh {s : State} (h : s.MemoryOk) (sd sa sb) : Ans.MemoryOk (execSmulh sd sa sb s) :=
  memoryOk_aluRR h _ _ _ _

@[simp] theorem memoryOk_execSdiv {s : State} (h : s.MemoryOk) (sd sa sb) : Ans.MemoryOk (execSdiv sd sa sb s) :=
  memoryOk_aluRR h _ _ _ _

@[simp] theorem memoryOk_execSrem {s : State} (h : s.MemoryOk) (sd sa sb) : Ans.MemoryOk (execSrem sd sa sb s) :=
  memoryOk_aluRR h _ _ _ _

@[simp] theorem memoryOk_execSand {s : State} (h : s.MemoryOk) (sd sa sb) : Ans.MemoryOk (execSand sd sa sb s) :=
  memoryOk_aluRR h _ _ _ _

@[simp] theorem memoryOk_execSor {s : State} (h : s.MemoryOk) (sd sa sb) : Ans.MemoryOk (execSor sd sa sb s) :=
  memoryOk_aluRR h _ _ _ _

@[simp] theorem memoryOk_execSxor {s : State} (h : s.MemoryOk) (sd sa sb) : Ans.MemoryOk (execSxor sd sa sb s) :=
  memoryOk_aluRR h _ _ _ _

@[simp] theorem memoryOk_execSshl {s : State} (h : s.MemoryOk) (sd sa sb) : Ans.MemoryOk (execSshl sd sa sb s) :=
  memoryOk_aluRR h _ _ _ _

@[simp] theorem memoryOk_execSshr {s : State} (h : s.MemoryOk) (sd sa sb) : Ans.MemoryOk (execSshr sd sa sb s) :=
  memoryOk_aluRR h _ _ _ _

@[simp] theorem memoryOk_execSsra {s : State} (h : s.MemoryOk) (sd sa sb) : Ans.MemoryOk (execSsra sd sa sb s) :=
  memoryOk_aluRR h _ _ _ _

@[simp] theorem memoryOk_execSmin {s : State} (h : s.MemoryOk) (sd sa sb) : Ans.MemoryOk (execSmin sd sa sb s) :=
  memoryOk_aluRR h _ _ _ _

@[simp] theorem memoryOk_execSmax {s : State} (h : s.MemoryOk) (sd sa sb) : Ans.MemoryOk (execSmax sd sa sb s) :=
  memoryOk_aluRR h _ _ _ _

@[simp] theorem memoryOk_execSslt {s : State} (h : s.MemoryOk) (sd sa sb) : Ans.MemoryOk (execSslt sd sa sb s) :=
  memoryOk_aluRR h _ _ _ _

@[simp] theorem memoryOk_execSaddi {s : State} (h : s.MemoryOk) (sd sa imm) : Ans.MemoryOk (execSaddi sd sa imm s) :=
  memoryOk_aluRI h _ _ _ _

@[simp] theorem memoryOk_execSandi {s : State} (h : s.MemoryOk) (sd sa imm) : Ans.MemoryOk (execSandi sd sa imm s) :=
  memoryOk_aluRI h _ _ _ _

@[simp] theorem memoryOk_execSori {s : State} (h : s.MemoryOk) (sd sa imm) : Ans.MemoryOk (execSori sd sa imm s) :=
  memoryOk_aluRI h _ _ _ _

@[simp] theorem memoryOk_execSxori {s : State} (h : s.MemoryOk) (sd sa imm) : Ans.MemoryOk (execSxori sd sa imm s) :=
  memoryOk_aluRI h _ _ _ _

@[simp] theorem memoryOk_execSslti {s : State} (h : s.MemoryOk) (sd sa imm) : Ans.MemoryOk (execSslti sd sa imm s) :=
  memoryOk_aluRI h _ _ _ _

@[simp] theorem memoryOk_execSshli {s : State} (h : s.MemoryOk) (sd sa n) : Ans.MemoryOk (execSshli sd sa n s) :=
  memoryOk_aluShift h _ _ _ _

@[simp] theorem memoryOk_execSshri {s : State} (h : s.MemoryOk) (sd sa n) : Ans.MemoryOk (execSshri sd sa n s) :=
  memoryOk_aluShift h _ _ _ _

@[simp] theorem memoryOk_execSsrai {s : State} (h : s.MemoryOk) (sd sa n) : Ans.MemoryOk (execSsrai sd sa n s) :=
  memoryOk_aluShift h _ _ _ _

@[simp] theorem memoryOk_execSlui {s : State} (h : s.MemoryOk) (sd imm) : Ans.MemoryOk (execSlui sd imm s) := by
  simp [execSlui, h]

@[simp] theorem memoryOk_execSpopc {s : State} (h : s.MemoryOk) (sd sa) : Ans.MemoryOk (execSpopc sd sa s) := by
  simp [execSpopc, h]

@[simp] theorem memoryOk_execSclz {s : State} (h : s.MemoryOk) (sd sa) : Ans.MemoryOk (execSclz sd sa s) := by
  simp [execSclz, h]

@[simp] theorem memoryOk_execSbfx {s : State} (h : s.MemoryOk) (sd sa len pos) : Ans.MemoryOk (execSbfx sd sa len pos s) :=
  memoryOk_issueScalar h (by simp [h])

@[simp] theorem memoryOk_execSbfi {s : State} (h : s.MemoryOk) (sd sa len pos) : Ans.MemoryOk (execSbfi sd sa len pos s) :=
  memoryOk_issueScalar h (by simp [h])

@[simp] theorem memoryOk_execSsel {s : State} (h : s.MemoryOk) (sd sa sb sc) : Ans.MemoryOk (execSsel sd sa sb sc s) := by
  simp [execSsel, h]

@[simp] theorem memoryOk_execSaddp {s : State} (h : s.MemoryOk) (sd sa sb) : Ans.MemoryOk (execSaddp sd sa sb s) :=
  memoryOk_issueScalar h (by simp [h])

@[simp] theorem memoryOk_execSaddpi {s : State} (h : s.MemoryOk) (sd sa imm) : Ans.MemoryOk (execSaddpi sd sa imm s) :=
  memoryOk_issueScalar h (by simp [h])

/-! ### Machine/LaneInt -/

@[simp] theorem memoryOk_intLane2 {s : State} (h : s.MemoryOk) (i w f) : Ans.MemoryOk (intLane2 i w s f) :=
  memoryOk_aluLane h _ _ _

@[simp] theorem memoryOk_intLane1 {s : State} (h : s.MemoryOk) (i w f) : Ans.MemoryOk (intLane1 i w s f) :=
  memoryOk_aluLane h _ _ _

@[simp] theorem memoryOk_intLane3 {s : State} (h : s.MemoryOk) (i w f) : Ans.MemoryOk (intLane3 i w s f) :=
  memoryOk_aluLane h _ _ _

@[simp] theorem memoryOk_countLane {s : State} (h : s.MemoryOk) (i w f) : Ans.MemoryOk (countLane i w s f) :=
  memoryOk_aluLane h _ _ _

@[simp] theorem memoryOk_execIadd {s : State} (h : s.MemoryOk) (w) : Ans.MemoryOk (execIadd w s) := by
  simp [execIadd, h]

@[simp] theorem memoryOk_execIsub {s : State} (h : s.MemoryOk) (w) : Ans.MemoryOk (execIsub w s) := by
  simp [execIsub, h]

@[simp] theorem memoryOk_execImul {s : State} (h : s.MemoryOk) (w) : Ans.MemoryOk (execImul w s) :=
  memoryOk_intLane2 h _ _ _

@[simp] theorem memoryOk_execImulh {s : State} (h : s.MemoryOk) (w) : Ans.MemoryOk (execImulh w s) :=
  memoryOk_aluLane h _ _ _

@[simp] theorem memoryOk_execImad {s : State} (h : s.MemoryOk) (w) : Ans.MemoryOk (execImad w s) :=
  memoryOk_intLane3 h _ _ _

@[simp] theorem memoryOk_execImin {s : State} (h : s.MemoryOk) (w) : Ans.MemoryOk (execImin w s) :=
  memoryOk_intLane2 h _ _ _

@[simp] theorem memoryOk_execImax {s : State} (h : s.MemoryOk) (w) : Ans.MemoryOk (execImax w s) :=
  memoryOk_intLane2 h _ _ _

@[simp] theorem memoryOk_execIabs {s : State} (h : s.MemoryOk) (w) : Ans.MemoryOk (execIabs w s) :=
  memoryOk_intLane1 h _ _ _

@[simp] theorem memoryOk_execVand {s : State} (h : s.MemoryOk) (w) : Ans.MemoryOk (execVand w s) :=
  memoryOk_intLane2 h _ _ _

@[simp] theorem memoryOk_execVor {s : State} (h : s.MemoryOk) (w) : Ans.MemoryOk (execVor w s) :=
  memoryOk_intLane2 h _ _ _

@[simp] theorem memoryOk_execVxor {s : State} (h : s.MemoryOk) (w) : Ans.MemoryOk (execVxor w s) :=
  memoryOk_intLane2 h _ _ _

@[simp] theorem memoryOk_execBlut {s : State} (h : s.MemoryOk) (w) : Ans.MemoryOk (execBlut w s) :=
  memoryOk_intLane3 h _ _ _

@[simp] theorem memoryOk_execShl {s : State} (h : s.MemoryOk) (w) : Ans.MemoryOk (execShl w s) :=
  memoryOk_intLane2 h _ _ _

@[simp] theorem memoryOk_execShr {s : State} (h : s.MemoryOk) (w) : Ans.MemoryOk (execShr w s) :=
  memoryOk_intLane2 h _ _ _

@[simp] theorem memoryOk_execSra {s : State} (h : s.MemoryOk) (w) : Ans.MemoryOk (execSra w s) := by
  simp [execSra, h]

@[simp] theorem memoryOk_execRotr {s : State} (h : s.MemoryOk) (w) : Ans.MemoryOk (execRotr w s) :=
  memoryOk_intLane2 h _ _ _

@[simp] theorem memoryOk_execPopc {s : State} (h : s.MemoryOk) (w) : Ans.MemoryOk (execPopc w s) :=
  memoryOk_countLane h _ _ _

@[simp] theorem memoryOk_execClz {s : State} (h : s.MemoryOk) (w) : Ans.MemoryOk (execClz w s) :=
  memoryOk_countLane h _ _ _

@[simp] theorem memoryOk_execBrev {s : State} (h : s.MemoryOk) (w) : Ans.MemoryOk (execBrev w s) :=
  memoryOk_intLane1 h _ _ _

@[simp] theorem memoryOk_execMov {s : State} (h : s.MemoryOk) (w) : Ans.MemoryOk (execMov w s) :=
  memoryOk_intLane1 h _ _ _

@[simp] theorem memoryOk_execBfx {s : State} (h : s.MemoryOk) (w) : Ans.MemoryOk (execBfx w s) :=
  memoryOk_aluLane h _ _ _

@[simp] theorem memoryOk_execBfi {s : State} (h : s.MemoryOk) (w) : Ans.MemoryOk (execBfi w s) :=
  memoryOk_aluLane h _ _ _

@[simp] theorem memoryOk_execIcmp {s : State} (h : s.MemoryOk) (w) : Ans.MemoryOk (execIcmp w s) :=
  memoryOk_aluLane h _ _ _

@[simp] theorem memoryOk_execSel {s : State} (h : s.MemoryOk) (w) : Ans.MemoryOk (execSel w s) :=
  memoryOk_aluLane h _ _ _

@[simp] theorem memoryOk_execMovi {s : State} (h : s.MemoryOk) (w) : Ans.MemoryOk (execMovi w s) :=
  memoryOk_aluLane h _ _ _

@[simp] theorem memoryOk_moviLong {s : State} (h : s.MemoryOk) (i vd q neg o) : Ans.MemoryOk (moviLong i vd q neg o s) :=
  memoryOk_issueLane h (by simp [h])

@[simp] theorem memoryOk_execMoviLong32 {s : State} (h : s.MemoryOk) (vd q neg imm) : Ans.MemoryOk (execMoviLong32 vd q neg imm s) :=
  memoryOk_moviLong h _ _ _ _ _

@[simp] theorem memoryOk_execMoviLong64 {s : State} (h : s.MemoryOk) (vd q neg imm) : Ans.MemoryOk (execMoviLong64 vd q neg imm s) :=
  memoryOk_moviLong h _ _ _ _ _

@[simp] theorem memoryOk_execSregr {s : State} (h : s.MemoryOk) (w) : Ans.MemoryOk (execSregr w s) :=
  memoryOk_aluLane h _ _ _

/-! ### Machine/LaneFloat -/

@[simp] theorem memoryOk_floatLane {s : State} (h : s.MemoryOk) (i w f) : Ans.MemoryOk (floatLane i w s f) :=
  memoryOk_aluLane h _ _ _

@[simp] theorem memoryOk_execFadd {s : State} (h : s.MemoryOk) (w) : Ans.MemoryOk (execFadd w s) :=
  memoryOk_floatLane h _ _ _

@[simp] theorem memoryOk_execFsub {s : State} (h : s.MemoryOk) (w) : Ans.MemoryOk (execFsub w s) :=
  memoryOk_floatLane h _ _ _

@[simp] theorem memoryOk_execFmul {s : State} (h : s.MemoryOk) (w) : Ans.MemoryOk (execFmul w s) :=
  memoryOk_floatLane h _ _ _

@[simp] theorem memoryOk_execFfma {s : State} (h : s.MemoryOk) (w) : Ans.MemoryOk (execFfma w s) :=
  memoryOk_floatLane h _ _ _

@[simp] theorem memoryOk_execFmin {s : State} (h : s.MemoryOk) (w) : Ans.MemoryOk (execFmin w s) :=
  memoryOk_floatLane h _ _ _

@[simp] theorem memoryOk_execFmax {s : State} (h : s.MemoryOk) (w) : Ans.MemoryOk (execFmax w s) :=
  memoryOk_floatLane h _ _ _

@[simp] theorem memoryOk_execFdiv {s : State} (h : s.MemoryOk) (w) : Ans.MemoryOk (execFdiv w s) :=
  memoryOk_floatLane h _ _ _

@[simp] theorem memoryOk_execFsqrt {s : State} (h : s.MemoryOk) (w) : Ans.MemoryOk (execFsqrt w s) :=
  memoryOk_floatLane h _ _ _

@[simp] theorem memoryOk_execFrnd {s : State} (h : s.MemoryOk) (w) : Ans.MemoryOk (execFrnd w s) :=
  memoryOk_floatLane h _ _ _

@[simp] theorem memoryOk_execFcmp {s : State} (h : s.MemoryOk) (w) : Ans.MemoryOk (execFcmp w s) :=
  memoryOk_aluLane h _ _ _

@[simp] theorem memoryOk_execFclass {s : State} (h : s.MemoryOk) (w) : Ans.MemoryOk (execFclass w s) :=
  memoryOk_aluLane h _ _ _

@[simp] theorem memoryOk_specialLane {s : State} (h : s.MemoryOk) (i fn w) : Ans.MemoryOk (specialLane i fn w s) :=
  memoryOk_floatLane h _ _ _

@[simp] theorem memoryOk_execFrcp {s : State} (h : s.MemoryOk) (w) : Ans.MemoryOk (execFrcp w s) :=
  memoryOk_specialLane h _ _ _

@[simp] theorem memoryOk_execFrsq {s : State} (h : s.MemoryOk) (w) : Ans.MemoryOk (execFrsq w s) :=
  memoryOk_specialLane h _ _ _

@[simp] theorem memoryOk_execFex2 {s : State} (h : s.MemoryOk) (w) : Ans.MemoryOk (execFex2 w s) :=
  memoryOk_specialLane h _ _ _

@[simp] theorem memoryOk_execFlg2 {s : State} (h : s.MemoryOk) (w) : Ans.MemoryOk (execFlg2 w s) :=
  memoryOk_specialLane h _ _ _

@[simp] theorem memoryOk_execFsin {s : State} (h : s.MemoryOk) (w) : Ans.MemoryOk (execFsin w s) :=
  memoryOk_specialLane h _ _ _

@[simp] theorem memoryOk_execFcos {s : State} (h : s.MemoryOk) (w) : Ans.MemoryOk (execFcos w s) :=
  memoryOk_specialLane h _ _ _

@[simp] theorem memoryOk_execFsinpi {s : State} (h : s.MemoryOk) (w) : Ans.MemoryOk (execFsinpi w s) :=
  memoryOk_specialLane h _ _ _

@[simp] theorem memoryOk_execFcospi {s : State} (h : s.MemoryOk) (w) : Ans.MemoryOk (execFcospi w s) :=
  memoryOk_specialLane h _ _ _

@[simp] theorem memoryOk_execFtanh {s : State} (h : s.MemoryOk) (w) : Ans.MemoryOk (execFtanh w s) :=
  memoryOk_specialLane h _ _ _

@[simp] theorem memoryOk_execCvt {s : State} (h : s.MemoryOk) (w) : Ans.MemoryOk (execCvt w s) :=
  memoryOk_aluLane h _ _ _

@[simp] theorem memoryOk_execPack {s : State} (h : s.MemoryOk) (w) : Ans.MemoryOk (execPack w s) :=
  memoryOk_aluLane h _ _ _

@[simp] theorem memoryOk_execUnpack {s : State} (h : s.MemoryOk) (w) : Ans.MemoryOk (execUnpack w s) :=
  memoryOk_aluLane h _ _ _

/-! ### Machine/LaneControl -/

@[simp] theorem memoryOk_execBrm {s : State} (h : s.MemoryOk) (s0 s1 s2 s3) : Ans.MemoryOk (execBrm s0 s1 s2 s3 s) :=
  memoryOk_issueLane h (by simp [h])

@[simp] theorem memoryOk_execRcv {s : State} (h : s.MemoryOk) (w) : Ans.MemoryOk (execRcv w s) :=
  memoryOk_issueLane h (by simp [h])

@[simp] theorem memoryOk_execLend {s : State} (h : s.MemoryOk) (w) : Ans.MemoryOk (execLend w s) :=
  memoryOk_issueLane h (by simp [h])

@[simp] theorem memoryOk_execGset {s : State} (h : s.MemoryOk) (w) : Ans.MemoryOk (execGset w s) :=
  memoryOk_issueLane h (by simp [h])

@[simp] theorem memoryOk_execQlop {s : State} (h : s.MemoryOk) (w) : Ans.MemoryOk (execQlop w s) :=
  memoryOk_aluLane h _ _ _

@[simp] theorem memoryOk_execLnop {s : State} (h : s.MemoryOk) (w) : Ans.MemoryOk (execLnop w s) :=
  memoryOk_issueLane h (by simp [h])

@[simp] theorem memoryOk_execShfl {s : State} (h : s.MemoryOk) (w) : Ans.MemoryOk (execShfl w s) := by
  refine memoryOk_issueLane h ?_
  dsimp only; split <;> simp [h]

@[simp] theorem memoryOk_execBallot {s : State} (h : s.MemoryOk) (w) : Ans.MemoryOk (execBallot w s) :=
  memoryOk_issueLane h (by simp [h])

@[simp] theorem memoryOk_execVote {s : State} (h : s.MemoryOk) (w) : Ans.MemoryOk (execVote w s) :=
  memoryOk_issueLane h (by simp [h])

theorem memoryOk_crossLane {s : State} (h : s.MemoryOk) {i w} {f : State → List Nat → State} (hf : ∀ ts, (f s ts).MemoryOk) :
    (crossLane i w s f).MemoryOk := by
  refine memoryOk_issueLane h ?_
  dsimp only; split <;> simp [h, hf]

@[simp] theorem memoryOk_execVmatch {s : State} (h : s.MemoryOk) (w) : Ans.MemoryOk (execVmatch w s) :=
  memoryOk_crossLane h (by simp [h])

@[simp] theorem memoryOk_execRedux {s : State} (h : s.MemoryOk) (w) : Ans.MemoryOk (execRedux w s) :=
  memoryOk_crossLane h fun ts => by split <;> simp [h]

@[simp] theorem memoryOk_execPsum {s : State} (h : s.MemoryOk) (w) : Ans.MemoryOk (execPsum w s) :=
  memoryOk_crossLane h (by simp [h])

@[simp] theorem memoryOk_execVtos {s : State} (h : s.MemoryOk) (w) : Ans.MemoryOk (execVtos w s) := by
  refine memoryOk_issueLane h ?_
  (repeat' split) <;> simp [h]

/-! ### Machine/LaneMem -/

@[simp] theorem State.memoryOk_spend (s : State) : (s.spend).MemoryOk ↔ s.MemoryOk := Iff.rfl

@[simp] theorem State.memoryOk_finished (s : State) (ts) : (s.finished ts).MemoryOk ↔ s.MemoryOk := by
  simp [State.finished]

theorem State.memoryOk_windowStall {s t : State} {w size} (he : s.windowStall w size = some t) : t.MemoryOk ↔ s.MemoryOk := by
  unfold State.windowStall at he
  dsimp only at he
  (repeat' split at he) <;> simp at he <;> simp [← he]

theorem memoryOk_memLane {s : State} (h : s.MemoryOk) {i w size} {body : State → Res} (hb : (body s).MemoryOk) :
    (memLane i w size s body).MemoryOk := by
  refine memoryOk_issueLane h ?_
  split
  · exact h
  split
  next he => simpa [State.memoryOk_windowStall he] using h
  · exact hb

@[simp] theorem State.MemoryOk.holdLane {s : State} (h : s.MemoryOk) (w) : (s.holdLane w).MemoryOk := by
  simp [State.holdLane, h]

@[simp] theorem State.memoryOk_fetchAll (s : State) (lines ordered scope) : (s.fetchAll lines ordered scope).MemoryOk ↔ s.MemoryOk := by
  simp [State.fetchAll]

@[simp] theorem State.memoryOk_loaded (s : State) (w out vs) : (s.loaded w out vs).MemoryOk ↔ s.MemoryOk := by
  simp [State.loaded]

theorem Loads.memoryOk_settle {s : State} (h : s.MemoryOk) (r : Loads) {k : State → Res} (hk : (k s).MemoryOk) :
    (r.settle s k).MemoryOk := by
  unfold Loads.settle
  dsimp only; split <;> simp [h, hk]

theorem memoryOk_orderedLoads {s : State} (h : s.MemoryOk) {i w n acc scope out} {k : State → Res}
    (hk : ∀ s, s.MemoryOk → (k s).MemoryOk) : (orderedLoads s i w n acc scope out k).MemoryOk := by
  unfold orderedLoads
  dsimp only; split
  · simp [h]
  · exact Loads.memoryOk_settle (by simp [h]) _ (hk _ (by simp [h]))

@[simp] theorem State.memoryOk_pendLane (s : State) (i accs) : (s.pendLane i accs).MemoryOk ↔ s.MemoryOk := by
  simp [State.pendLane]

@[simp] theorem memoryOk_relaxedLoads {s : State} (h : s.MemoryOk) (i w n acc out) : (relaxedLoads s i w n acc out).MemoryOk := by
  unfold relaxedLoads
  exact Loads.memoryOk_settle (by simp [h]) _ (by simp [h])

@[simp] theorem memoryOk_acquireLane {s : State} (h : s.MemoryOk) (scope) : (acquireLane s scope).MemoryOk := by
  have ha := h.acquire scope true
  unfold acquireLane
  split <;> simp_all

theorem memoryOk_releaseLane {s : State} (h : s.MemoryOk) {scope full} {k : State → Res} (hk : ∀ s, s.MemoryOk → (k s).MemoryOk) :
    (releaseLane s scope k full).MemoryOk := by
  have ha := h.release scope true full
  unfold releaseLane
  split <;> simp_all

theorem State.MemoryOk.stores {n mode} {store : State → Target → Nat → Nat → TagMode → StoreRes}
    (hs : ∀ {s : State}, s.MemoryOk → ∀ t n v m, (store s t n v m).MemoryOk) (xs) :
    ∀ {s : State}, s.MemoryOk → (s.stores n mode store xs).MemoryOk := by
  induction xs with
  | nil => intro s h; simpa [State.stores] using h
  | cons x xs ih =>
    intro s h
    unfold State.stores
    split
    next t ht => exact ih (hs h _ _ _ _ t ht)
    · exact hs h _ _ _ _

theorem memoryOk_withStores {s : State} (h : s.MemoryOk) {i acc glob probe} {run : List (Nat × Target) → StoreRes}
    (hr : ∀ xs, (run xs).MemoryOk) : (withStores s i acc glob probe run).MemoryOk := by
  unfold withStores
  dsimp only; split
  next t ht =>
    have ht : t.MemoryOk := hr _ _ ht
    split <;> simp [ht]
  all_goals simp [h]

@[simp] theorem memoryOk_execLd {s : State} (h : s.MemoryOk) (w) : Ans.MemoryOk (execLd w s) := by
  refine memoryOk_memLane h ?_
  dsimp only; split
  · simp [h]
  split
  · refine memoryOk_withoutClampTrap h ?_
    split
    · exact h
    · exact memoryOk_orderedLoads h fun s h => by simp [h]
  · split <;> simp [h]

@[simp] theorem memoryOk_execSt {s : State} (h : s.MemoryOk) (w) : Ans.MemoryOk (execSt w s) := by
  refine memoryOk_memLane h ?_
  dsimp only; split
  · exact h
  split
  · exact memoryOk_releaseLane h fun s h => memoryOk_withStores h fun _ => h.stores (fun h t n v m => memoryOk_releasingStore h t _ n v m) _
  · exact memoryOk_withStores h fun _ => h.stores (fun h => h.storeAt) _

@[simp] theorem memoryOk_execLdv {s : State} (h : s.MemoryOk) (w) : Ans.MemoryOk (execLdv w s) :=
  memoryOk_memLane h (by split <;> simp [h])

@[simp] theorem memoryOk_execStv {s : State} (h : s.MemoryOk) (w) : Ans.MemoryOk (execStv w s) := by
  refine memoryOk_memLane h ?_
  split
  · exact h
  · exact memoryOk_withStores h fun _ => h.stores (fun h => h.storeAt) _

@[simp] theorem State.memoryOk_prefetchLine (s : State) (line) : (s.prefetchLine line).MemoryOk ↔ s.MemoryOk := by
  simp [State.prefetchLine]

@[simp] theorem memoryOk_execPref {s : State} (h : s.MemoryOk) (w) : Ans.MemoryOk (execPref w s) := by
  refine memoryOk_issueLane h ?_
  split <;> simp [h]

@[simp] theorem State.memoryOk_writeBack (s : State) (k line) : (s.writeBack k line).MemoryOk ↔ s.MemoryOk := by
  unfold State.writeBack; split <;> simp

@[simp] theorem State.memoryOk_dropLine (s : State) (k line) : (s.dropLine k line).MemoryOk ↔ s.MemoryOk := Iff.rfl

@[simp] theorem memoryOk_execCwb {s : State} (h : s.MemoryOk) (w) : Ans.MemoryOk (execCwb w s) := by
  refine memoryOk_issueLane h ?_
  split <;> simp [h]

/-! ### Machine/Exchange -/

@[simp] theorem State.memoryOk_within {f : State → State} (hf : ∀ s, (f s).MemoryOk ↔ s.MemoryOk) (s : State) (k) :
    (s.within k f).MemoryOk ↔ s.MemoryOk := hf { s with cur := k }

@[simp] theorem State.memoryOk_putMoved (s : State) (w i v) : (s.putMoved w i v).MemoryOk ↔ s.MemoryOk := by
  unfold State.putMoved
  dsimp only; split <;> simp

@[simp] theorem State.memoryOk_putStatus (s : State) (x st) : (s.putStatus x st).MemoryOk ↔ s.MemoryOk := by
  simp [State.putStatus]

@[simp] theorem State.memoryOk_exchange (s : State) (a b) : (s.exchange a b).MemoryOk ↔ s.MemoryOk := by
  simp [State.exchange]

@[simp] theorem State.memoryOk_leaveXchg (s : State) (k w) : (s.leaveXchg k w).MemoryOk ↔ s.MemoryOk := by
  simp [State.leaveXchg]

@[simp] theorem memoryOk_execXchg {s : State} (h : s.MemoryOk) (w) : Ans.MemoryOk (execXchg w s) := by
  refine memoryOk_issueLane h ?_
  dsimp only; (repeat' split) <;> simp [h]

/-! ### Machine/LaneAtomic -/

@[simp] theorem State.memoryOk_scratchSteps (s : State) (w k acc) : (s.scratchSteps w k acc).MemoryOk ↔ s.MemoryOk := by
  unfold State.scratchSteps
  dsimp only; split <;> simp

@[simp] theorem State.memoryOk_scratchLater (s : State) (i w k acc) : (s.scratchLater i w k acc).MemoryOk ↔ s.MemoryOk := by
  simp [State.scratchLater]

theorem State.MemoryOk.scratchAtomics_ok {s t : State} (h : s.MemoryOk) {i w k acc} (he : s.scratchAtomics i w k acc = .ok t) :
    t.MemoryOk := by
  unfold State.scratchAtomics at he
  split at he
  · cases he
  · dsimp only at he
    split at he <;> cases he <;> simp [h]

theorem State.MemoryOk.scratchAtomics_error {s t : State} (h : s.MemoryOk) {i w k acc x}
    (he : s.scratchAtomics i w k acc = .error (x, t)) : t.MemoryOk := by
  unfold State.scratchAtomics at he
  split at he
  · cases he; simp [h]
  · dsimp only at he
    split at he <;> cases he

@[simp] theorem State.memoryOk_sendAtomics (s : State) (w k late sites) : (s.sendAtomics w k late sites).MemoryOk ↔ s.MemoryOk := by
  simp [State.sendAtomics]

@[simp] theorem State.MemoryOk.poisonTrap {s : State} (h : s.MemoryOk) (addr t) : (s.poisonTrap addr t).MemoryOk := by
  simp [State.poisonTrap, h]

theorem memoryOk_globalAtomics {s : State} (h : s.MemoryOk) {i w k acc} {ended : State → Res}
    (hk : ∀ s, s.MemoryOk → (ended s).MemoryOk) : (globalAtomics i w k s acc ended).MemoryOk := by
  unfold globalAtomics
  dsimp only; (repeat' split) <;> simp [h, hk]

theorem memoryOk_clampedIf {s : State} (h : s.MemoryOk) {c : Bool} {scope} {k : State → Res} (hk : (k s).MemoryOk) :
    (if c then withoutClampTrap s scope k else k s).MemoryOk := by
  split
  · exact memoryOk_withoutClampTrap h hk
  · exact hk

theorem memoryOk_releasedIf {s : State} (h : s.MemoryOk) {c : Bool} {scope full} {k : State → Res}
    (hk : ∀ s, s.MemoryOk → (k s).MemoryOk) : (if c then releaseLane s scope k full else k s).MemoryOk := by
  split
  · exact memoryOk_releaseLane h hk
  · exact hk _ h

@[simp] theorem memoryOk_atomicLane {s : State} (h : s.MemoryOk) (i w k) : (atomicLane i w k s).MemoryOk := by
  refine memoryOk_issueLane h ?_
  extract_lets scope acq rel addr ended ts
  have hended : ∀ s, s.MemoryOk → (ended s).MemoryOk := fun s h => by simp [ended, h]
  split
  · exact h
  split
  · exact hended _ h
  split
  · simp [h]
  split
  · simp [h]
  refine memoryOk_clampedIf h ?_
  show Res.MemoryOk (if ts.isEmpty then ended s else _)
  split
  · exact hended _ h
  split
  · exact h
  split
  · exact h
  refine memoryOk_releasedIf h fun s h => ?_
  split
  · split
    · simp [h]
    · exact memoryOk_globalAtomics h hended
  split
  · simp [h]
  split
  next he => exact h.scratchAtomics_error he
  next he => exact hended _ (h.scratchAtomics_ok he)

theorem memoryOk_earlyAtomic {s t : State} {i w k} (he : earlyAtomic i w k s = some t) : t.MemoryOk ↔ s.MemoryOk := by
  unfold earlyAtomic at he
  dsimp only at he
  (repeat' split at he) <;> cases he <;> simp

@[simp] theorem memoryOk_execAtom {s : State} (h : s.MemoryOk) (w) : Ans.MemoryOk (execAtom w s) :=
  memoryOk_atomicLane h _ _ _

@[simp] theorem memoryOk_execCas {s : State} (h : s.MemoryOk) (w) : Ans.MemoryOk (execCas w s) :=
  memoryOk_atomicLane h _ _ _

@[simp] theorem memoryOk_execRed {s : State} (h : s.MemoryOk) (w) : Ans.MemoryOk (execRed w s) :=
  memoryOk_atomicLane h _ _ _

@[simp] theorem memoryOk_execFatom {s : State} (h : s.MemoryOk) (w) : Ans.MemoryOk (execFatom w s) :=
  memoryOk_atomicLane h _ _ _

@[simp] theorem memoryOk_execLres {s : State} (h : s.MemoryOk) (w) : Ans.MemoryOk (execLres w s) :=
  memoryOk_atomicLane h _ _ _

@[simp] theorem memoryOk_execScond {s : State} (h : s.MemoryOk) (w) : Ans.MemoryOk (execScond w s) :=
  memoryOk_atomicLane h _ _ _

/-! ### Machine/Terms -/

@[simp] theorem State.memoryOk_setThr (s : State) (t x) : (s.setThr t x).MemoryOk ↔ s.MemoryOk := Iff.rfl

@[simp] theorem State.memoryOk_noteStep (s : State) (t v) : (s.noteStep t v).MemoryOk ↔ s.MemoryOk := Iff.rfl

@[simp] theorem memoryOk_settleThreads {s : State} (h : s.MemoryOk) (rs) : (settleThreads s rs).MemoryOk := by
  unfold settleThreads; dsimp only; (repeat' split) <;> simp [h]

/-! ### Steps of a thread -/

/-- An instruction of a thread leaves memory in its form, wherever it stops. -/
def Act.Keeps {α : Type} (x : Act α) : Prop := ∀ c s k, s.MemoryOk → (x c s k).1.MemoryOk

theorem Act.Keeps.of_eq {α : Type} {x : Act α} (hx : x.Keeps) {c s k t r} (he : x c s k = (t, r)) (h : s.MemoryOk) : t.MemoryOk := by
  simpa [he] using hx c s k h

section
variable {α β : Type}

theorem Act.Keeps.pure (a : α) : (Act.pure a).Keeps := fun _ _ _ h => h
theorem Act.Keeps.stop (x : Stop) : (Act.stop x : Act α).Keeps := fun _ _ _ h => h
theorem Act.Keeps.trap (c i) : (Act.trap c i : Act α).Keeps := .stop _
theorem Act.Keeps.self : Act.self.Keeps := fun _ _ _ h => h
theorem Act.Keeps.see (f : State → Nat → α) : (Act.see f).Keeps := fun _ _ _ h => h

theorem Act.Keeps.bind {x : Act α} {f : α → Act β} (hx : x.Keeps) (hf : ∀ a, (f a).Keeps) : (x.bind f).Keeps := by
  intro c s k h
  unfold Act.bind
  split
  next hr => exact hf _ _ _ _ (hx.of_eq hr h)
  next hr => exact hx.of_eq hr h

theorem Act.Keeps.ite {p : Prop} [Decidable p] {x y : Act α} (hx : x.Keeps) (hy : y.Keeps) : (if p then x else y).Keeps := by
  split
  · exact hx
  · exact hy

theorem Act.Keeps.step {f : State → Nat → State × Except Stop TWord} {performs}
    (hf : ∀ s t, s.MemoryOk → (f s t).1.MemoryOk) : (Act.step f performs).Keeps := by
  intro c s k h
  have hf := hf s c.t h
  unfold Act.step
  split
  · exact h
  split
  next hr => simp [hr] at hf; simp [hf]
  next hr => simpa [hr] using hf

theorem Act.Keeps.note (f) : (Act.note f).Keeps := .step fun _ _ h => h
theorem Act.Keeps.load (f) : (Act.load f).Keeps := .step fun _ _ h => h

theorem Act.Keeps.store {f : State → Nat → Except Stop State} (hf : ∀ s t u, s.MemoryOk → f s t = .ok u → u.MemoryOk) :
    (Act.store f).Keeps := by
  refine .bind (.step fun s t h => ?_) fun _ => .pure _
  unfold changeStep
  split
  next hr => exact hf s t _ h hr
  · exact h

theorem Act.Keeps.change {f : State → Nat → State} (hf : ∀ s t, (f s t).MemoryOk ↔ s.MemoryOk) : (Act.change f).Keeps :=
  .bind (.step fun s t h => (hf s t).2 h) fun _ => .pure _

theorem Act.Keeps.commit (keep f) : (Act.commit keep f).Keeps := fun _ _ _ h => h
theorem Act.Keeps.afresh (c i) : (Act.afresh c i : Act α).Keeps := fun _ _ _ h => h
theorem Act.Keeps.misuse (code) : (Act.misuse code : Act α).Keeps := .bind .self fun _ => .trap _ _
theorem Act.Keeps.clean (ranges) : (Act.clean ranges).Keeps := .bind (.note _) fun _ => .pure _
theorem Act.Keeps.pair (ranges f) : (Act.pair ranges f).Keeps := .note _
theorem Act.Keeps.termLoad (a) : (Act.termLoad a).Keeps := .load _

end

theorem State.MemoryOk.wordStore {s t : State} (h : s.MemoryOk) {space e v} (he : s.wordStore space e v = .ok t) : t.MemoryOk := by
  unfold State.wordStore at he
  split at he
  · cases he
  · split at he <;> cases he
    next hr => exact h.storeAt _ _ _ _ _ hr

theorem Act.Keeps.termStore (a v) : (Act.termStore a v).Keeps := .store fun _ _ _ h => h.wordStore

theorem Act.Keeps.header (a) : (Act.header a).Keeps := fun c s k h =>
  Act.Keeps.step (fun s _ h => by
    split
    · split
      · exact h
      · simp [h]
    · exact h) c s k h

/-! ### Wings, dereferencing and binding -/

theorem probe_keeps (a) : ∀ ks, (probe a ks).Keeps
  | [] => .pure _
  | _ :: ks => .bind (.load _) fun _ => .ite (.pure _) (.ite (.pure _) (probe_keeps a ks))

theorem wingProbe_keeps (a) : (wingProbe a).Keeps := .bind (.see _) fun _ => probe_keeps a _

theorem wingFind_keeps (a) : (wingFind a).Keeps := .bind (wingProbe_keeps a) fun p => by
  split
  · exact .bind (.load _) fun _ => .pure _
  · exact .pure _

theorem wingInsert_keeps (k a v) : (wingInsert k a v).Keeps :=
  .bind (.store fun _ _ _ h => h.wordStore) fun _ => .bind (.store fun _ _ _ h => h.wordStore) fun _ => .change fun _ _ => .rfl

theorem wingRemove_keeps (a) : (wingRemove a).Keeps := .bind (wingProbe_keeps a) fun p => by
  split
  · exact .bind (.store fun _ _ _ h => h.wordStore) fun _ => .change fun _ _ => .rfl
  · exact .pure _

theorem deref_keeps : ∀ n w, (deref n w).Keeps
  | 0, _ => .pure _
  | n + 1, w => .ite (.pure _) <| .bind (.termLoad _) fun _ => .ite
      (.bind (.see _) fun _ => .ite
        (.bind (wingFind_keeps _) fun _ => by
          split
          · exact .pure _
          · exact deref_keeps n _)
        (.pure _))
      (deref_keeps n _)

theorem trailPush_keeps (a kind old) : (trailPush a kind old).Keeps :=
  .bind (.see _) fun _ => .bind (.termStore _ _) fun _ => .bind (.termStore _ _) fun _ => .change fun _ _ => .rfl

theorem trailFull_keeps : trailFull.Keeps := .bind (.note _) fun _ => .pure _

theorem bindVar_keeps (a v) : (bindVar a v).Keeps :=
  .bind trailFull_keeps fun _ => .bind (.see _) fun _ => .ite (.pure _) <| .ite
    (.bind (wingProbe_keeps a) fun p => by
      split
      · exact .bind (trailPush_keeps _ _ _) fun _ => .bind (wingInsert_keeps _ _ _) fun _ => .pure _
      · exact .pure _)
    (.bind (trailPush_keeps _ _ _) fun _ => .bind (.termStore _ _) fun _ => .pure _)

theorem bindTerms_keeps {a b : Act TWord} (ha : a.Keeps) (hb : b.Keeps) : (bindTerms a b).Keeps :=
  .bind (.bind ha fun _ => deref_keeps _ _) fun _ => .bind (.bind hb fun _ => deref_keeps _ _) fun _ =>
    .ite (.pure _) <| .ite (.pure _) <| .ite (.ite (.pure _) (bindVar_keeps _ _)) (bindVar_keeps _ _)

/-! ### Unification -/

theorem takePair_keeps (us) : (takePair us).Keeps := by
  unfold takePair
  split
  · exact .pure _
  · exact .pure _
  · exact .bind (.see _) fun _ => .trap _ _
  · exact .bind (.termLoad _) fun _ => .bind (.termLoad _) fun _ => .pure _

theorem examineWith_keeps (limit) : (examineWith limit).Keeps := by
  refine .bind (.see _) fun _ => .bind (takePair_keeps _) fun _ => .bind (deref_keeps _ _) fun x => .bind (deref_keeps _ _) fun y => ?_
  have bound (a v us) : ((bindVar a v).bind fun st => .pure (if st = 3 then Examined.ends 3 else .next us)).Keeps :=
    .bind (bindVar_keeps _ _) fun _ => .pure _
  exact .ite (.pure _) <| .ite (.ite (.pure _) (.ite (bound _ _ _) (bound _ _ _))) <| .ite (bound _ _ _) <| .ite (bound _ _ _) <|
    .ite (.pure _) <| .ite
      (.bind (.header _) fun _ => .bind (.header _) fun _ => .ite (.pure _) (.ite (.pure _) (.pure _))) <|
      .ite (.pure _) (.ite (.pure _) (.pure _))

theorem unifyRun_keeps (budget) : ∀ n, (unifyRun budget n).Keeps
  | 0 => .stop _
  | n + 1 => .bind (.see _) fun _ => .ite (.pure _) <| .ite (.pure _) <| .bind (examineWith_keeps _) fun r => by
      split
      · exact .bind (.commit _ _) fun _ => .pure _
      · exact .pure _
      · exact .bind (.commit _ _) fun _ => unifyRun_keeps budget n

/-! ### Threads of one instruction -/

theorem memoryOk_runThread {s : State} (h : s.MemoryOk) {effect} {run : Act Unit} (hr : run.Keeps) (t) :
    (runThread effect run t s).1.MemoryOk := by
  have hr := hr ⟨t, effect⟩ s 0 h
  unfold runThread
  split <;> simp_all

theorem memoryOk_runThreads {effect} {run : Act Unit} (hr : run.Keeps) (ts) :
    ∀ {s : State}, s.MemoryOk → (runThreads effect run ts s).1.MemoryOk := by
  induction ts with
  | nil => exact fun h => h
  | cons t ts ih => exact fun h => ih (memoryOk_runThread h hr t)

theorem memoryOk_runBeside {s : State} (h : s.MemoryOk) {effect} {run : Act Unit} (hr : run.Keeps) (ts) :
    (runBeside effect run ts s).1.MemoryOk := by
  unfold runBeside
  dsimp only; split
  · exact memoryOk_runThreads hr _ h
  split
  · exact memoryOk_runThreads hr _ h
  · exact memoryOk_runThreads hr _ (by simp [h])

theorem memoryOk_termLane {s : State} (h : s.MemoryOk) {i w effect} {run : Act Unit} (hr : run.Keeps) :
    (termLane i w s effect run).MemoryOk :=
  memoryOk_issueLane h (memoryOk_settleThreads (memoryOk_runBeside h hr _) _)

/-! ### Machine/LaneTerm -/

@[simp] theorem memoryOk_execTld {s : State} (h : s.MemoryOk) (w) : Ans.MemoryOk (execTld w s) :=
  memoryOk_memLane h (by split <;> simp [h])

@[simp] theorem memoryOk_execTst {s : State} (h : s.MemoryOk) (w) : Ans.MemoryOk (execTst w s) := by
  refine memoryOk_memLane h ?_
  split
  · exact h
  · refine memoryOk_withStores h fun xs => ?_
    have one (xs : List (Nat × Target)) : ∀ r : StoreRes, r.MemoryOk → (xs.foldl (fun (r : StoreRes) a =>
        match r with
        | .ok s' => s'.storeAt a.2 8 (s.rdV64 a.1 w.vc.toNat).toNat (.word (s.rdTag a.1 w.vc.toNat))
        | _ => r) r).MemoryOk := by
      induction xs with
      | nil => exact fun _ h => h
      | cons x xs ih => exact fun r hr => ih _ (by cases r <;> simp_all)
    exact one xs _ (by simpa using h)

@[simp] theorem memoryOk_execTmk {s : State} (h : s.MemoryOk) (w) : Ans.MemoryOk (execTmk w s) := by
  refine memoryOk_issueLane h ?_
  dsimp only; split <;> simp [h]

@[simp] theorem memoryOk_execTget {s : State} (h : s.MemoryOk) (w) : Ans.MemoryOk (execTget w s) := by
  refine memoryOk_issueLane h ?_
  split <;> simp [h]

theorem settled_keeps (ranges check) {change : State → Nat → State} (hc : ∀ s t, (change s t).MemoryOk ↔ s.MemoryOk) :
    (settled ranges check change).Keeps := .bind (.see _) fun bad => by
  split
  · exact .trap _ _
  · exact .bind (.clean _) fun _ => .change hc

theorem tsetThread_keeps (w) : (tsetThread w).Keeps := settled_keeps _ _ fun _ _ => .rfl

@[simp] theorem memoryOk_execTset {s : State} (h : s.MemoryOk) (w) : Ans.MemoryOk (execTset w s) := by
  unfold execTset
  split
  · refine memoryOk_issueLane h ?_
    dsimp only; split <;> simp [h]
  · exact memoryOk_termLane h (tsetThread_keeps w)

@[simp] theorem memoryOk_execTtest {s : State} (h : s.MemoryOk) (w) : Ans.MemoryOk (execTtest w s) :=
  memoryOk_issueLane h (by simp [h])

theorem funcThread_keeps (w) : (funcThread w).Keeps :=
  .ite (.change (by simp)) <| .ite (.change (by simp)) <| .bind (.note _) fun _ => .bind (.header _) fun _ =>
    .bind (.clean _) fun _ => .change (by simp)

@[simp] theorem memoryOk_execFunc {s : State} (h : s.MemoryOk) (w) : Ans.MemoryOk (execFunc w s) := by
  unfold execFunc
  split
  · simp [h]
  · refine memoryOk_issueLane h ?_
    dsimp only; split
    · exact h
    · exact memoryOk_settleThreads (memoryOk_runBeside h (funcThread_keeps w) _) _

theorem derefThread_keeps (w) : (derefThread w).Keeps :=
  .bind (.clean _) fun _ => .bind (.note _) fun _ => .bind (deref_keeps _ _) fun _ => .change (by simp)

@[simp] theorem memoryOk_execDeref {s : State} (h : s.MemoryOk) (w) : Ans.MemoryOk (execDeref w s) :=
  memoryOk_termLane h (derefThread_keeps w)

theorem bindThread_keeps (w) : (bindThread w).Keeps :=
  .bind (bindTerms_keeps (.pair _ _) (.pair _ _)) fun _ => .change (by simp)

@[simp] theorem memoryOk_execBind {s : State} (h : s.MemoryOk) (w) : Ans.MemoryOk (execBind w s) :=
  memoryOk_termLane h (bindThread_keeps w)

theorem unifyReady_keeps (w) : (unifyReady w).Keeps := by
  intro c s k h
  unfold unifyReady
  dsimp only; split
  · exact h
  split
  · exact h
  · exact h

theorem unifyThread_keeps (w) : (unifyThread w).Keeps :=
  .bind (unifyReady_keeps w) fun _ => .bind (unifyRun_keeps _ _) fun _ => .change (by simp)

@[simp] theorem memoryOk_execUnify {s : State} (h : s.MemoryOk) (w) : Ans.MemoryOk (execUnify w s) :=
  memoryOk_termLane h (unifyThread_keeps w)

theorem hallocRun_keeps (base) : ∀ n j, (hallocRun base n j).Keeps
  | 0, _ => .pure _
  | n + 1, j => .bind (.store fun _ _ _ h => h.wordStore) fun _ => .bind (.commit _ _) fun _ => hallocRun_keeps base n (j + 1)

theorem hallocThread_keeps (w) : (hallocThread w).Keeps :=
  .bind (.see _) fun _ => .ite (.misuse _) <| .ite (.misuse _) <|
    .bind (.ite (hallocRun_keeps _ _ _) (.pure _)) fun _ => .change (by simp)

@[simp] theorem memoryOk_execHalloc {s : State} (h : s.MemoryOk) (w) : Ans.MemoryOk (execHalloc w s) :=
  memoryOk_termLane h (hallocThread_keeps w)

theorem savePairs_keeps (r first) : ∀ is, (savePairs r first is).Keeps
  | [] => .pure _
  | _ :: is => .bind (.store fun s t u h he => by
      split at he
      · cases he
      · exact h.wordStore he) fun _ => savePairs_keeps r first is

theorem choiceThread_keeps (w) : (choiceThread w).Keeps :=
  .bind (.see _) fun _ => .ite (.misuse _) <| .ite (.misuse _) <|
    .bind (.termStore _ _) fun _ => .bind (.termStore _ _) fun _ => .bind (.termStore _ _) fun _ => .bind (.termStore _ _) fun _ =>
      .bind (savePairs_keeps _ _ _) fun _ => .change fun _ _ => .rfl

@[simp] theorem memoryOk_execChoice {s : State} (h : s.MemoryOk) (w) : Ans.MemoryOk (execChoice w s) :=
  memoryOk_termLane h (choiceThread_keeps w)

theorem nextaltThread_keeps (w) : (nextaltThread w).Keeps :=
  .bind (.see _) fun _ => .ite (.misuse _) <| .bind (.termLoad _) fun _ => .termStore _ _

@[simp] theorem memoryOk_execNextalt {s : State} (h : s.MemoryOk) (w) : Ans.MemoryOk (execNextalt w s) :=
  memoryOk_termLane h (nextaltThread_keeps w)

theorem cutThread_keeps (w) : (cutThread w).Keeps :=
  .ite (.bind (.see _) fun _ => .ite (.pure _) <| .bind (.termLoad _) fun _ => .change fun _ _ => .rfl)
    (settled_keeps _ _ fun _ _ => .rfl)

@[simp] theorem memoryOk_execCut {s : State} (h : s.MemoryOk) (w) : Ans.MemoryOk (execCut w s) :=
  memoryOk_termLane h (cutThread_keeps w)

theorem undoRun_keeps (r) : ∀ n, (undoRun r n).Keeps
  | 0 => .stop _
  | n + 1 => .bind (.see _) fun _ => .bind (.termLoad _) fun _ => .ite (.pure _) <| .ite (.misuse _) <|
      .bind (.termLoad _) fun _ => .bind (.termLoad _) fun _ =>
        .bind (.ite (wingRemove_keeps _) (.termStore _ _)) fun _ => .bind (.commit _ _) fun _ => undoRun_keeps r n

theorem restorePairs_keeps (r first) : ∀ is, (restorePairs r first is).Keeps
  | [] => .pure _
  | _ :: is => .bind (.termLoad _) fun _ => .bind (.change (by simp)) fun _ => restorePairs_keeps r first is

theorem backtrackThread_keeps (qd) : (backtrackThread qd).Keeps :=
  .bind (.see _) fun _ => .ite (.change fun _ _ => .rfl) <| .bind (.termLoad _) fun _ => .ite (.bind .self fun _ => .afresh _ _) <|
    .bind (undoRun_keeps _ _) fun _ => .bind (.termLoad _) fun _ => .bind (.change fun _ _ => .rfl) fun _ =>
      .bind (restorePairs_keeps _ _ _) fun _ => .change fun _ _ => .rfl

theorem memoryOk_choiceWords {s : State} (h : s.MemoryOk) (ts) : (choiceWords ts s).1.MemoryOk := by
  refine List.foldlRecOn (motive := fun p : State × List Stop => p.1.MemoryOk) ts _ h fun p hp t _ => ?_
  dsimp only; split
  · exact hp
  split
  next hr => exact (Act.Keeps.termLoad _).of_eq hr hp
  next hr => exact (Act.Keeps.termLoad _).of_eq hr hp

theorem memoryOk_backtrackPlan_ok {s t : State} (h : s.MemoryOk) {ts} (he : backtrackPlan s ts = .ok t) : t.MemoryOk := by
  have hc := memoryOk_choiceWords h ts
  unfold backtrackPlan at he
  dsimp only at he
  (repeat' split at he) <;> cases he
  simp [hc]

theorem memoryOk_backtrackPlan_error {s : State} (h : s.MemoryOk) {ts r} (he : backtrackPlan s ts = .error r) : r.MemoryOk := by
  have hc := memoryOk_choiceWords h ts
  unfold backtrackPlan at he
  dsimp only at he
  (repeat' split at he) <;> cases he <;> simp [hc]

@[simp] theorem memoryOk_execBacktrack {s : State} (h : s.MemoryOk) (w) : Ans.MemoryOk (execBacktrack w s) := by
  refine memoryOk_issueLane h ?_
  dsimp only; split
  next r hr =>
    split at hr
    · cases hr
    · exact memoryOk_backtrackPlan_error h hr
  next t hr =>
    have ht : t.MemoryOk := by
      split at hr
      · cases hr; exact h
      · exact memoryOk_backtrackPlan_ok h hr
    have settled {q} (hq : settleThreads (runBeside true (backtrackThread w.vd.toNat) (s.unmarked w) t).1
        (runBeside true (backtrackThread w.vd.toNat) (s.unmarked w) t).2 = q) : q.MemoryOk :=
      hq ▸ memoryOk_settleThreads (memoryOk_runBeside ht (backtrackThread_keeps _) _) _
    split
    next hq => simpa using settled hq
    next hq => exact settled rfl

@[simp] theorem State.memoryOk_sendCommit (s : State) (t a v) : (s.sendCommit t a v).1.MemoryOk ↔ s.MemoryOk := by
  unfold State.sendCommit; dsimp only; (repeat' split) <;> simp

theorem commitScan_keeps (last) : ∀ n, (commitScan last n).Keeps
  | 0 => .pure _
  | n + 1 => .bind (.see _) fun _ => .ite (.pure _) <| .ite
      (.bind (.store fun _ _ _ h => h.wordStore) fun _ => .bind (.commit _ _) fun _ => commitScan_keeps last n)
      (.bind (.load _) fun a => .ite (.bind (.commit _ _) fun _ => commitScan_keeps last n)
        (.bind (.load _) fun v => fun c s k h => by
          have hc : (s.sendCommit c.t a.value v).1.MemoryOk := by simp [h]
          split <;> simp_all))

@[simp] theorem State.memoryOk_commitReply (s : State) (t stored) : (s.commitReply t stored).MemoryOk ↔ s.MemoryOk := Iff.rfl

theorem memoryOk_commitThreads (vd ts) : ∀ {s : State}, s.MemoryOk → (commitThreads vd ts s).MemoryOk := by
  induction ts with
  | nil => exact fun h => h
  | cons t ts ih =>
    intro s h
    unfold commitThreads
    dsimp only; split
    next hr => exact ih (by simpa using (commitScan_keeps _ _).of_eq hr h)
    all_goals next hr => simpa using (commitScan_keeps _ _).of_eq hr h

@[simp] theorem memoryOk_execCommit {s : State} (h : s.MemoryOk) (w) : Ans.MemoryOk (execCommit w s) := by
  refine memoryOk_issueLane h ?_
  dsimp only; split
  · exact h
  split
  · simp [h]
  split
  · simp [h]
  split
  · exact memoryOk_commitThreads _ _ h
  · exact memoryOk_releaseLane h fun s h => memoryOk_commitThreads _ _ h

/-! ### Machine/Access -/

@[simp] theorem State.memoryOk_putIn (s : State) (takers vd o) : (s.putIn takers vd o).MemoryOk ↔ s.MemoryOk := by
  simp [State.putIn]

@[simp] theorem State.memoryOk_landLoad (s : State) (i takers v tag) : (s.landLoad i takers v tag).MemoryOk ↔ s.MemoryOk := by
  unfold State.landLoad; split <;> simp

@[simp] theorem State.memoryOk_atomWrites (s : State) (a o) : (s.atomWrites a o).MemoryOk ↔ s.MemoryOk := by
  unfold State.atomWrites; split <;> simp

@[simp] theorem State.MemoryOk.performAcc {s : State} (h : s.MemoryOk) (a c) : (s.performAcc a c).MemoryOk := by
  unfold State.performAcc; dsimp only; (repeat' split) <;> simp [h]

@[simp] theorem State.MemoryOk.performOne {s : State} (h : s.MemoryOk) (id : Nat) (c : Acc) : (s.performOne id c).MemoryOk := by
  unfold State.performOne
  split
  · exact h
  · next a _ =>
    have hp := h.performAcc a c
    dsimp only
    split
    · simpa using h
    · split <;> simp_all

@[simp] theorem State.MemoryOk.runAccess {s : State} (h : s.MemoryOk) (k id : Nat) : (s.runAccess k id).MemoryOk := by
  unfold State.runAccess
  split
  · exact h
  · exact State.MemoryOk.foldl (fun _ c hs => hs.performOne id c) _ { s with cur := k } h

/-! ### Machine/Ahead -/

@[simp] theorem State.memoryOk_leadAtomic (s : State) : s.leadAtomic.MemoryOk ↔ s.MemoryOk := by
  unfold State.leadAtomic
  dsimp only; split
  · rfl
  split
  · rfl
  next he => simpa using memoryOk_earlyAtomic he

@[simp] theorem State.memoryOk_mergeReqs (s : State) (first second) : (s.mergeReqs first second).MemoryOk ↔ s.MemoryOk := by
  unfold State.mergeReqs; dsimp only; (repeat' split) <;> simp

/-! ### Machine/SliceService -/

@[simp] theorem State.memoryOk_grant (s : State) (k ctx id r paying) : (s.grant k ctx id r paying).MemoryOk ↔ s.MemoryOk := Iff.rfl

@[simp] theorem State.memoryOk_serveSlice (k n) : ∀ (s : State) (left), (s.serveSlice k n left).1.MemoryOk ↔ s.MemoryOk := by
  induction n with
  | zero => simp [State.serveSlice]
  | succ n ih =>
    intro s left
    unfold State.serveSlice
    split <;> simp [ih]

@[simp] theorem State.memoryOk_countWaits (s : State) (k eligible) : (s.countWaits k eligible).MemoryOk ↔ s.MemoryOk := Iff.rfl

@[simp] theorem State.memoryOk_serve (s : State) (k) : (s.serve k).MemoryOk ↔ s.MemoryOk := by
  simp [State.serve]

@[simp] theorem State.memoryOk_refillSlice (s : State) (k n) : (s.refillSlice k n).MemoryOk ↔ s.MemoryOk := Iff.rfl

@[simp] theorem State.memoryOk_sliceCycles (k n) : ∀ s : State, (State.sliceCycles k n s).MemoryOk ↔ s.MemoryOk := by
  induction n with
  | zero => simp [State.sliceCycles]
  | succ n ih => intro s; simp [State.sliceCycles, ih]

@[simp] theorem State.memoryOk_passTime (s : State) (ns) : (s.passTime ns).MemoryOk ↔ s.MemoryOk := by
  simp [State.passTime]

/-! ### Machine/System -/

@[simp] theorem State.memoryOk_tickTime (s : State) : (s.tickTime).MemoryOk ↔ s.MemoryOk := by
  simp [State.tickTime]

@[simp] theorem State.memoryOk_tickIsland (s : State) (c) : (s.tickIsland c).MemoryOk ↔ s.MemoryOk := Iff.rfl

theorem State.memoryOk_csr64 {s t : State} {n v} (he : s.csr64 n = some (v, t)) : t.MemoryOk ↔ s.MemoryOk := by
  unfold State.csr64 at he
  dsimp only at he
  split at he <;> simp at he <;> simp [← he.2]

@[simp] theorem memoryOk_execScsrr {s : State} (h : s.MemoryOk) (sd csr) : Ans.MemoryOk (execScsrr sd csr s) := by
  refine memoryOk_issueScalar h ?_
  dsimp only; split
  · exact h
  split
  · exact h
  split
  next he => simpa [State.memoryOk_csr64 he] using h
  · exact h

@[simp] theorem memoryOk_execScsrw {s : State} (h : s.MemoryOk) (ss csr) : Ans.MemoryOk (execScsrw ss csr s) := by
  unfold execScsrw; dsimp only; (repeat' split) <;> simp [h]

@[simp] theorem memoryOk_execStrap {s : State} (h : s.MemoryOk) (code) : Ans.MemoryOk (execStrap code s) :=
  memoryOk_issueScalar h (by simp [h])

@[simp] theorem memoryOk_execSbrk {s : State} (h : s.MemoryOk) (code) : Ans.MemoryOk (execSbrk code s) :=
  memoryOk_issueScalar h (by simp [h])

@[simp] theorem State.memoryOk_takeAgain (s : State) (x) : (s.takeAgain x).MemoryOk ↔ s.MemoryOk := by
  unfold State.takeAgain; split <;> simp

@[simp] theorem State.memoryOk_resumeLate (s : State) (t) : (s.resumeLate t).MemoryOk ↔ s.MemoryOk := by
  simp [State.resumeLate]

@[simp] theorem memoryOk_execStret {s : State} (h : s.MemoryOk) : Ans.MemoryOk (execStret s) := by
  refine memoryOk_issueScalar h ?_
  split <;> simp [h]

@[simp] theorem memoryOk_execSnop {s : State} (h : s.MemoryOk) : Ans.MemoryOk (execSnop s) := by
  simp [execSnop, h]

/-! ### Machine/Width -/

@[simp] theorem State.memoryOk_growWindow (s : State) (k base n') : (s.growWindow k base n').MemoryOk ↔ s.MemoryOk := Iff.rfl

@[simp] theorem State.memoryOk_split (s : State) (c sd) : (s.split c sd).MemoryOk ↔ s.MemoryOk := by
  unfold State.split; dsimp only; (repeat' split) <;> simp

@[simp] theorem memoryOk_execWsplit {s : State} (h : s.MemoryOk) (sd ways) : Ans.MemoryOk (execWsplit sd ways s) := by
  refine memoryOk_issueScalar h ?_
  (repeat' split) <;> simp [h]

@[simp] theorem State.memoryOk_fuseWith (s : State) (k sd sdk) : (s.fuseWith k sd sdk).MemoryOk ↔ s.MemoryOk := by
  unfold State.fuseWith; dsimp only; (repeat' split) <;> simp

@[simp] theorem memoryOk_execWfuse {s : State} (h : s.MemoryOk) (sd sa tag) : Ans.MemoryOk (execWfuse sd sa tag s) := by
  refine memoryOk_issueScalar h ?_
  dsimp only; (repeat' split) <;> simp [h]

@[simp] theorem memoryOk_execWgrow {s : State} (h : s.MemoryOk) (n) : Ans.MemoryOk (execWgrow n s) := by
  refine memoryOk_issueScalar h ?_
  dsimp only; (repeat' split) <;> simp [h]

/-! ### Machine/Queues -/

@[simp] theorem State.memoryOk_setQueue (s : State) (core q x) : (s.setQueue core q x).MemoryOk ↔ s.MemoryOk := Iff.rfl

@[simp] theorem State.memoryOk_bindQueue (s : State) (launch core q offset slots) :
    (s.bindQueue launch core q offset slots).MemoryOk ↔ s.MemoryOk := Iff.rfl

@[simp] theorem memoryOk_execQbind {s : State} (h : s.MemoryOk) (sa sb queue) : Ans.MemoryOk (execQbind sa sb queue s) :=
  memoryOk_issueScalar h (by simp [h])

@[simp] theorem State.memoryOk_pushHandle (s : State) (core q x v) : (s.pushHandle core q x v).MemoryOk ↔ s.MemoryOk := Iff.rfl

@[simp] theorem State.memoryOk_popHandle (s : State) (core q x) : (s.popHandle core q x).2.MemoryOk ↔ s.MemoryOk := Iff.rfl

theorem memoryOk_withQueue {s : State} (h : s.MemoryOk) {queue} {k : Queue → Res} (hk : ∀ x, (k x).MemoryOk) :
    (withQueue s queue k).MemoryOk := by
  unfold withQueue
  dsimp only; (repeat' split) <;> simp [h, hk]

@[simp] theorem memoryOk_queueWait {s : State} (h : s.MemoryOk) (x w) : (queueWait s x w).MemoryOk := by
  simp [queueWait, h]

@[simp] theorem memoryOk_withoutLoss {s : State} (h : s.MemoryOk) (queue x) {k : Res} (hk : k.MemoryOk) :
    (withoutLoss s queue x k).MemoryOk := by
  unfold withoutLoss; split <;> simp [h, hk]

theorem memoryOk_pushRelease {s : State} (h : s.MemoryOk) (x scope) {k : State → Res} (hk : ∀ s, s.MemoryOk → (k s).MemoryOk) :
    (pushRelease s x scope k).MemoryOk := by
  have ha := h.release scope.toNat false false
  unfold pushRelease
  split <;> simp_all

@[simp] theorem State.memoryOk_pushed (s : State) (sa queue x) : (s.pushed sa queue x).MemoryOk ↔ s.MemoryOk := by
  simp [State.pushed]

theorem memoryOk_pushStep {s : State} (h : s.MemoryOk) (sa queue x) {k : State → State} (hk : ∀ s, s.MemoryOk → (k s).MemoryOk) :
    (pushStep s sa queue x k).MemoryOk := by
  unfold pushStep; split <;> simp [h, hk]

@[simp] theorem memoryOk_execQpush {s : State} (h : s.MemoryOk) (sa scope queue) : Ans.MemoryOk (execQpush sa scope queue s) := by
  refine memoryOk_issueScalar h (memoryOk_withQueue h fun x => memoryOk_pushRelease h _ _ fun s h => ?_)
  split
  · simp [h]
  · exact memoryOk_pushStep h _ _ _ fun _ h => h

@[simp] theorem memoryOk_execQtryPush {s : State} (h : s.MemoryOk) (sd sa scope queue) :
    Ans.MemoryOk (execQtryPush sd sa scope queue s) := by
  refine memoryOk_issueScalar h (memoryOk_withQueue h fun x => memoryOk_pushRelease h _ _ fun s h => ?_)
  split
  · exact h
  · exact memoryOk_pushStep h _ _ _ fun _ h => h

theorem memoryOk_popStep {s : State} (h : s.MemoryOk) (queue x scope) {k : State → Word → State}
    (hk : ∀ s v, s.MemoryOk → (k s v).MemoryOk) : (popStep s queue x scope k).MemoryOk := by
  refine memoryOk_withoutClampTrap h ?_
  dsimp only; split
  · exact h
  · exact memoryOk_acquireThen (by simpa using h) fun s h => hk _ _ h

theorem memoryOk_popFinish {s : State} (h : s.MemoryOk) (scope) {k : State → Word → State} {otherwise : Res}
    (hk : ∀ s v, s.MemoryOk → (k s v).MemoryOk) (ho : otherwise.MemoryOk) : (popFinish s scope k otherwise).MemoryOk := by
  unfold popFinish
  split
  · exact memoryOk_acquireThen h fun s h => hk _ _ h
  · exact ho

@[simp] theorem memoryOk_execQpop {s : State} (h : s.MemoryOk) (sd scope queue) : Ans.MemoryOk (execQpop sd scope queue s) := by
  refine memoryOk_issueScalar h (memoryOk_popFinish h _ (fun _ _ h => h)
    (memoryOk_withQueue h fun x => memoryOk_withoutLoss h _ _ ?_))
  split
  · simp [h]
  · exact memoryOk_popStep h _ _ _ fun _ _ h => h

@[simp] theorem memoryOk_execQtryPop {s : State} (h : s.MemoryOk) (sd scope queue) : Ans.MemoryOk (execQtryPop sd scope queue s) := by
  refine memoryOk_issueScalar h (memoryOk_popFinish h _ (fun _ _ h => h)
    (memoryOk_withQueue h fun x => memoryOk_withoutLoss h _ _ ?_))
  split
  · exact h
  · exact memoryOk_popStep h _ _ _ fun _ _ h => h

@[simp] theorem memoryOk_execQtryCount {s : State} (h : s.MemoryOk) (sd queue) : Ans.MemoryOk (execQtryCount sd queue s) :=
  memoryOk_issueScalar h (memoryOk_withQueue h fun _ => memoryOk_withoutLoss h _ _ h)

/-! ### Machine/Commands -/

@[simp] theorem memoryOk_enqueueCopy {s : State} (h : s.MemoryOk) (i g neg ok op zd zs) : (enqueueCopy i g neg ok op zd zs s).MemoryOk := by
  simp [enqueueCopy, h]

@[simp] theorem memoryOk_execCpy {s : State} (h : s.MemoryOk) (g neg zd zs sa) : Ans.MemoryOk (execCpy g neg zd zs sa s) :=
  memoryOk_issueScalar h (by simp [h])

@[simp] theorem memoryOk_execCpyq {s : State} (h : s.MemoryOk) (g neg zd zs sa) : Ans.MemoryOk (execCpyq g neg zd zs sa s) :=
  memoryOk_issueScalar h (by simp [h])

@[simp] theorem memoryOk_execCpys {s : State} (h : s.MemoryOk) (g neg zd sa) : Ans.MemoryOk (execCpys g neg zd sa s) :=
  memoryOk_issueScalar h (by simp [h])

@[simp] theorem memoryOk_execGath {s : State} (h : s.MemoryOk) (g neg zd zs zi) : Ans.MemoryOk (execGath g neg zd zs zi s) :=
  memoryOk_issueScalar h (by simp [h])

@[simp] theorem memoryOk_execScat {s : State} (h : s.MemoryOk) (g neg zd zs zi) : Ans.MemoryOk (execScat g neg zd zs zi s) :=
  memoryOk_issueScalar h (by simp [h])

@[simp] theorem memoryOk_execMcast {s : State} (h : s.MemoryOk) (g neg zd zs sa) : Ans.MemoryOk (execMcast g neg zd zs sa s) :=
  memoryOk_issueScalar h (by simp [h])

@[simp] theorem memoryOk_enqueueFabric {s : State} (h : s.MemoryOk) (i g neg ok coll op z) :
    (enqueueFabric i g neg ok coll op z s).MemoryOk := by
  simp [enqueueFabric, h]

@[simp] theorem memoryOk_enqueueTransfer {s : State} (h : s.MemoryOk) (i g neg zl sa get) :
    (enqueueTransfer i g neg zl sa get s).MemoryOk := by
  simp [enqueueTransfer, h]

@[simp] theorem memoryOk_execXput {s : State} (h : s.MemoryOk) (g neg zl sa) : Ans.MemoryOk (execXput g neg zl sa s) :=
  memoryOk_issueScalar h (by simp [h])

@[simp] theorem memoryOk_execXget {s : State} (h : s.MemoryOk) (g neg zl sa) : Ans.MemoryOk (execXget g neg zl sa s) :=
  memoryOk_issueScalar h (by simp [h])

@[simp] theorem memoryOk_enqueueColl {s : State} (h : s.MemoryOk) (i g neg kind op zd zs sa) :
    (enqueueColl i g neg kind op zd zs sa s).MemoryOk :=
  memoryOk_enqueueFabric h _ _ _ _ _ _ _

@[simp] theorem memoryOk_execCollAred {s : State} (h : s.MemoryOk) (g neg zd zs sa op) : Ans.MemoryOk (execCollAred g neg zd zs sa op s) :=
  memoryOk_issueScalar h (by simp [h])

@[simp] theorem memoryOk_execCollAgath {s : State} (h : s.MemoryOk) (g neg zd zs sa) : Ans.MemoryOk (execCollAgath g neg zd zs sa s) :=
  memoryOk_issueScalar h (by simp [h])

@[simp] theorem memoryOk_execCollRscat {s : State} (h : s.MemoryOk) (g neg zd zs sa op) :
    Ans.MemoryOk (execCollRscat g neg zd zs sa op s) :=
  memoryOk_issueScalar h (by simp [h])

@[simp] theorem memoryOk_execEwait {s : State} (h : s.MemoryOk) (n) : Ans.MemoryOk (execEwait n s) :=
  memoryOk_issueScalar h (by simp [h])

@[simp] theorem memoryOk_execXwait {s : State} (h : s.MemoryOk) (sd n) : Ans.MemoryOk (execXwait sd n s) :=
  memoryOk_issueScalar h (by simp [h])

@[simp] theorem memoryOk_execCwait {s : State} (h : s.MemoryOk) (sd n) : Ans.MemoryOk (execCwait sd n s) :=
  memoryOk_issueScalar h (by simp [h])

/-! ### Machine/Matrix -/

@[simp] theorem State.memoryOk_runMma (s : State) (k m integer w) : (s.runMma k m integer w).MemoryOk ↔ s.MemoryOk := by
  simp [State.runMma]

@[simp] theorem State.memoryOk_noteDue (s : State) (k index) : (s.noteDue k index).MemoryOk ↔ s.MemoryOk := by
  unfold State.noteDue; split <;> simp

@[simp] theorem State.memoryOk_runMlda (s : State) (k m w) : (s.runMlda k m w).MemoryOk ↔ s.MemoryOk := by
  simp [State.runMlda]

@[simp] theorem State.memoryOk_putIssuer (s : State) (k inHandler t r v) : (s.putIssuer k inHandler t r v).MemoryOk ↔ s.MemoryOk := by
  simp [State.putIssuer]

@[simp] theorem State.memoryOk_observeAll (s : State) (k inHandler t r v) :
    (s.observeAll k inHandler t r v).MemoryOk ↔ s.MemoryOk := Iff.rfl

@[simp] theorem State.memoryOk_publish (s : State) (k inHandler t r v) : (s.publish k inHandler t r v).MemoryOk ↔ s.MemoryOk := by
  simp [State.publish]

@[simp] theorem State.memoryOk_showBytes (s : State) (k core bytes) : (s.showBytes k core bytes).MemoryOk ↔ s.MemoryOk := Iff.rfl

@[simp] theorem State.memoryOk_runMsta (s : State) (k m w) : (s.runMsta k m w).MemoryOk ↔ s.MemoryOk := by
  simp [State.runMsta]

@[simp] theorem State.memoryOk_publishPred (s : State) (k inHandler q v) : (s.publishPred k inHandler q v).MemoryOk ↔ s.MemoryOk := by
  simp [State.publishPred]

@[simp] theorem State.memoryOk_runMflag (s : State) (k m w) : (s.runMflag k m w).MemoryOk ↔ s.MemoryOk := by
  simp [State.runMflag]

@[simp] theorem State.memoryOk_runMatrix (s : State) (k m) : (s.runMatrix k m).MemoryOk ↔ s.MemoryOk := by
  unfold State.runMatrix; split <;> simp

@[simp] theorem State.memoryOk_showFrames (s : State) (k i) : (s.showFrames k i).MemoryOk ↔ s.MemoryOk := by
  simp [State.showFrames]

/-! ### Machine/GroupEvents -/

@[simp] theorem Ans.memoryOk_happens {ok : Bool} {s t : State} :
    (happens ok s t).MemoryOk ↔ if ok then t.MemoryOk else s.MemoryOk := by simp [happens]

@[simp] theorem State.memoryOk_startBlock (s : State) (k e) : (s.startBlock k e).MemoryOk ↔ s.MemoryOk := Iff.rfl

@[simp] theorem memoryOk_execLaneBlockStart {s : State} (h : s.MemoryOk) (group) : Ans.MemoryOk (execLaneBlockStart group s) := by
  unfold execLaneBlockStart; split <;> simp [h]

@[simp] theorem memoryOk_execGuardedEntryDiscard {s : State} (h : s.MemoryOk) (group queue) :
    Ans.MemoryOk (execGuardedEntryDiscard group queue s) := by
  simp [execGuardedEntryDiscard, h]

@[simp] theorem memoryOk_execMatrixOpStart {s : State} (h : s.MemoryOk) (core unit) : Ans.MemoryOk (execMatrixOpStart core unit s) := by
  unfold execMatrixOpStart; split <;> simp [h]

@[simp] theorem memoryOk_execMatrixOpComplete {s : State} (h : s.MemoryOk) (op) : Ans.MemoryOk (execMatrixOpComplete op s) := by
  unfold execMatrixOpComplete; split <;> simp [h]

@[simp] theorem State.memoryOk_mapCastOps (s : State) (k f) : (s.mapCastOps k f).MemoryOk ↔ s.MemoryOk := by
  simp [State.mapCastOps]

@[simp] theorem State.memoryOk_noteRival (s : State) (k m cores) : (s.noteRival k m cores).MemoryOk ↔ s.MemoryOk := by
  unfold State.noteRival; split <;> simp

@[simp] theorem State.memoryOk_settleRivals (s t : State) (k : Nat) (m : MatOp) : (s.settleRivals t k m).MemoryOk ↔ t.MemoryOk := by
  unfold State.settleRivals
  dsimp only
  split <;> rfl

@[simp] theorem State.memoryOk_runOne (s : State) (k : Nat) (m : MatOp) : (s.runOne k m).MemoryOk ↔ s.MemoryOk := by
  simp [State.runOne]

@[simp] theorem State.memoryOk_runBatch (s : State) (k n : Nat) : (s.runBatch k n).MemoryOk ↔ s.MemoryOk := by
  induction n generalizing s with
  | zero => rfl
  | succ n ih =>
    unfold State.runBatch
    dsimp only
    split
    · split
      · exact (ih _).trans (by simp)
      · rfl
    · rfl

@[simp] theorem State.memoryOk_publishBatch (s : State) (k) : (s.publishBatch k).MemoryOk ↔ s.MemoryOk := by
  simp [State.publishBatch]

@[simp] theorem memoryOk_execBatchComplete {s : State} (h : s.MemoryOk) (group) : Ans.MemoryOk (execBatchComplete group s) := by
  simp [execBatchComplete, h]

@[simp] theorem memoryOk_execHandlerEntryDeferred {s : State} (h : s.MemoryOk) (group) :
    Ans.MemoryOk (execHandlerEntryDeferred group s) := by
  unfold execHandlerEntryDeferred; dsimp only; (repeat' split) <;> simp [h]

@[simp] theorem memoryOk_execFragmentWatchdog {s : State} (h : s.MemoryOk) (group) : Ans.MemoryOk (execFragmentWatchdog group s) := by
  unfold execFragmentWatchdog; dsimp only; (repeat' split) <;> simp [h]

@[simp] theorem memoryOk_execFairnessSwitch {s : State} (h : s.MemoryOk) (group) : Ans.MemoryOk (execFairnessSwitch group s) := by
  simp [execFairnessSwitch, h]

@[simp] theorem State.memoryOk_grantGrow (s : State) (core k n base) : (s.grantGrow core k n base).MemoryOk ↔ s.MemoryOk := by
  simp [State.grantGrow]

@[simp] theorem memoryOk_execWgrowGrant {s : State} (h : s.MemoryOk) (core) : Ans.MemoryOk (execWgrowGrant core s) := by
  unfold execWgrowGrant; dsimp only; (repeat' split) <;> simp [h]

@[simp] theorem memoryOk_execWfuseTimeout {s : State} (h : s.MemoryOk) (group) : Ans.MemoryOk (execWfuseTimeout group s) := by
  unfold execWfuseTimeout; dsimp only; (repeat' split) <;> simp [h]

@[simp] theorem memoryOk_execXchgTimeout {s : State} (h : s.MemoryOk) (group) : Ans.MemoryOk (execXchgTimeout group s) := by
  unfold execXchgTimeout; dsimp only; (repeat' split) <;> simp [h]

@[simp] theorem memoryOk_execSyieldResume {s : State} (h : s.MemoryOk) (group) : Ans.MemoryOk (execSyieldResume group s) := by
  simp [execSyieldResume, h]

/-! ### Machine/MemEvents -/

@[simp] theorem State.memoryOk_touchHome (s : State) (r) : (s.touchHome r).MemoryOk ↔ s.MemoryOk := by
  simp [State.touchHome]

@[simp] theorem State.memoryOk_forward (s : State) (id r) : (s.forward id r).MemoryOk ↔ s.MemoryOk := by
  simp [State.forward]

@[simp] theorem State.MemoryOk.poisonBlock {s : State} (h : s.MemoryOk) (block point unit) : (s.poisonBlock block point unit).MemoryOk := by
  simp [State.poisonBlock, h.setTagsOf]

@[simp] theorem State.MemoryOk.showHost {s : State} (h : s.MemoryOk) (block) : (s.showHost block).MemoryOk := by
  simp [State.showHost, h]

@[simp] theorem State.MemoryOk.showBlocks {s : State} (h : s.MemoryOk) (pa n : Nat) : (s.showBlocks pa n).MemoryOk :=
  State.MemoryOk.foldl (fun _ b hs => hs.showHost b) _ s h

@[simp] theorem State.MemoryOk.serveLine {s : State} (h : s.MemoryOk) (r : Req) : (s.serveLine r).1.MemoryOk := by
  unfold State.serveLine
  split
  · exact h
  · exact State.MemoryOk.foldl (fun s b hs => hs.poisonBlock b 0 (s.group r.group).core) _ s h

@[simp] theorem State.memoryOk_renewReplies (s : State) (k line d t) : (s.renewReplies k line d t).MemoryOk ↔ s.MemoryOk := Iff.rfl

@[simp] theorem State.memoryOk_performPrefetch (s : State) (id r) : (s.performPrefetch id r).MemoryOk ↔ s.MemoryOk := by
  simp [State.performPrefetch]

@[simp] theorem State.MemoryOk.performRead {s : State} (h : s.MemoryOk) (id r) : (s.performRead id r).MemoryOk := by
  unfold State.performRead; dsimp only; (repeat' split) <;> simp [h]

@[simp] theorem memoryOk_execHomeRead {s : State} (h : s.MemoryOk) (slice req) : Ans.MemoryOk (execHomeRead slice req s) := by
  unfold execHomeRead; split <;> simp [h]

@[simp] theorem State.memoryOk_arriveFill (s : State) (id r) : (s.arriveFill id r).MemoryOk ↔ s.MemoryOk := by
  simp [State.arriveFill]

@[simp] theorem memoryOk_execL1Fill {s : State} (h : s.MemoryOk) (req) : Ans.MemoryOk (execL1Fill req s) := by
  unfold execL1Fill; split <;> simp [h]

@[simp] theorem State.memoryOk_visit (s : State) (r) : (s.visit r).MemoryOk ↔ s.MemoryOk := by
  simp [State.visit]

@[simp] theorem memoryOk_execVisitorFill {s : State} (h : s.MemoryOk) (req) : Ans.MemoryOk (execVisitorFill req s) := by
  unfold execVisitorFill; split <;> simp [h]

@[simp] theorem memoryOk_execL1WriteRequestSend {s : State} (h : s.MemoryOk) (l1 line group) :
    Ans.MemoryOk (execL1WriteRequestSend l1 line group s) := by
  unfold execL1WriteRequestSend; split <;> simp [h]

@[simp] theorem State.memoryOk_overlayReplies (s : State) (k line data mask tags tagMask) :
    (s.overlayReplies k line data mask tags tagMask).MemoryOk ↔ s.MemoryOk := Iff.rfl

@[simp] theorem State.MemoryOk.performWrite {s : State} (h : s.MemoryOk) (id : Nat) (r : Req) : (s.performWrite id r).MemoryOk := by
  have ht : (s.touchHome r).MemoryOk := by simpa using h
  unfold State.performWrite
  split
  · dsimp only
    split
    · simpa using h
    · split <;> simp [ht, ht.mergeHome]
  · exact h

@[simp] theorem memoryOk_execHomeWriteMerge {s : State} (h : s.MemoryOk) (slice req) : Ans.MemoryOk (execHomeWriteMerge slice req s) := by
  unfold execHomeWriteMerge; split <;> simp [h]

@[simp] theorem State.memoryOk_performPin (s : State) (id r) : (s.performPin id r).MemoryOk ↔ s.MemoryOk := by
  simp [State.performPin]

@[simp] theorem memoryOk_execPinRegistration {s : State} (h : s.MemoryOk) (slice req) : Ans.MemoryOk (execPinRegistration slice req s) := by
  unfold execPinRegistration; split <;> simp [h]

@[simp] theorem State.memoryOk_cleanLine (s : State) (id r mask tagMask) : (s.cleanLine id r mask tagMask).MemoryOk ↔ s.MemoryOk := by
  unfold State.cleanLine; dsimp only; (repeat' split) <;> simp

@[simp] theorem State.memoryOk_clearPin (s : State) (k line) : (s.clearPin k line).MemoryOk ↔ s.MemoryOk := by
  simp [State.clearPin]

@[simp] theorem State.memoryOk_arriveAck (s : State) (id r) : (s.arriveAck id r).MemoryOk ↔ s.MemoryOk := by
  unfold State.arriveAck; split <;> simp

@[simp] theorem memoryOk_execWriteAck {s : State} (h : s.MemoryOk) (req) : Ans.MemoryOk (execWriteAck req s) := by
  unfold execWriteAck; split <;> simp [h]

@[simp] theorem State.memoryOk_joinedResult (s : State) (a j poison) : (s.joinedResult a j poison).MemoryOk ↔ s.MemoryOk := by
  simp [State.joinedResult]

@[simp] theorem State.memoryOk_scalarResult (s : State) (id o) : (s.scalarResult id o).MemoryOk ↔ s.MemoryOk := by
  unfold State.scalarResult; dsimp only; (repeat' split) <;> simp

@[simp] theorem State.memoryOk_atomResult (s : State) (id r a o fell) : (s.atomResult id r a o fell).MemoryOk ↔ s.MemoryOk := by
  simp [State.atomResult]

@[simp] theorem State.memoryOk_skipAtomic (s : State) (id r a) : (s.skipAtomic id r a).MemoryOk ↔ s.MemoryOk := by
  simp [State.skipAtomic]

@[simp] theorem State.memoryOk_atomSeen (s : State) (id r a stored) : (s.atomSeen id r a stored).MemoryOk ↔ s.MemoryOk := by
  simp [State.atomSeen]

@[simp] theorem State.memoryOk_lostAtomic (s : State) (a) : (s.lostAtomic a).2.MemoryOk ↔ s.MemoryOk := Iff.rfl

@[simp] theorem State.MemoryOk.performAtomic {s : State} (h : s.MemoryOk) (id r a) : (s.performAtomic id r a).MemoryOk := by
  unfold State.performAtomic; dsimp only; (repeat' split) <;> simp [h]

@[simp] theorem memoryOk_execHomeAtomic {s : State} (h : s.MemoryOk) (slice req) : Ans.MemoryOk (execHomeAtomic slice req s) := by
  simp only [execHomeAtomic]; (repeat' split) <;> simp [h]

@[simp] theorem memoryOk_execRetryResend {s : State} (h : s.MemoryOk) (req) : Ans.MemoryOk (execRetryResend req s) := by
  unfold execRetryResend; split <;> simp [h]

@[simp] theorem State.memoryOk_drainEnd (s : State) (k group) : (s.drainEnd k group).MemoryOk ↔ s.MemoryOk := by
  simp [State.drainEnd]

@[simp] theorem memoryOk_execRacqDrainOrder {s : State} (h : s.MemoryOk) (group) : Ans.MemoryOk (execRacqDrainOrder group s) := by
  simp [execRacqDrainOrder, h]

@[simp] theorem memoryOk_execRacqDrainReply {s : State} (h : s.MemoryOk) (group) : Ans.MemoryOk (execRacqDrainReply group s) := by
  simp [execRacqDrainReply, h]

@[simp] theorem memoryOk_execSliceRequestService {s : State} (h : s.MemoryOk) (slice) : Ans.MemoryOk (execSliceRequestService slice s) := by
  simp [execSliceRequestService, h]

@[simp] theorem memoryOk_execSliceTokenRefill {s : State} (h : s.MemoryOk) (slice) : Ans.MemoryOk (execSliceTokenRefill slice s) := by
  simp [execSliceTokenRefill, h]

/-! ### Machine/EngineEvents -/

@[simp] theorem State.memoryOk_putScratch (s : State) (n at_ size v tag) : (s.putScratch n at_ size v tag).MemoryOk ↔ s.MemoryOk := Iff.rfl

@[simp] theorem State.memoryOk_dropHeld (s : State) (k pa n) : (s.dropHeld k pa n).MemoryOk ↔ s.MemoryOk := by
  unfold State.dropHeld; dsimp only; (repeat' split) <;> simp

@[simp] theorem State.MemoryOk.engineStore {s : State} (h : s.MemoryOk) (x : Actor) (pa size v : Nat) (tag : Tag) (tagged : Bool) :
    (s.engineStore x pa size v tag tagged).MemoryOk := by
  have hw := (h.hideFromHost pa size).writeMem pa (leBytes size v)
  unfold State.engineStore
  dsimp only
  (repeat' split) <;> simp [h, hw, hw.setWordTag]

/-- The state that a write of an engine answers, if it answers one, holds canonical memory. -/
def StoredOk (r : Except Moved State) : Prop := ∀ t, r = .ok t → t.MemoryOk

@[simp] theorem storedOk_ok {s : State} : StoredOk (.ok s) ↔ s.MemoryOk := by simp [StoredOk]

@[simp] theorem storedOk_error {m : Moved} : StoredOk (.error m) := by simp [StoredOk]

theorem State.MemoryOk.of_fst {α : Type} {p : State × α} {t : State} {x : α} (h : p.1.MemoryOk) (e : p = (t, x)) : t.MemoryOk := by
  rwa [e] at h

@[simp] theorem State.MemoryOk.engineWrite {s : State} (h : s.MemoryOk) (x : Actor) (space a size v : Nat) (tag : Tag) :
    StoredOk (s.engineWrite x space a size v tag) := by
  unfold State.engineWrite
  (repeat' split) <;> simp [h]

/-- A move keeps memory canonical when its write does. -/
theorem State.MemoryOk.moveElements {read : State → Nat → Moved} {write : State → Nat → Nat → Tag → Except Moved State}
    (hw : ∀ s i v t, s.MemoryOk → StoredOk (write s i v t)) (word : Nat → Option Nat) (bad : List Nat) (n i : Nat) {s : State}
    (h : s.MemoryOk) : (s.moveElements read write word bad n i).1.MemoryOk := by
  induction n generalizing s bad i with
  | zero => exact h
  | succ n ih =>
    unfold State.moveElements
    split
    · exact h
    · exact h
    · dsimp only
      split
      · exact h
      · exact h
      · next t ht => exact ih _ _ (hw _ _ _ _ h t ht)

@[simp] theorem State.memoryOk_lock (s : State) (table cmd ctx r write) : (s.lock table cmd ctx r write).MemoryOk ↔ s.MemoryOk := by
  unfold State.lock; dsimp only; (repeat' split) <;> simp

@[simp] theorem State.memoryOk_unlock (s : State) (cmd) : (s.unlock cmd).MemoryOk ↔ s.MemoryOk := Iff.rfl

@[simp] theorem State.MemoryOk.copyWrite {s : State} (h : s.MemoryOk) (c : CopyCmd) (i v : Nat) (t : Tag) :
    StoredOk (s.copyWrite c i v t) := by
  unfold State.copyWrite
  dsimp only
  (repeat' split) <;> simp [h]

@[simp] theorem State.MemoryOk.runCopy {s : State} (h : s.MemoryOk) (c : CopyCmd) (n : Nat) : (s.runCopy c n).1.MemoryOk := by
  unfold State.runCopy
  split
  · exact h
  · exact h.moveElements (fun s i v t hs => hs.copyWrite c i v t) ..

@[simp] theorem State.MemoryOk.engineFault {s : State} (h : s.MemoryOk) (e) : (s.engineFault e).MemoryOk := by
  unfold State.engineFault; split <;> simp [h]

@[simp] theorem State.MemoryOk.readSource {s : State} (h : s.MemoryOk) (c) : (s.readSource c).1.MemoryOk := by
  unfold State.readSource; dsimp only; (repeat' split) <;> simp [h]

@[simp] theorem State.memoryOk_register (s : State) (id c) : (s.register id c).MemoryOk ↔ s.MemoryOk := by
  simp [State.register]

@[simp] theorem State.memoryOk_startCopy (s : State) (k c) : (s.startCopy k c).MemoryOk ↔ s.MemoryOk := by
  simp [State.startCopy]

@[simp] theorem memoryOk_execCopyCommandStart {s : State} (h : s.MemoryOk) (group) : Ans.MemoryOk (execCopyCommandStart group s) := by
  unfold execCopyCommandStart; dsimp only; (repeat' split) <;> simp [h]

@[simp] theorem State.memoryOk_setCopyCmd (s : State) (id c) : (s.setCopyCmd id c).MemoryOk ↔ s.MemoryOk := Iff.rfl

@[simp] theorem State.memoryOk_serveLaunch (s : State) (key n) : (s.serveLaunch key n).MemoryOk ↔ s.MemoryOk := by
  unfold State.serveLaunch; split <;> simp

@[simp] theorem State.memoryOk_finishCopy (s : State) (id c sticky) : (s.finishCopy id c sticky).MemoryOk ↔ s.MemoryOk := by
  simp [State.finishCopy]

@[simp] theorem State.MemoryOk.completeCopy {s : State} (h : s.MemoryOk) (id : Nat) (c : CopyCmd) : (s.completeCopy id c).MemoryOk := by
  unfold State.completeCopy
  split
  · next t ht =>
    have := (h.runCopy c c.total).of_fst ht
    (repeat' split) <;> simpa using this
  · next t _ _ ht => simp [(h.runCopy c c.total).of_fst ht]

@[simp] theorem State.MemoryOk.moveElement {s : State} (h : s.MemoryOk) (id : Nat) : (s.moveElement id).MemoryOk := by
  unfold State.moveElement
  split
  · next c _ =>
    split
    · exact h
    · split
      · next t ht => simpa using (h.runCopy c 1).of_fst ht
      · exact h
  · exact h

@[simp] theorem memoryOk_execEngineCommandComplete {s : State} (h : s.MemoryOk) (cmd) : Ans.MemoryOk (execEngineCommandComplete cmd s) := by
  unfold execEngineCommandComplete; split <;> simp [h]

@[simp] theorem State.memoryOk_pushCopy (s : State) (id c handle q binding) : (s.pushCopy id c handle q binding).MemoryOk ↔ s.MemoryOk := by
  unfold State.pushCopy; split <;> simp

@[simp] theorem memoryOk_execCpyqPush {s : State} (h : s.MemoryOk) (cmd) : Ans.MemoryOk (execCpyqPush cmd s) := by
  simp only [execCpyqPush]; (repeat' split) <;> simp [h]

@[simp] theorem State.memoryOk_markLost (s : State) (launch core q) : (s.markLost launch core q).MemoryOk ↔ s.MemoryOk := by
  unfold State.markLost; split <;> simp

@[simp] theorem State.MemoryOk.landElements {s : State} (h : s.MemoryOk) (x : Actor) (t : Tensor) (els : List (Nat × Tag)) (i : Nat) :
    (s.landElements x t els i).1.MemoryOk := by
  induction els generalizing s i with
  | nil => exact h
  | cons el els ih =>
    unfold State.landElements
    split
    · next u hu => exact ih (h.engineWrite _ _ _ _ _ _ u hu) _
    · exact h

@[simp] theorem State.memoryOk_nackDelivery (s : State) (id c cluster core q) :
    (s.nackDelivery id c cluster core q).MemoryOk ↔ s.MemoryOk := by
  simp [State.nackDelivery]

@[simp] theorem State.MemoryOk.landSome {s : State} (h : s.MemoryOk) (id : Nat) (c : CopyCmd) (cluster core binding from_ n : Nat) :
    (s.landSome id c cluster core binding from_ n).MemoryOk := by
  have hl := h.landElements { c.actor s with core := core } (tensorOf c.zd) (((c.data.getD []).drop from_).take n) from_
  unfold State.landSome
  split
  · next t ht => simpa using hl.of_fst ht
  · next t _ ht => simpa using hl.of_fst ht

@[simp] theorem State.memoryOk_openDelivery (s : State) (id c cluster core q) :
    (s.openDelivery id c cluster core q).MemoryOk ↔ s.MemoryOk := by
  unfold State.openDelivery; dsimp only; (repeat' split) <;> simp

@[simp] theorem State.MemoryOk.beginDelivery {s : State} (h : s.MemoryOk) (id c cluster core q) :
    (s.beginDelivery id c cluster core q).MemoryOk := by
  simp [State.beginDelivery, h]

@[simp] theorem State.MemoryOk.endDelivery {s : State} (h : s.MemoryOk) (id cluster core q handle) :
    (s.endDelivery id cluster core q handle).MemoryOk := by
  unfold State.endDelivery; dsimp only; (repeat' split) <;> simp [h]

@[simp] theorem State.MemoryOk.deliver {s : State} (h : s.MemoryOk) (id c cluster core q handle) :
    (s.deliver id c cluster core q handle).MemoryOk := by
  simp [State.deliver, h]

@[simp] theorem State.memoryOk_deliverAgain (s : State) (id c cluster core q handle binding) :
    (s.deliverAgain id c cluster core q handle binding).MemoryOk ↔ s.MemoryOk := by
  unfold State.deliverAgain; split <;> simp

@[simp] theorem State.MemoryOk.moveDelivery {s : State} (h : s.MemoryOk) (id cluster) : (s.moveDelivery id cluster).MemoryOk := by
  simp only [State.moveDelivery]; (repeat' split) <;> simp [h]

@[simp] theorem memoryOk_execMcastDelivery {s : State} (h : s.MemoryOk) (cmd cluster) : Ans.MemoryOk (execMcastDelivery cmd cluster s) := by
  simp only [execMcastDelivery]; (repeat' split) <;> simp [h]

@[simp] theorem State.memoryOk_completeMcast (s : State) (id c at_) : (s.completeMcast id c at_).MemoryOk ↔ s.MemoryOk := by
  unfold State.completeMcast; dsimp only; (repeat' split) <;> simp

@[simp] theorem memoryOk_execMcastComplete {s : State} (h : s.MemoryOk) (cmd) : Ans.MemoryOk (execMcastComplete cmd s) := by
  simp only [execMcastComplete]; (repeat' split) <;> simp [h]

/-! ### Machine/FabricEvents -/

@[simp] theorem State.memoryOk_wakeFabric (s : State) : (s.wakeFabric).MemoryOk ↔ s.MemoryOk := Iff.rfl

@[simp] theorem State.MemoryOk.showRange {s : State} (h : s.MemoryOk) (x : Actor) (va n : Nat) : (s.showRange x va n).MemoryOk := by
  refine State.MemoryOk.foldl (fun s i hs => ?_) _ s h
  dsimp only
  split
  · exact hs.showBlocks ..
  · exact hs

@[simp] theorem State.MemoryOk.raiseSignal {s : State} (h : s.MemoryOk) (e : Landing) (off n g : Nat) :
    (s.raiseSignal e off n g).MemoryOk := by
  have hs : (s.showRange (s.landActor e) ((e.base + off) % 2 ^ 64) n).MemoryOk := h.showRange ..
  unfold State.raiseSignal
  dsimp only
  split
  · exact hs.engineStore ..
  · exact hs

@[simp] theorem State.MemoryOk.landWrite {s : State} (h : s.MemoryOk) (e : Landing) (off esize i v : Nat) (t : Tag) :
    StoredOk (s.landWrite e off esize i v t) :=
  h.engineWrite _ _ _ _ _ _

@[simp] theorem State.MemoryOk.logEgress {s : State} (h : s.MemoryOk) (pas : List Nat) (port : Nat) : (s.logEgress pas port).MemoryOk :=
  State.MemoryOk.foldl (fun _ _ hs => hs.logError ..) _ s h

@[simp] theorem State.MemoryOk.logSince {s : State} (h : s.MemoryOk) (p : Past) (pas : List Nat) : (s.logSince p pas).MemoryOk :=
  State.MemoryOk.foldl (fun _ _ hs => hs.logError ..) _ s h

@[simp] theorem State.MemoryOk.startFab {s : State} (h : s.MemoryOk) (k c) : (s.startFab k c).MemoryOk := by
  simp [State.startFab, h]

@[simp] theorem memoryOk_execFabricCommandStart {s : State} (h : s.MemoryOk) (group) : Ans.MemoryOk (execFabricCommandStart group s) := by
  unfold execFabricCommandStart; dsimp only; (repeat' split) <;> simp [h]

@[simp] theorem State.memoryOk_finishFab (s : State) (id c status) : (s.finishFab id c status).MemoryOk ↔ s.MemoryOk := by
  simp [State.finishFab]

@[simp] theorem State.MemoryOk.loopBack {s : State} (h : s.MemoryOk) (c : FabCmd) : (s.loopBack c).1.MemoryOk := by
  unfold State.loopBack
  extract_lets t e off x out
  split
  · simp [h]
  · have ho : out.1.MemoryOk := by
      unfold out
      split
      · exact State.MemoryOk.moveElements (fun s i v t hs => hs.engineWrite _ _ _ _ _ _) _ _ _ _ (h.logEgress ..)
      · exact State.MemoryOk.moveElements (fun s i v t hs => hs.landWrite _ _ _ _ _ _) _ _ _ _ (h.logSince ..)
    clear_value out
    obtain ⟨u, why⟩ := out
    replace ho : u.MemoryOk := ho
    cases why with
    | ok => dsimp only; split <;> simp [ho]
    | fault _ _ _ _ => simp [ho]
    | bad => simp [ho]

@[simp] theorem State.MemoryOk.placeReply {s : State} (h : s.MemoryOk) (c : FabCmd) (r : FabricReply) : (s.placeReply c r).1.MemoryOk := by
  unfold State.placeReply
  extract_lets t x
  split
  · next u hu => exact (h.moveElements (fun s i v t hs => hs.engineWrite _ _ _ _ _ _) ..).of_fst hu
  · next u _ _ hu => simp [(h.moveElements (fun s i v t hs => hs.engineWrite _ _ _ _ _ _) ..).of_fst hu]

@[simp] theorem State.MemoryOk.endTransfer {s : State} (h : s.MemoryOk) (c : FabCmd) (r : FabricReply) :
    (s.endTransfer c r).1.MemoryOk := by
  unfold State.endTransfer
  dsimp only
  split
  · exact h
  · split
    · exact h.loopBack c
    · split
      · split
        · exact h.placeReply c r
        · exact h
      · split
        · exact h
        · exact h.engineFault _

@[simp] theorem memoryOk_execFabricCommandComplete {s : State} (h : s.MemoryOk) (cmd reply) :
    Ans.MemoryOk (execFabricCommandComplete cmd reply s) := by
  unfold execFabricCommandComplete; split <;> simp [h]

@[simp] theorem State.memoryOk_noteBrought (s : State) (e p) : (s.noteBrought e p).MemoryOk ↔ s.MemoryOk := Iff.rfl

@[simp] theorem State.MemoryOk.receive {s : State} (h : s.MemoryOk) (p : Packet) : (s.receive p).MemoryOk := by
  unfold State.receive
  dsimp only
  split
  · exact h.engineFault _
  · split
    · have hu := h.logEgress (s.tensorPas (s.landActor (s.landing p.region.toNat))
        ((s.landing p.region.toNat).tensor p.offset p.esize (p.readLen / p.esize))) ((s.route p.source.toNat).getD 0)
      split
      · exact hu
      · exact hu.engineFault _
    · split
      · next u hu =>
        have hu := (h.moveElements (fun s i v t hs => hs.landWrite _ _ _ _ _ _) ..).of_fst hu
        (repeat' split) <;> simp [hu]
      · next u _ _ hu => simp [(h.moveElements (fun s i v t hs => hs.landWrite _ _ _ _ _ _) ..).of_fst hu]

@[simp] theorem memoryOk_execFabricPacketReceive {s : State} (h : s.MemoryOk) (packet) :
    Ans.MemoryOk (execFabricPacketReceive packet s) := by
  simp [execFabricPacketReceive, h]

@[simp] theorem State.MemoryOk.collEgress {s : State} (h : s.MemoryOk) (c : CollCmd) : (s.collEgress c).MemoryOk := by
  refine State.MemoryOk.foldl (fun s r hs => ?_) _ s h
  split
  · split
    · exact hs
    · exact hs.logEgress ..
  · exact hs

@[simp] theorem State.memoryOk_setCollCmd (s : State) (id c) : (s.setCollCmd id c).MemoryOk ↔ s.MemoryOk := Iff.rfl

@[simp] theorem State.MemoryOk.startColl {s : State} (h : s.MemoryOk) (k c) : (s.startColl k c).MemoryOk := by
  unfold State.startColl; dsimp only; (repeat' split) <;> simp [h]

@[simp] theorem memoryOk_execCollCommandStart {s : State} (h : s.MemoryOk) (group) : Ans.MemoryOk (execCollCommandStart group s) := by
  unfold execCollCommandStart; dsimp only; (repeat' split) <;> simp [h]

@[simp] theorem State.MemoryOk.landBytes {s : State} (h : s.MemoryOk) (set : Nat) (e : CollSet) (l : Landing) (seq : BitVec 32)
    (rank : Nat) (bs : List Byte) (ts : List Tag) : (s.landBytes set e l seq rank bs ts).1.MemoryOk := by
  have hw : s.wakeFabric.MemoryOk := by simpa using h
  unfold State.landBytes
  extract_lets x at_
  split
  · next u hu =>
    have hu := (hw.moveElements (fun s i v t hs => hs.engineWrite _ _ _ _ _ _) ..).of_fst hu
    dsimp only
    split <;> simp [hu]
  · next u _ _ hu => simp [(hw.moveElements (fun s i v t hs => hs.engineWrite _ _ _ _ _ _) ..).of_fst hu]

@[simp] theorem State.MemoryOk.contribute {s : State} (h : s.MemoryOk) (set : Nat) (e : CollSet) (l : Landing) (id : Nat) (c : CollCmd) :
    (s.contribute set e l id c).MemoryOk := by
  unfold State.contribute
  extract_lets fails t u
  have hu : u.MemoryOk := h.logSince ..
  split
  · simpa [fails] using h
  · split
    · next els _ =>
      dsimp only
      split
      · next v hv => exact (hu.landBytes ..).of_fst hv
      · next v _ _ hv => simpa [fails] using (hu.landBytes ..).of_fst hv
    · simp [fails, hu]

@[simp] theorem memoryOk_execCollContributionReceive {s : State} (h : s.MemoryOk) (set seq rank data) :
    Ans.MemoryOk (execCollContributionReceive set seq rank data s) := by
  unfold execCollContributionReceive; dsimp only; (repeat' split) <;> simp [h]

@[simp] theorem State.memoryOk_finishColl (s : State) (id c status) : (s.finishColl id c status).MemoryOk ↔ s.MemoryOk := by
  simp [State.finishColl]

@[simp] theorem State.MemoryOk.completeColl {s : State} (h : s.MemoryOk) (id : Nat) (c : CollCmd) : (s.completeColl id c).MemoryOk := by
  unfold State.completeColl
  extract_lets e l d x
  split
  · next u hu => simpa using (h.moveElements (fun s i v t hs => hs.engineWrite _ _ _ _ _ _) ..).of_fst hu
  · next u _ _ hu => simp [(h.moveElements (fun s i v t hs => hs.engineWrite _ _ _ _ _ _) ..).of_fst hu]

@[simp] theorem memoryOk_execCollInstanceComplete {s : State} (h : s.MemoryOk) (cmd) : Ans.MemoryOk (execCollInstanceComplete cmd s) := by
  simp only [execCollInstanceComplete]; (repeat' split) <;> simp [h]

@[simp] theorem memoryOk_execCollAbortReceive {s : State} (h : s.MemoryOk) (set seq nack) :
    Ans.MemoryOk (execCollAbortReceive set seq nack s) := by
  unfold execCollAbortReceive; dsimp only; (repeat' split) <;> simp [h]

/-! ### Machine/Placement -/

@[simp] theorem State.memoryOk_setFusion (s : State) (cluster fused) : (s.setFusion cluster fused).MemoryOk ↔ s.MemoryOk := by
  unfold State.setFusion; split <;> simp

@[simp] theorem State.memoryOk_openCore (s : State) (core r) : (s.openCore core r).MemoryOk ↔ s.MemoryOk := by
  simp [State.openCore]

@[simp] theorem State.memoryOk_runContext (s : State) (p ctx) : (s.runContext p ctx).MemoryOk ↔ s.MemoryOk := Iff.rfl

/-! ### Machine/Preempt -/

@[simp] theorem State.memoryOk_putAway (s : State) (k g v) : (s.putAway k g v).MemoryOk ↔ s.MemoryOk := by
  unfold State.putAway; dsimp only; (repeat' split) <;> simp

@[simp] theorem State.memoryOk_trySave (s : State) (k) : (s.trySave k).MemoryOk ↔ s.MemoryOk := by
  unfold State.trySave; dsimp only; (repeat' split) <;> simp

@[simp] theorem State.memoryOk_servePreempt (s : State) (k) : (s.servePreempt k).MemoryOk ↔ s.MemoryOk := by
  simp [State.servePreempt]

@[simp] theorem State.memoryOk_askPreempt (s : State) (k behind) : (s.askPreempt k behind).MemoryOk ↔ s.MemoryOk := by
  simp [State.askPreempt]

@[simp] theorem memoryOk_execPreemptionRequest {s : State} (h : s.MemoryOk) (group) : Ans.MemoryOk (execPreemptionRequest group s) := by
  simp [execPreemptionRequest, h]

@[simp] theorem memoryOk_execTenantTimeout {s : State} (h : s.MemoryOk) (group) : Ans.MemoryOk (execTenantTimeout group s) := by
  unfold execTenantTimeout; dsimp only; (repeat' split) <;> simp [h]

@[simp] theorem State.memoryOk_refill (s : State) (g v) : (s.refill g v).MemoryOk ↔ s.MemoryOk := Iff.rfl

@[simp] theorem State.memoryOk_bringBack (s : State) (k g v place base) : (s.bringBack k g v place base).MemoryOk ↔ s.MemoryOk := by
  unfold State.bringBack; dsimp only; (repeat' split) <;> simp

@[simp] theorem memoryOk_execGroupRestore {s : State} (h : s.MemoryOk) (group) : Ans.MemoryOk (execGroupRestore group s) := by
  unfold execGroupRestore; dsimp only; (repeat' split) <;> simp [h]

@[simp] theorem State.memoryOk_saveCast (s : State) (launch l c) : (s.saveCast launch l c).MemoryOk ↔ s.MemoryOk := by
  simp [State.saveCast]

@[simp] theorem State.memoryOk_relock (s : State) (launch) : (s.relock launch).MemoryOk ↔ s.MemoryOk := by
  simp [State.relock]

@[simp] theorem State.memoryOk_placeCast (s : State) (launch l c v scratch frame) :
    (s.placeCast launch l c v scratch frame).MemoryOk ↔ s.MemoryOk := by
  simp [State.placeCast]

@[simp] theorem memoryOk_execCastRestore {s : State} (h : s.MemoryOk) (launch core) : Ans.MemoryOk (execCastRestore launch core s) := by
  unfold execCastRestore; dsimp only; (repeat' split) <;> simp [h]

@[simp] theorem memoryOk_execWgrowDeadlockPreempt {s : State} (h : s.MemoryOk) (core) : Ans.MemoryOk (execWgrowDeadlockPreempt core s) := by
  unfold execWgrowDeadlockPreempt; split <;> simp [h]

/-! ### Machine/Launches -/

@[simp] theorem State.MemoryOk.deviceStore {s : State} (h : s.MemoryOk) (ctx part va bs) : (s.deviceStore ctx part va bs).MemoryOk := by
  unfold State.deviceStore; split <;> simp [h, h.deviceWrite]

@[simp] theorem State.MemoryOk.writeEvent {s : State} (h : s.MemoryOk) (p e status t energy) :
    (s.writeEvent p e status t energy).MemoryOk := by
  simp [State.writeEvent, h, h.deviceWrite]

@[simp] theorem State.memoryOk_setWorkQueue (s : State) (q w) : (s.setWorkQueue q w).MemoryOk ↔ s.MemoryOk := Iff.rfl

@[simp] theorem State.memoryOk_announce (s : State) (q t) : (s.announce q t).MemoryOk ↔ s.MemoryOk := by
  simp [State.announce]

@[simp] theorem memoryOk_execNotifyStore {s : State} (h : s.MemoryOk) (queue t) : Ans.MemoryOk (execNotifyStore queue t s) := by
  simp [execNotifyStore, h]

@[simp] theorem State.memoryOk_turnSlot (s : State) (slot) : (s.turnSlot slot).MemoryOk ↔ s.MemoryOk := Iff.rfl

@[simp] theorem memoryOk_execCallboardSlotRelease {s : State} (h : s.MemoryOk) (slot) : Ans.MemoryOk (execCallboardSlotRelease slot s) := by
  simp [execCallboardSlotRelease, h]

@[simp] theorem State.MemoryOk.passHead {s : State} (h : s.MemoryOk) (q d) : (s.passHead q d).MemoryOk := by
  simp [State.passHead, h]

@[simp] theorem State.memoryOk_openCast (s : State) (launch r qs c) : (s.openCast launch r qs c).2.MemoryOk ↔ s.MemoryOk := by
  unfold State.openCast; split <;> simp

@[simp] theorem State.memoryOk_openLaunch (s : State) (q : Nat) (d : QueueDesc) (r : LaunchRecord) (cores : List Nat) :
    (s.openLaunch q d r cores).2.MemoryOk ↔ s.MemoryOk := by
  simp [State.openLaunch]

@[simp] theorem State.memoryOk_startGroup (s : State) (key l t c place base) :
    (s.startGroup key l t c place base).MemoryOk ↔ s.MemoryOk := by
  simp [State.startGroup]

@[simp] theorem State.memoryOk_dispatchOne (s : State) (key) : (s.dispatchOne key).MemoryOk ↔ s.MemoryOk := by
  unfold State.dispatchOne; dsimp only; (repeat' split) <;> simp

@[simp] theorem memoryOk_execGroupDispatch {s : State} (h : s.MemoryOk) (launch) : Ans.MemoryOk (execGroupDispatch launch s) := by
  simp [execGroupDispatch, h]

@[simp] theorem State.memoryOk_dispatchAll (s : State) (key n : Nat) : (s.dispatchAll key n).MemoryOk ↔ s.MemoryOk := by
  induction n generalizing s with
  | zero => rfl
  | succ n ih => exact (ih _).trans (s.memoryOk_dispatchOne key)

@[simp] theorem State.MemoryOk.carryOut {s : State} (h : s.MemoryOk) (q : Nat) (d : QueueDesc) (r : LaunchRecord) (v : Verdict) :
    (s.carryOut q d r v).MemoryOk := by
  unfold State.carryOut
  split <;> simp [h]

@[simp] theorem memoryOk_execLaunchAdmit {s : State} (h : s.MemoryOk) : Ans.MemoryOk (execLaunchAdmit s) := by
  unfold execLaunchAdmit; dsimp only; (repeat' split) <;> simp [h]

@[simp] theorem State.memoryOk_dropCommands (s : State) (key) : (s.dropCommands key).MemoryOk ↔ s.MemoryOk := by
  simp [State.dropCommands]

@[simp] theorem State.memoryOk_cleanDie (s : State) (key : Nat) : (s.cleanDie key).MemoryOk ↔ s.MemoryOk := by
  unfold State.cleanDie
  extract_lets ks t
  clear_value ks
  have ht : t.MemoryOk ↔ s.MemoryOk := by
    refine State.memoryOk_foldl (fun s k => ?_) _ s
    split <;> simp
  exact ht

@[simp] theorem State.MemoryOk.finishLaunch {s : State} (h : s.MemoryOk) (key : Nat) (l : Launch) : (s.finishLaunch key l).MemoryOk := by
  simp [State.finishLaunch, h]

@[simp] theorem memoryOk_execLaunchComplete {s : State} (h : s.MemoryOk) (launch) : Ans.MemoryOk (execLaunchComplete launch s) := by
  unfold execLaunchComplete; dsimp only; (repeat' split) <;> simp [h]

/-! ### Machine/Schedule -/

@[simp] theorem memoryOk_execSchedulerRotation {s : State} (h : s.MemoryOk) (launch) : Ans.MemoryOk (execSchedulerRotation launch s) := by
  simp only [execSchedulerRotation]; (repeat' split) <;> simp [h]

@[simp] theorem memoryOk_execAdmissionPreempt {s : State} (h : s.MemoryOk) (queue) : Ans.MemoryOk (execAdmissionPreempt queue s) := by
  unfold execAdmissionPreempt; dsimp only; (repeat' split) <;> simp [h]

@[simp] theorem memoryOk_execCastSave {s : State} (h : s.MemoryOk) (launch core) : Ans.MemoryOk (execCastSave launch core s) := by
  unfold execCastSave; split <;> simp [h]

@[simp] theorem State.memoryOk_clearPartition (s : State) (p) : (s.clearPartition p).MemoryOk ↔ s.MemoryOk := by
  simp [State.clearPartition]

@[simp] theorem memoryOk_execContextTimeSlice {s : State} (h : s.MemoryOk) (partition) :
    Ans.MemoryOk (execContextTimeSlice partition s) := by
  unfold execContextTimeSlice; split <;> simp [h]

@[simp] theorem State.memoryOk_setPart (s : State) (p x) : (s.setPart p x).MemoryOk ↔ s.MemoryOk := Iff.rfl

@[simp] theorem memoryOk_execPartitionPause {s : State} (h : s.MemoryOk) (partition) : Ans.MemoryOk (execPartitionPause partition s) := by
  simp [execPartitionPause, h]

@[simp] theorem State.memoryOk_resumePartition (s : State) (p floor) : (s.resumePartition p floor).MemoryOk ↔ s.MemoryOk := by
  simp [State.resumePartition]

@[simp] theorem memoryOk_execLaunchKill {s : State} (h : s.MemoryOk) (launch) : Ans.MemoryOk (execLaunchKill launch s) := by
  simp [execLaunchKill, h]

@[simp] theorem State.MemoryOk.closeLanding {s : State} (h : s.MemoryOk) (i) : (s.closeLanding i).MemoryOk := by
  simp [State.closeLanding, h.deviceWrite]

@[simp] theorem State.memoryOk_abortContext (s : State) (ctx) : (s.abortContext ctx).MemoryOk ↔ s.MemoryOk := Iff.rfl

@[simp] theorem memoryOk_execContextTeardown {s : State} (h : s.MemoryOk) (context : Nat) :
    Ans.MemoryOk (execContextTeardown context s) := by
  refine Ans.memoryOk_next.mpr ((State.memoryOk_abortContext _ _).mpr (State.MemoryOk.foldl (fun s i hs => ?_) _ _
    (State.MemoryOk.foldl (fun s x hs => ?_) _ s h)))
  · split
    · exact hs.closeLanding i
    · exact hs
  · split
    · exact (s.memoryOk_endLaunch ..).mpr hs
    · exact hs

/-! ### Machine/Failures -/

@[simp] theorem State.memoryOk_recordFailure (s : State) (step unit action) :
    (s.recordFailure step unit action).MemoryOk ↔ s.MemoryOk := Iff.rfl

@[simp] theorem State.memoryOk_failLaunches (s : State) (p) : (s.failLaunches p).MemoryOk ↔ s.MemoryOk := by
  simp [State.failLaunches]

@[simp] theorem State.MemoryOk.logFirst {s : State} (h : s.MemoryOk) (point unit pa) : (s.logFirst point unit pa).MemoryOk := by
  simp [State.logFirst, h]

@[simp] theorem State.MemoryOk.failSector {s : State} (h : s.MemoryOk) (half) : (s.failSector half).MemoryOk := by
  simp [State.failSector, h]

@[simp] theorem State.MemoryOk.overThreshold {s : State} (h : s.MemoryOk) (k) : (s.overThreshold k).MemoryOk := by
  simp [State.overThreshold, h]

@[simp] theorem State.MemoryOk.countSlice {s : State} (h : s.MemoryOk) (k) : (s.countSlice k).MemoryOk := by
  simp [State.countSlice, h]

@[simp] theorem memoryOk_execCorrectedError {s : State} (h : s.MemoryOk) (point unit pa) :
    Ans.MemoryOk (execCorrectedError point unit pa s) := by
  unfold execCorrectedError; split <;> simp [h]

@[simp] theorem memoryOk_execErrorCountInterval {s : State} (h : s.MemoryOk) (slice) : Ans.MemoryOk (execErrorCountInterval slice s) := by
  simp [execErrorCountInterval, h]

@[simp] theorem State.memoryOk_moveBuckets (s : State) (k) : (s.moveBuckets k).MemoryOk ↔ s.MemoryOk := Iff.rfl

@[simp] theorem State.memoryOk_release1 (s : State) (id) : (s.release1 id).MemoryOk ↔ s.MemoryOk := by
  unfold State.release1; split <;> simp

@[simp] theorem State.memoryOk_goDark (s : State) (k) : (s.goDark k).MemoryOk ↔ s.MemoryOk := by
  simp [State.goDark]

@[simp] theorem memoryOk_execSliceMoveComplete {s : State} (h : s.MemoryOk) (slice) : Ans.MemoryOk (execSliceMoveComplete slice s) := by
  simp [execSliceMoveComplete, h]

@[simp] theorem State.memoryOk_poisonL1 (s : State) (core pa) : (s.poisonL1 core pa).MemoryOk ↔ s.MemoryOk := by
  unfold State.poisonL1; dsimp only; (repeat' split) <;> simp

@[simp] theorem memoryOk_execUncorrectableError {s : State} (h : s.MemoryOk) (site) : Ans.MemoryOk (execUncorrectableError site s) := by
  unfold execUncorrectableError; split <;> simp [h, h.poisonHome, h.behindCheck, h.setByte, h.setWordTag]

@[simp] theorem memoryOk_execStackFailure {s : State} (h : s.MemoryOk) (stack) : Ans.MemoryOk (execStackFailure stack s) := by
  simp [execStackFailure, h]

@[simp] theorem memoryOk_execLinkFailure {s : State} (h : s.MemoryOk) : Ans.MemoryOk (execLinkFailure s) := by
  simp [execLinkFailure, h]

@[simp] theorem memoryOk_execSectorFailure {s : State} (h : s.MemoryOk) (sector) : Ans.MemoryOk (execSectorFailure sector s) := by
  simp [execSectorFailure, h]

@[simp] theorem State.memoryOk_releasePartners (s : State) (launch cluster : Nat) :
    (s.releasePartners launch cluster).MemoryOk ↔ s.MemoryOk := by
  refine State.memoryOk_foldl (fun s x => ?_) _ s
  split
  · split <;> simp
  · rfl

@[simp] theorem memoryOk_execIslandFault {s : State} (h : s.MemoryOk) (cluster) : Ans.MemoryOk (execIslandFault cluster s) := by
  simp [execIslandFault, h]

@[simp] theorem memoryOk_execFlitResend {s : State} (h : s.MemoryOk) (port ok) : Ans.MemoryOk (execFlitResend port ok s) := by
  simp [execFlitResend, h]

@[simp] theorem memoryOk_execFabricComplexFailure {s : State} (h : s.MemoryOk) : Ans.MemoryOk (execFabricComplexFailure s) := by
  simp [execFabricComplexFailure, h]

/-! ### Machine/Power -/

@[simp] theorem memoryOk_execPowerLimitUpdate {s : State} (h : s.MemoryOk) (cluster limit move) :
    Ans.MemoryOk (execPowerLimitUpdate cluster limit move s) := by
  simp [execPowerLimitUpdate, h]

@[simp] theorem memoryOk_execFadeStep {s : State} (h : s.MemoryOk) (launch) : Ans.MemoryOk (execFadeStep launch s) := by
  unfold execFadeStep; split <;> simp [h]

@[simp] theorem memoryOk_execEnergyUpdate {s : State} (h : s.MemoryOk) (meters) : Ans.MemoryOk (execEnergyUpdate meters s) := by
  simp [execEnergyUpdate, h]

@[simp] theorem memoryOk_execRouterPowerDown {s : State} (h : s.MemoryOk) (router) : Ans.MemoryOk (execRouterPowerDown router s) := by
  simp [execRouterPowerDown, h]

@[simp] theorem memoryOk_execRouterWake {s : State} (h : s.MemoryOk) (router) : Ans.MemoryOk (execRouterWake router s) := by
  simp [execRouterWake, h]

/-! ### Machine/Boot -/

@[simp] theorem State.memoryOk_haltAt (s : State) (step) : (s.haltAt step).MemoryOk ↔ s.MemoryOk := Iff.rfl

@[simp] theorem State.memoryOk_failUnit (s : State) (step unit) : (s.failUnit step unit).MemoryOk ↔ s.MemoryOk := Iff.rfl

@[simp] theorem State.memoryOk_testUnits (s : State) (failures step count) : (s.testUnits failures step count).MemoryOk ↔ s.MemoryOk := by
  simp [State.testUnits]

@[simp] theorem State.memoryOk_darkenSlices (s : State) : (s.darkenSlices).MemoryOk ↔ s.MemoryOk := by
  simp [State.darkenSlices]

@[simp] theorem State.memoryOk_train (s : State) (failures) : (s.train failures).MemoryOk ↔ s.MemoryOk := by
  simp [State.train]

@[simp] theorem State.memoryOk_bootSteps (s : State) (failures) : (s.bootSteps failures).MemoryOk ↔ s.MemoryOk := by
  simp [State.bootSteps]

@[simp] theorem memoryOk_execDeviceStart {s : State} (h : s.MemoryOk) (failures) : Ans.MemoryOk (execDeviceStart failures s) := by
  simp [execDeviceStart, h, h.restart]

@[simp] theorem memoryOk_execFsrclr {s : State} (h : s.MemoryOk) : Ans.MemoryOk (execFsrclr s) := by
  simp [execFsrclr, h]

@[simp] theorem memoryOk_execFeatenWrite {s : State} (h : s.MemoryOk) (mask) : Ans.MemoryOk (execFeatenWrite mask s) := by
  simp [execFeatenWrite, h]

@[simp] theorem memoryOk_execImgctlGo {s : State} (h : s.MemoryOk) : Ans.MemoryOk (execImgctlGo s) := by
  simp [execImgctlGo, h]

@[simp] theorem memoryOk_execAttctlGo {s : State} (h : s.MemoryOk) : Ans.MemoryOk (execAttctlGo s) := by
  simp [execAttctlGo, h.deviceWrite]

/-! ### Machine/HostRegs -/

@[simp] theorem memoryOk_execInvctlGo {s : State} (h : s.MemoryOk) : Ans.MemoryOk (execInvctlGo s) := by
  simp [execInvctlGo, h]

@[simp] theorem memoryOk_execInvalidationDone {s : State} (h : s.MemoryOk) : Ans.MemoryOk (execInvalidationDone s) := by
  simp [execInvalidationDone, h]

@[simp] theorem State.memoryOk_answerGroup (s : State) (k verdict) : (s.answerGroup k verdict).MemoryOk ↔ s.MemoryOk := by
  unfold State.answerGroup; dsimp only; (repeat' split) <;> simp

@[simp] theorem memoryOk_execFreply {s : State} (h : s.MemoryOk) (verdict) : Ans.MemoryOk (execFreply verdict s) := by
  simp [execFreply, h]

@[simp] theorem State.MemoryOk.postWaiting {s : State} (h : s.MemoryOk) : s.postWaiting.MemoryOk := by
  refine State.MemoryOk.foldl (fun s x hs => ?_) _ s h
  split
  · exact hs.recordFault x.1
  · exact hs

@[simp] theorem memoryOk_execFrconsWrite {s : State} (h : s.MemoryOk) (v) : Ans.MemoryOk (execFrconsWrite v s) := by
  simp [execFrconsWrite, h]

@[simp] theorem memoryOk_execFaultRingConfigWrite {s : State} (h : s.MemoryOk) (size v) :
    Ans.MemoryOk (execFaultRingConfigWrite size v s) := by
  simp [execFaultRingConfigWrite, h]

@[simp] theorem memoryOk_execErrconsWrite {s : State} (h : s.MemoryOk) (v) : Ans.MemoryOk (execErrconsWrite v s) := by
  simp [execErrconsWrite, h]

@[simp] theorem memoryOk_execCorerrRead {s : State} (h : s.MemoryOk) (core) : Ans.MemoryOk (execCorerrRead core s) := by
  simp [execCorerrRead, h]

@[simp] theorem State.memoryOk_enaccHalf (s : State) (partition entry high) : (s.enaccHalf partition entry high).MemoryOk ↔ s.MemoryOk := by
  simp [State.enaccHalf]

@[simp] theorem memoryOk_execEnaccRead {s : State} (h : s.MemoryOk) (partition entry) : Ans.MemoryOk (execEnaccRead partition entry s) := by
  simp [execEnaccRead, h]

@[simp] theorem memoryOk_execErrlostRead {s : State} (h : s.MemoryOk) : Ans.MemoryOk (execErrlostRead s) := by
  simp [execErrlostRead, h]

@[simp] theorem State.memoryOk_setRecord (s : State) (slice context f) : (s.setRecord slice context f).MemoryOk ↔ s.MemoryOk := Iff.rfl

@[simp] theorem memoryOk_execSliceRateWrite {s : State} (h : s.MemoryOk) (slice context depthReg v) :
    Ans.MemoryOk (execSliceRateWrite slice context depthReg v s) := by
  simp [execSliceRateWrite, h]

@[simp] theorem memoryOk_execSlwaysWrite {s : State} (h : s.MemoryOk) (slice context v) :
    Ans.MemoryOk (execSlwaysWrite slice context v s) := by
  simp [execSlwaysWrite, h]

theorem State.MemoryOk.stateOr {s : State} (h : s.MemoryOk) {a : Ans} (ha : Ans.MemoryOk a) : (Machine.stateOr a s).MemoryOk := by
  unfold Machine.stateOr
  split
  · exact ha _ rfl
  · exact h

@[simp] theorem State.MemoryOk.writeReg4 {s : State} (h : s.MemoryOk) (off : Nat) (v : Word) : (s.writeReg4 off v).MemoryOk := by
  unfold State.writeReg4
  split
  case h_17 =>
    extract_lets d bit0 run k at_
    have hr : ∀ a, Ans.MemoryOk a → (run a).MemoryOk := fun a ha => h.stateOr ha
    clear_value k at_ run
    split
    · split <;> simp [h, hr]
    · exact h
  case h_16 =>
    extract_lets d bit0 run u
    have hu : u.MemoryOk := h
    split
    · exact hu.stateOr (memoryOk_execAttctlGo hu)
    · exact hu
  all_goals simp [h, h.stateOr]

@[simp] theorem State.memoryOk_latch (s : State) (off v) : (s.latch off v).MemoryOk ↔ s.MemoryOk := Iff.rfl

@[simp] theorem State.MemoryOk.writeReg8 {s : State} (h : s.MemoryOk) (off : Nat) (v : Dword) : (s.writeReg8 off v).MemoryOk := by
  unfold State.writeReg8
  split
  all_goals simp [h, h.stateOr]

@[simp] theorem memoryOk_execDriverRegisterWrite {s : State} (h : s.MemoryOk) (offset size : Nat) (v : BitVec 64) :
    Ans.MemoryOk (execDriverRegisterWrite offset size v s) := by
  unfold execDriverRegisterWrite
  split
  · simp [h]
  · split <;> simp [h]

@[simp] theorem State.MemoryOk.driverRead {s : State} (h : s.MemoryOk) (off size : Nat) : (s.driverRead off size).MemoryOk := by
  simp [State.driverRead, h, h.stateOr]

@[simp] theorem State.MemoryOk.enters {s : State} (h : s.MemoryOk) (pa n : Nat) : (s.enters pa n).MemoryOk :=
  State.MemoryOk.foldl (fun _ _ hs => (hs.setTagsOf _ _ _).recheck _) _ s h

@[simp] theorem memoryOk_execHostWrite {s : State} (h : s.MemoryOk) (pa bytes) : Ans.MemoryOk (execHostWrite pa bytes s) := by
  simp [execHostWrite, h, h.pokeBytes]

@[simp] theorem State.memoryOk_hostRead (s : State) (pa n) : (s.hostRead pa n).MemoryOk ↔ s.MemoryOk := by
  simp [State.hostRead]

@[simp] theorem State.MemoryOk.linkWrite {s : State} (h : s.MemoryOk) (a : Nat) (bs : List Byte) : (s.linkWrite a bs).MemoryOk := by
  refine State.MemoryOk.foldl (fun _ _ hs => hs.recheck _) _ _ ?_
  split
  · exact h.writeMem a bs
  · exact (h.writeMem a bs).setTagsOf _ _ _

@[simp] theorem State.MemoryOk.linkRead {s : State} (h : s.MemoryOk) (a n : Nat) : (s.linkRead a n).MemoryOk :=
  State.MemoryOk.foldl (fun _ _ hs => hs.logError ..) _ s h

@[simp] theorem memoryOk_execHostLinkRequest {s : State} (h : s.MemoryOk) (write : Bool) (pa : BitVec 52) (bytes : List Byte) :
    Ans.MemoryOk (execHostLinkRequest write pa bytes s) := by
  simp [execHostLinkRequest, h]

/-! ### Machine/MatrixIssue -/

@[simp] theorem State.MemoryOk.issueMatrix {s : State} (h : s.MemoryOk) (i) : (s.issueMatrix i).MemoryOk := by
  simp [State.issueMatrix, h]

/-- An instruction of the matrix unit keeps memory canonical when the work after its checks does. -/
theorem memoryOk_matrixLane {s : State} (h : s.MemoryOk) {i : Instr} {w : LaneOps} {illop : State → Option Dword}
    {checks : State → List (Nat × Dword)} {go : State → Res} (hg : (go s).MemoryOk) :
    Ans.MemoryOk (matrixLane i w s illop checks go) := by
  refine memoryOk_issueLane h ?_
  split
  · exact h
  · split
    · exact h
    · split
      · exact h
      · exact hg

@[simp] theorem memoryOk_execMma {s : State} (h : s.MemoryOk) (w : LaneOps) : Ans.MemoryOk (execMma w s) :=
  memoryOk_matrixLane h (h.issueMatrix _)

@[simp] theorem memoryOk_execMmai {s : State} (h : s.MemoryOk) (w : LaneOps) : Ans.MemoryOk (execMmai w s) :=
  memoryOk_matrixLane h (h.issueMatrix _)

@[simp] theorem memoryOk_execMzero {s : State} (h : s.MemoryOk) (w : LaneOps) : Ans.MemoryOk (execMzero w s) :=
  memoryOk_matrixLane h (h.issueMatrix _)

@[simp] theorem memoryOk_execMflagc {s : State} (h : s.MemoryOk) (w : LaneOps) : Ans.MemoryOk (execMflagc w s) :=
  memoryOk_matrixLane h (h.issueMatrix _)

@[simp] theorem memoryOk_execMflag {s : State} (h : s.MemoryOk) (w : LaneOps) : Ans.MemoryOk (execMflag w s) :=
  memoryOk_matrixLane h (h.issueMatrix _)

@[simp] theorem memoryOk_execMlda {s : State} (h : s.MemoryOk) (w : LaneOps) : Ans.MemoryOk (execMlda w s) :=
  memoryOk_matrixLane h (h.issueMatrix _)

@[simp] theorem memoryOk_execMsta {s : State} (h : s.MemoryOk) (w : LaneOps) : Ans.MemoryOk (execMsta w s) :=
  memoryOk_matrixLane h (h.issueMatrix _)

@[simp] theorem memoryOk_execMfence {s : State} (h : s.MemoryOk) (w : LaneOps) : Ans.MemoryOk (execMfence w s) := by
  refine memoryOk_matrixLane h ?_
  dsimp only
  split
  · exact h.holdLane _
  · split <;> simp [h]

@[simp] theorem memoryOk_execMwait {s : State} (h : s.MemoryOk) (w : LaneOps) : Ans.MemoryOk (execMwait w s) := by
  refine memoryOk_matrixLane h ?_
  split
  · exact h.holdLane _
  · exact h

@[simp] theorem memoryOk_execMwaitn {s : State} (h : s.MemoryOk) (w : LaneOps) : Ans.MemoryOk (execMwaitn w s) := by
  refine memoryOk_matrixLane h ?_
  split
  · exact h.holdLane _
  · exact h

/-! ### Machine/Dispatch -/

@[simp] theorem memoryOk_exec {s : State} (h : s.MemoryOk) (i : Instr) : Ans.MemoryOk (exec i s) := by
  cases i <;> simp [h]

/-! ### Machine/Turns -/

@[simp] theorem State.MemoryOk.scalarTurn {s : State} (h : s.MemoryOk) (k : Nat) : Ans.MemoryOk (s.scalarTurn k) := by
  have hc : State.MemoryOk { s with cur := k } := h
  unfold State.scalarTurn
  dsimp only
  (repeat' split) <;> simp [hc]

@[simp] theorem State.MemoryOk.laneTurn {s : State} (h : s.MemoryOk) (k : Nat) : Ans.MemoryOk (s.laneTurn k) := by
  have hc : State.MemoryOk { s with cur := k } := h
  unfold State.laneTurn
  dsimp only
  (repeat' split) <;> simp [hc]

@[simp] theorem State.memoryOk_aheadTurn (s : State) (k) : (s.aheadTurn k).MemoryOk ↔ s.MemoryOk := by
  simp [State.aheadTurn]

@[simp] theorem State.memoryOk_tlbTake (s : State) (ctx page) : (s.tlbTake ctx page).MemoryOk ↔ s.MemoryOk := by
  simp only [State.tlbTake]; (repeat' split) <;> simp

@[simp] theorem State.memoryOk_tlbForget (s : State) (ctx page) : (s.tlbForget ctx page).MemoryOk ↔ s.MemoryOk := Iff.rfl

@[simp] theorem State.memoryOk_evictLine (s : State) (k line) : (s.evictLine k line).MemoryOk ↔ s.MemoryOk := by
  unfold State.evictLine; dsimp only; (repeat' split) <;> simp

@[simp] theorem memoryOk_runTurn {s : State} (h : s.MemoryOk) (t : Turn) : Ans.MemoryOk (runTurn t s) := by
  cases t with
  | event i =>
    unfold runTurn
    dsimp only
    split
    · exact Ans.memoryOk_fault
    · exact memoryOk_exec h i
  | _ => simp [runTurn, h]

/-- A choice of the machine that keeps memory canonical. -/
def KeepsMemory (f : State → Ans) : Prop := ∀ s, s.MemoryOk → Ans.MemoryOk (f s)

/-- Every choice of a list keeps memory canonical. -/
def AllKeep (fs : List (State → Ans)) : Prop := ∀ f ∈ fs, KeepsMemory f

@[simp] theorem allKeep_nil : AllKeep [] := by simp [AllKeep]

@[simp] theorem allKeep_cons {f : State → Ans} {fs : List (State → Ans)} : AllKeep (f :: fs) ↔ KeepsMemory f ∧ AllKeep fs := by
  simp [AllKeep]

@[simp] theorem allKeep_append {fs gs : List (State → Ans)} : AllKeep (fs ++ gs) ↔ AllKeep fs ∧ AllKeep gs := by
  simp [AllKeep, or_imp, forall_and]

@[simp] theorem allKeep_ite {c : Prop} [Decidable c] {fs gs : List (State → Ans)} :
    AllKeep (if c then fs else gs) ↔ if c then AllKeep fs else AllKeep gs := by split <;> rfl

@[simp] theorem allKeep_map {α : Type} {f : α → State → Ans} {xs : List α} :
    AllKeep (xs.map f) ↔ ∀ x ∈ xs, KeepsMemory (f x) := by
  simp [AllKeep]

@[simp] theorem allKeep_filterMap {α : Type} {f : α → Option (State → Ans)} {xs : List α} :
    AllKeep (xs.filterMap f) ↔ ∀ x ∈ xs, ∀ g ∈ f x, KeepsMemory g := by
  simp only [AllKeep, List.mem_filterMap]
  exact ⟨fun h x hx g hg => h g ⟨x, hx, hg⟩, fun h g ⟨x, hx, hg⟩ => h x hx g hg⟩

@[simp] theorem allKeep_flatMap {α : Type} {f : α → List (State → Ans)} {xs : List α} :
    AllKeep (xs.flatMap f) ↔ ∀ x ∈ xs, AllKeep (f x) := by
  simp only [AllKeep, List.mem_flatMap]
  exact ⟨fun h x hx g hg => h g ⟨x, hx, hg⟩, fun h g ⟨x, hx, hg⟩ => h x hx g hg⟩

@[simp] theorem allKeep_reqEvents (rr : Nat) (x : Nat × Req) : AllKeep (reqEvents rr x) := by
  unfold reqEvents
  (repeat' split) <;> simp +contextual [KeepsMemory]

@[simp] theorem State.allKeep_sendEvents (s : State) : AllKeep s.sendEvents := by
  refine allKeep_flatMap.mpr fun k _ => allKeep_flatMap.mpr fun x _ => ?_
  split <;> simp +contextual [KeepsMemory]

@[simp] theorem allKeep_groupEvents (x : Nat × Group) : AllKeep (groupEvents x) := by
  simp +contextual [groupEvents, KeepsMemory]

@[simp] theorem State.allKeep_matrixEvents (s : State) : AllKeep s.matrixEvents := by
  refine allKeep_flatMap.mpr fun n _ => allKeep_flatMap.mpr fun u _ => allKeep_map.mpr fun x _ t ht => ?_
  split <;> simp [ht]

@[simp] theorem State.allKeep_commandEvents (s : State) : AllKeep s.commandEvents := by
  refine allKeep_append.mpr ⟨allKeep_append.mpr ⟨?copy, ?fabric⟩, ?coll⟩
  case copy => simp +contextual [KeepsMemory]
  case fabric => simp +contextual [KeepsMemory]
  case coll =>
    refine allKeep_flatMap.mpr fun x _ => ?_
    split <;> simp +contextual [KeepsMemory]

@[simp] theorem State.MemoryOk.freeUpdate {s : State} (h : s.MemoryOk) : Ans.MemoryOk (s.freeUpdate) := by
  simp [State.freeUpdate, h]

@[simp] theorem State.allKeep_launchEvents (s : State) : AllKeep s.launchEvents := by
  simp +contextual [State.launchEvents, KeepsMemory]

@[simp] theorem State.allKeep_showEvents (s : State) : AllKeep s.showEvents := by
  unfold State.showEvents
  cases s.hostView.head? <;> simp +contextual [KeepsMemory]

@[simp] theorem State.allKeep_candidates (s : State) : AllKeep s.candidates := by
  simp [State.candidates]

@[simp] theorem State.allKeep_timedEvents (s : State) : AllKeep s.timedEvents := by
  simp +contextual [State.timedEvents, KeepsMemory]

/-- A choice found in a list of choices that keep memory canonical keeps it. -/
theorem AllKeep.find? {fs : List (State → Ans)} (hfs : AllKeep fs) {p : (State → Ans) → Bool} {f : State → Ans}
    (hf : fs.find? p = some f) : KeepsMemory f :=
  hfs f (List.mem_of_find?_eq_some hf)

/-- A list of choices turned by some places holds the same choices. -/
theorem AllKeep.rotate {fs : List (State → Ans)} (hfs : AllKeep fs) (k : Nat) : AllKeep (fs.drop k ++ fs.take k) :=
  allKeep_append.mpr ⟨fun f hf => hfs f (List.mem_of_mem_drop hf), fun f hf => hfs f (List.mem_of_mem_take hf)⟩

theorem State.keepsMemory_firstEvent {s : State} {f : State → Ans} (hf : s.firstEvent = some f) : KeepsMemory f :=
  (s.allKeep_candidates.rotate _).find? hf

theorem State.keepsMemory_firstTimed {s : State} {f : State → Ans} (hf : s.firstTimed = some f) : KeepsMemory f :=
  s.allKeep_timedEvents.find? hf

@[simp] theorem State.allKeep_streams (s : State) : AllKeep s.streams :=
  allKeep_flatMap.mpr fun x _ => by simp +contextual [KeepsMemory]

theorem State.keepsMemory_firstStream {s : State} {f : State → Ans} (hf : s.firstStream = some f) : KeepsMemory f :=
  (s.allKeep_streams.rotate _).find? hf

theorem forall_mem_orElse {α : Type} {p : α → Prop} {x : Option α} {y : Unit → Option α} (hx : ∀ a ∈ x, p a)
    (hy : ∀ a ∈ y (), p a) : ∀ a ∈ x.orElse y, p a := by
  cases x with
  | none => exact hy
  | some b => exact hx

@[simp] theorem State.MemoryOk.defaultStep {s : State} (h : s.MemoryOk) : Ans.MemoryOk s.defaultStep := by
  have ht : ∀ f ∈ s.firstTimed, KeepsMemory f := fun _ => State.keepsMemory_firstTimed
  have he : ∀ f ∈ s.firstEvent, KeepsMemory f := fun _ => State.keepsMemory_firstEvent
  have hs : ∀ f ∈ s.firstStream, KeepsMemory f := fun _ => State.keepsMemory_firstStream
  have ho : ∀ f ∈ if s.rr % 2 = 0 then s.firstEvent.orElse (fun _ => s.firstStream) else s.firstStream.orElse (fun _ => s.firstEvent),
      KeepsMemory f := by
    split
    · exact forall_mem_orElse he hs
    · exact forall_mem_orElse hs he
  have h' : State.MemoryOk { s with rr := s.rr + 1 } := h
  unfold State.defaultStep
  dsimp only
  split
  · simp [h']
  · split
    · simp [h']
    · split
      · next f hf =>
        split at hf
        · exact forall_mem_orElse ht ho f hf _ h'
        · exact forall_mem_orElse ho ht f hf _ h'
      · simp [h']

/-! ### Machine/Step -/

theorem memoryOk_step {s : State} (h : s.MemoryOk) : Ans.MemoryOk (step s) := by
  unfold step
  split
  · next t ts _ => exact memoryOk_runTurn (s := { s with agenda := ts }) h t
  · exact h.defaultStep

/-- Settles O57, by the case of the turn: every turn and every choice of the machine keeps memory canonical. -/
theorem stepKeepsMemoryOk : Obligations.StepKeepsMemoryOk := by
  unfold Obligations.StepKeepsMemoryOk
  exact fun s t h he => memoryOk_step h t he

end Sys2Proof.Machine
end

/-!
SUPPORT, O24 to O27. Lane arithmetic (R60, R98 to R116, R127): the shapes of the register instructions as `State.wrote`, then the
integers, the bits, the elements and the encodings that they compute.
-/
namespace Sys2Proof.Machine.LaneArithmetic

/-! ### Register instructions as their results

Each shape that the model gives register instructions (R93, R97, R103) writes what the shape of the statements says. -/

section
variable {i : Instr} {w : LaneOps} {s : State}

theorem intLane1_ok {f : {n : Nat} → BitVec n → BitVec n} {g : (n : Nat) → BitVec n → BitVec n}
    (hfg : ∀ n a, f a = g n a) (h : s.Issues i) (hc : s.Clean w i) :
    intLane1 i w s f = .next (s.wrote w (s.int1 w g)) := by
  obtain rfl : (fun n => @f n) = g := funext fun n => funext (hfg n)
  exact aluLane_ok h hc

theorem intLane2_ok {f : {n : Nat} → BitVec n → BitVec n → BitVec n} {g : (n : Nat) → BitVec n → BitVec n → BitVec n}
    (hfg : ∀ n a b, f a b = g n a b) (h : s.Issues i) (hc : s.Clean w i) :
    intLane2 i w s f = .next (s.wrote w (s.int2 w g)) := by
  obtain rfl : (fun n => @f n) = g := funext fun n => funext fun a => funext (hfg n a)
  exact aluLane_ok h hc

theorem intLane3_ok {f : {n : Nat} → BitVec n → BitVec n → BitVec n → BitVec n}
    {g : (n : Nat) → BitVec n → BitVec n → BitVec n → BitVec n}
    (hfg : ∀ n a b c, f a b c = g n a b c) (h : s.Issues i) (hc : s.Clean w i) :
    intLane3 i w s f = .next (s.wrote w (s.int3 w g)) := by
  obtain rfl : (fun n => @f n) = g := funext fun n => funext fun a => funext fun b => funext (hfg n a b)
  exact aluLane_ok h hc

theorem countLane_ok {f : {n : Nat} → BitVec n → Nat} (h : s.Issues i) (hc : s.Clean w i) :
    countLane i w s f = .next (s.wrote w fun t =>
      .w32 (BitVec.ofNat 32 (if wideType w.type then f (s.a64 w t) else f (s.a32 w t)))) :=
  aluLane_ok h hc

theorem floatLane_ok {f : Fmt → Rnd → Nat → Nat → Nat → Nat} (h : s.Issues i) (hc : s.Clean w i) :
    floatLane i w s f = .next (s.wrote w fun t =>
      floatOut w.type
        (fun a b c => f (fmtOf w.type) (s.rndOf w.rnd) (modified w 0 a) (modified w 2 b) (modified w 4 c))
        (s.aN w w.type t) (s.bN w w.type t) (s.cN w w.type t)) :=
  aluLane_ok h hc

/-- A long form of MOVI writes its value in every thread whose predicate holds (R60). -/
theorem moviLong_ok {vd : VReg} {q : PReg} {neg : Bool} {o : Out} (h : s.Issues i) :
    moviLong i vd q neg o s =
      .next ((s.putAll vd ((s.activeBy q neg).map fun t => (t, o))).passLane (passes (maskOf (s.activeBy q neg)))) :=
  issueLane_ok h

end

/-! ### Integers (R97, R98) -/

section
variable {n : Nat} (sg : Bool) (a b c : BitVec n)

theorem ofInt_readInt : BitVec.ofInt n (readInt sg a) = a := by
  cases sg
  · exact (BitVec.ofInt_natCast n a.toNat).trans (BitVec.ofNat_toNat n a |>.trans a.setWidth_eq)
  · exact BitVec.ofInt_toInt

theorem ofInt_readInt_add : BitVec.ofInt n (readInt sg a + readInt sg b) = a + b := by
  rw [BitVec.ofInt_add, ofInt_readInt, ofInt_readInt]

theorem ofInt_readInt_sub : BitVec.ofInt n (readInt sg a - readInt sg b) = a - b := by
  rw [Int.sub_eq_add_neg, BitVec.ofInt_add, BitVec.ofInt_neg, ofInt_readInt, ofInt_readInt, BitVec.sub_eq_add_neg]

theorem ofInt_readInt_mul : BitVec.ofInt n (readInt sg a * readInt sg b) = a * b := by
  rw [BitVec.ofInt_mul, ofInt_readInt, ofInt_readInt]

theorem ofInt_readInt_mul_add : BitVec.ofInt n (readInt sg a * readInt sg b + readInt sg c) = a * b + c := by
  rw [BitVec.ofInt_add, ofInt_readInt_mul, ofInt_readInt]

/-- LT compares the integers that the sources stand for (R101). -/
theorem compareInt_lt : compareInt sg 2 a b = decide (readInt sg a < readInt sg b) := by
  cases sg
  · simp [compareInt, readInt, BitVec.ult_eq_decide]
  · simp [compareInt, readInt, BitVec.slt_eq_decide]

theorem absInt_eq_narrow (sat : Bool) : absInt sat a = narrow n true sat (a.toInt.natAbs : Int) := by
  cases sat
  · simp only [absInt, narrow, Bool.false_eq_true, if_false, BitVec.msb_eq_toInt, decide_eq_true_eq]
    by_cases hneg : a.toInt < 0
    · rw [if_pos hneg, Int.ofNat_natAbs_of_nonpos (Int.le_of_lt hneg), BitVec.ofInt_neg, BitVec.ofInt_toInt]
    · rw [if_neg hneg, Int.natAbs_of_nonneg (Int.not_lt.mp hneg), BitVec.ofInt_toInt]
  · rfl

end

/-- Settles O24: each integer instruction is one of the shapes above, its operation on words that on the integers they stand for. -/
theorem laneIntegerArithmetic : Obligations.LaneIntegerArithmetic := by
  unfold Obligations.LaneIntegerArithmetic
  refine ⟨fun s w => ⟨?iadd, ?isub, ?imul, ?imulh, ?imad, ?imin, ?imax, ?iabs, ?mov, ?sregr, ?movi⟩,
    fun s vd q neg imm => ⟨fun h => (exec_moviLong32 vd q neg imm s).trans (moviLong_ok h),
      fun h => (exec_moviLong64 vd q neg imm s).trans (moviLong_ok h)⟩⟩
  all_goals intro h hc
  case iadd => rw [exec_iadd, execIadd]; exact intLane2_ok (fun n a b => by simp only [narrow, ofInt_readInt_add]) h hc
  case isub => rw [exec_isub, execIsub]; exact intLane2_ok (fun n a b => by simp only [narrow, ofInt_readInt_sub]) h hc
  case imul => rw [exec_imul, execImul]; exact intLane2_ok (fun n a b => (ofInt_readInt_mul _ a b).symm) h hc
  case imulh => rw [exec_imulh, execImulh]; exact aluLane_ok h hc
  case imad => rw [exec_imad, execImad]; exact intLane3_ok (fun n a b c => (ofInt_readInt_mul_add _ a b c).symm) h hc
  case imin => rw [exec_imin, execImin]; exact intLane2_ok (fun n a b => by simp only [compareInt_lt, decide_eq_true_eq]) h hc
  case imax => rw [exec_imax, execImax]; exact intLane2_ok (fun n a b => by simp only [compareInt_lt, decide_eq_true_eq]) h hc
  case iabs => rw [exec_iabs, execIabs]; exact intLane1_ok (fun n a => absInt_eq_narrow a _) h hc
  case mov => rw [exec_mov, execMov]; exact intLane1_ok (fun n a => rfl) h hc
  case sregr => rw [exec_sregr, execSregr]; exact aluLane_ok h hc
  case movi => rw [exec_movi, execMovi]; exact aluLane_ok h hc

/-! ### Shifts and counts over the integers (R97, R98) -/

section
variable {n : Nat} (a b : BitVec n)

theorem shiftLeft_eq_ofNat (k : Nat) : a <<< k = BitVec.ofNat n (a.toNat * 2 ^ k) := by
  rw [← Nat.shiftLeft_eq]; rfl

theorem ushiftRight_eq_ofNat (k : Nat) : a >>> k = BitVec.ofNat n (a.toNat / 2 ^ k) := by
  apply BitVec.eq_of_toNat_eq
  have hlt : a.toNat / 2 ^ k < 2 ^ n := Nat.lt_of_le_of_lt (Nat.div_le_self _ _) a.isLt
  rw [BitVec.toNat_ushiftRight, Nat.shiftRight_eq_div_pow, BitVec.toNat_ofNat, Nat.mod_eq_of_lt hlt]

/-- A right shift is the floor of the quotient, of the signed or of the unsigned integer (R98, log 77). -/
theorem shiftRight_eq_ofInt (sg : Bool) (k : Nat) :
    (if sg then a.sshiftRight k else a >>> k) = BitVec.ofInt n (readInt sg a / 2 ^ k) := by
  cases sg
  · have hcast : ((a.toNat : Int) / 2 ^ k) = ((a.toNat / 2 ^ k : Nat) : Int) := by push_cast; rfl
    simp only [Bool.false_eq_true, if_false, readInt]
    rw [hcast, BitVec.ofInt_natCast, ushiftRight_eq_ofNat]
  · have hdiv : a.toInt / 2 ^ k = (a.sshiftRight k).toInt := by
      rw [BitVec.toInt_sshiftRight, Int.shiftRight_eq_div_pow]; push_cast; rfl
    simp only [if_true, readInt]
    rw [hdiv, BitVec.ofInt_toInt]

theorem popcount_eq_countP : popcount a = (List.range n).countP fun i => a.getLsbD i :=
  List.countP_eq_length_filter.symm

end

/-! ### Bits of the bit instructions (R98 to R100) -/

/-- The bits of words joined where a condition holds. -/
theorem getLsbD_foldl_or {α : Type} {n : Nat} (p : α → Prop) [DecidablePred p] (m : α → BitVec n) (i : Nat) (xs : List α) :
    ∀ r : BitVec n, (xs.foldl (fun r k => if p k then r ||| m k else r) r).getLsbD i = true
      ↔ r.getLsbD i = true ∨ ∃ k ∈ xs, p k ∧ (m k).getLsbD i = true := by
  induction xs with
  | nil => simp
  | cons x xs ih =>
    intro r
    rw [List.foldl_cons, ih]
    by_cases hx : p x
    · simp [hx, or_assoc]
    · simp [hx]

theorem getLsbD_foldl_or_zero {α : Type} {n : Nat} (p : α → Prop) [DecidablePred p] (m : α → BitVec n) (i : Nat) (xs : List α) :
    (xs.foldl (fun r k => if p k then r ||| m k else r) 0).getLsbD i = true ↔ ∃ k ∈ xs, p k ∧ (m k).getLsbD i = true := by
  simp [getLsbD_foldl_or]

section
variable {n : Nat} (a b c : BitVec n) {i : Nat}

theorem getLsbD_reverseBits (hi : i < n) : (reverseBits a).getLsbD i = a.getLsbD (n - 1 - i) := by
  have hbit : ∀ k < n, ((1 : BitVec n) <<< (n - 1 - k)).getLsbD i = true ↔ k = n - 1 - i := by
    intro k hk
    simp only [BitVec.getLsbD_shiftLeft, BitVec.ofNat_eq_ofNat, BitVec.getLsbD_one, Bool.and_eq_true, Bool.not_eq_true',
      decide_eq_true_eq, decide_eq_false_iff_not]
    omega
  rw [Bool.eq_iff_iff, reverseBits, getLsbD_foldl_or_zero (fun k => a.getLsbD k = true)]
  constructor
  · rintro ⟨k, hk, ha, hone⟩
    exact (hbit k (List.mem_range.mp hk)).mp hone ▸ ha
  · intro ha
    have hlt : n - 1 - i < n := by omega
    exact ⟨n - 1 - i, List.mem_range.mpr hlt, ha, (hbit _ hlt).mpr rfl⟩

/-- The row of a truth table that three bits select (R100). -/
def lutRow (x y z : Bool) : Nat := bitOf x + 2 * bitOf y + 4 * bitOf z

theorem lutRow_lt (x y z : Bool) : lutRow x y z < 8 := by cases x <;> cases y <;> cases z <;> decide

/-- The word of row `k` that `lut3` joins: set where the sources select that row. -/
theorem getLsbD_lutTerm (hi : i < n) {k : Nat} (hk : k < 8) :
    ((if k % 2 = 1 then a else ~~~a) &&& (if k / 2 % 2 = 1 then b else ~~~b) &&& (if k / 4 = 1 then c else ~~~c)).getLsbD i = true
      ↔ k = lutRow (a.getLsbD i) (b.getLsbD i) (c.getLsbD i) := by
  have hlit : ∀ (p : Prop) [Decidable p] (x : BitVec n), (if p then x else ~~~x).getLsbD i = (decide p == x.getLsbD i) := by
    intro p _ x
    by_cases hp : p <;> simp [hp, hi]
  simp only [BitVec.getLsbD_and, hlit]
  generalize a.getLsbD i = x
  generalize b.getLsbD i = y
  generalize c.getLsbD i = z
  revert k x y z
  decide

theorem getLsbD_lut3 (table : Nat) (hi : i < n) :
    (lut3 table a b c).getLsbD i = table.testBit (lutRow (a.getLsbD i) (b.getLsbD i) (c.getLsbD i)) := by
  rw [Bool.eq_iff_iff, lut3, getLsbD_foldl_or_zero (fun k => table / 2 ^ k % 2 = 1), Nat.testBit_eq_decide_div_mod_eq, decide_eq_true_eq]
  constructor
  · rintro ⟨k, hk, hrow, hterm⟩
    exact (getLsbD_lutTerm a b c hi (List.mem_range.mp hk)).mp hterm ▸ hrow
  · intro hrow
    have hlt := lutRow_lt (a.getLsbD i) (b.getLsbD i) (c.getLsbD i)
    exact ⟨_, List.mem_range.mpr hlt, hrow, (getLsbD_lutTerm a b c hi hlt).mpr rfl⟩

/-! #### Leading zeros -/

theorem leading_zero : leading (0 : BitVec n) = n := if_pos rfl

theorem toNat_ne_zero {a : BitVec n} (ha : a ≠ 0) : a.toNat ≠ 0 := fun h => ha (BitVec.eq_of_toNat_eq (by simpa using h))

/-- Of a word that is not zero the highest set bit stands below the leading zeros. -/
theorem leading_add_log2 {a : BitVec n} (ha : a ≠ 0) : leading a + a.toNat.log2 + 1 = n := by
  have hlog : a.toNat.log2 < n := (Nat.log2_lt (toNat_ne_zero ha)).mpr a.isLt
  rw [leading, if_neg ha]
  omega

theorem leading_le : leading a ≤ n := by
  by_cases ha : a = 0
  · exact ha ▸ Nat.le_of_eq leading_zero
  · have := leading_add_log2 ha
    omega

theorem getLsbD_of_leading (hi : n - leading a ≤ i) : a.getLsbD i = false := by
  by_cases ha : a = 0
  · exact ha ▸ BitVec.getLsbD_zero
  · have hsum := leading_add_log2 ha
    have hlt : a.toNat < 2 ^ i := (Nat.log2_lt (toNat_ne_zero ha)).mp (by omega)
    rw [← BitVec.testBit_toNat, Nat.testBit_lt_two_pow hlt]

theorem getLsbD_below_leading (h : leading a < n) : a.getLsbD (n - 1 - leading a) = true := by
  have ha : a ≠ 0 := fun ha => by rw [ha, leading_zero] at h; omega
  have hsum := leading_add_log2 ha
  have hpos : n - 1 - leading a = a.toNat.log2 := by omega
  rw [hpos, ← BitVec.testBit_toNat, Nat.testBit_log2 (toNat_ne_zero ha)]

/-! #### Fields (R99) -/

/-- The field of `a` as a number. -/
theorem testBit_field (pos len j : Nat) :
    (a.toNat / 2 ^ pos % 2 ^ len).testBit j = (decide (j < len) && a.getLsbD (pos + j)) := by
  rw [Nat.testBit_mod_two_pow, Nat.testBit_div_two_pow, BitVec.testBit_toNat, Nat.add_comm]

theorem getLsbD_fieldExtract_unsigned {pos len : Nat} (hi : i < n) :
    (fieldExtract false a pos len).getLsbD i = (decide (i < len) && a.getLsbD (pos + i)) := by
  by_cases hlen : len = 0
  · simp [fieldExtract, hlen]
  · simp only [fieldExtract, hlen, Bool.false_and, Bool.false_eq_true, if_false]
    rw [BitVec.getLsbD_ofNat, testBit_field, decide_eq_true hi, Bool.true_and]

/-- A field less its weight has its own bits, and ones from its length on. -/
theorem getLsbD_ofInt_sub_two_pow {f len : Nat} (hf : f < 2 ^ len) (hlen : len ≤ n) (hi : i < n) :
    (BitVec.ofInt n ((f : Int) - 2 ^ len)).getLsbD i = (f.testBit i || decide (len ≤ i)) := by
  have hpow : 2 ^ len * 2 ^ (n - len) = 2 ^ n := by rw [← Nat.pow_add, Nat.add_sub_cancel' hlen]
  have hint : ((f : Int) - 2 ^ len) + (2 ^ n : Nat) = ((2 ^ len * (2 ^ (n - len) - 1) + f : Nat) : Int) := by
    have hle : 2 ^ len ≤ 2 ^ n := Nat.pow_le_pow_right (by omega) hlen
    rw [Nat.mul_sub, hpow, Nat.mul_one]
    push_cast [hle]
    omega
  have hword : BitVec.ofInt n ((f : Int) - 2 ^ len) = BitVec.ofNat n (2 ^ len * (2 ^ (n - len) - 1) + f) := by
    have hzero : BitVec.ofNat n (2 ^ n) = 0#n := BitVec.eq_of_toNat_eq (by rw [BitVec.toNat_ofNat, Nat.mod_self, BitVec.toNat_ofNat, Nat.zero_mod])
    rw [← BitVec.ofInt_natCast, ← hint, BitVec.ofInt_add, BitVec.ofInt_natCast, hzero, BitVec.add_zero]
  rw [hword, BitVec.getLsbD_ofNat, decide_eq_true hi, Bool.true_and, Nat.testBit_two_pow_mul_add _ hf]
  by_cases hlt : i < len
  · simp only [hlt, if_true, decide_eq_false (Nat.not_le_of_lt hlt), Bool.or_false]
  · have hhigh : f.testBit i = false := Nat.testBit_lt_two_pow (Nat.lt_of_lt_of_le hf (Nat.pow_le_pow_right (by omega) (by omega)))
    simp only [hlt, if_false, Nat.testBit_two_pow_sub_one, hhigh, Bool.false_or, decide_eq_decide]
    omega

theorem getLsbD_fieldExtract_signed {pos len : Nat} (hfit : pos + len ≤ n) (hlen : 0 < len) (hi : i < n) :
    (fieldExtract true a pos len).getLsbD i = a.getLsbD (pos + min i (len - 1)) := by
  have hf : a.toNat / 2 ^ pos % 2 ^ len < 2 ^ len := Nat.mod_lt _ (Nat.two_pow_pos len)
  have hsign : ((a.toNat / 2 ^ pos % 2 ^ len) / 2 ^ (len - 1) % 2 == 1) = a.getLsbD (pos + (len - 1)) := by
    have htop := testBit_field a pos len (len - 1)
    rw [Nat.testBit_eq_decide_div_mod_eq, decide_eq_true (show len - 1 < len by omega), Bool.true_and] at htop
    exact htop
  simp only [fieldExtract, Nat.ne_of_gt hlen, if_false, Bool.true_and, hsign]
  by_cases hlt : i < len
  · rw [Nat.min_eq_left (by omega)]
    split
    · rw [getLsbD_ofInt_sub_two_pow hf (by omega) hi, testBit_field, decide_eq_true hlt, decide_eq_false (by omega), Bool.true_and,
        Bool.or_false]
    · rw [BitVec.getLsbD_ofNat, testBit_field, decide_eq_true hi, decide_eq_true hlt, Bool.true_and, Bool.true_and]
  · rw [Nat.min_eq_right (by omega)]
    split
    · next htop => rw [getLsbD_ofInt_sub_two_pow hf (by omega) hi, decide_eq_true (by omega), Bool.or_true, htop]
    · next htop =>
      rw [BitVec.getLsbD_ofNat, testBit_field, decide_eq_false hlt, Bool.false_and, Bool.and_false, Bool.eq_false_iff.mpr htop]

theorem getLsbD_fieldInsert {pos len : Nat} (hi : i < n) :
    (fieldInsert a b pos len).getLsbD i = if pos ≤ i ∧ i < pos + len then a.getLsbD (i - pos) else b.getLsbD i := by
  have hmask : (BitVec.ofNat n (2 ^ len - 1) <<< pos).getLsbD i = decide (pos ≤ i ∧ i < pos + len) := by
    rw [BitVec.getLsbD_shiftLeft, BitVec.getLsbD_ofNat, Nat.testBit_two_pow_sub_one, Bool.eq_iff_iff]
    simp only [Bool.and_eq_true, Bool.not_eq_true', decide_eq_true_eq, decide_eq_false_iff_not]
    omega
  simp only [fieldInsert, BitVec.getLsbD_or, BitVec.getLsbD_and, BitVec.getLsbD_not, hmask, BitVec.getLsbD_shiftLeft]
  by_cases hin : pos ≤ i ∧ i < pos + len
  · simp [hin, hi]
  · simp [hin, hi]

end

/-- Settles O25: the shapes of the bit instructions, and the bits of their operations. -/
theorem laneBitInstructions : Obligations.LaneBitInstructions := by
  unfold Obligations.LaneBitInstructions
  refine ⟨fun s w => ⟨?vand, ?vor, ?vxor, ?blut, ?shl, ?shr, ?sra, ?rotr, ?popc, ?clz, ?brev, ?bfx, ?bfi, ?icmp, ?sel, ?qlop⟩,
    fun n a b c table i pos len hi => ⟨getLsbD_lut3 a b c table hi, getLsbD_reverseBits a hi,
      ⟨leading_le a, getLsbD_of_leading a, getLsbD_below_leading a⟩, fun _ => getLsbD_fieldExtract_unsigned a hi,
      fun hfit hlen => getLsbD_fieldExtract_signed a hfit hlen hi, fun _ => getLsbD_fieldInsert a b hi⟩⟩
  all_goals intro h hc
  case vand => rw [exec_vand, execVand]; exact intLane2_ok (fun n a b => rfl) h hc
  case vor => rw [exec_vor, execVor]; exact intLane2_ok (fun n a b => rfl) h hc
  case vxor => rw [exec_vxor, execVxor]; exact intLane2_ok (fun n a b => rfl) h hc
  case blut => rw [exec_blut, execBlut]; exact intLane3_ok (fun n a b c => rfl) h hc
  case shl => rw [exec_shl, execShl]; exact intLane2_ok (fun n a b => shiftLeft_eq_ofNat a _) h hc
  case shr => rw [exec_shr, execShr]; exact intLane2_ok (fun n a b => ushiftRight_eq_ofNat a _) h hc
  case sra => rw [exec_sra, execSra]; exact intLane2_ok (fun n a b => shiftRight_eq_ofInt a _ _) h hc
  case rotr => rw [exec_rotr, execRotr]; exact intLane2_ok (fun n a b => rfl) h hc
  case popc => rw [exec_popc, execPopc, countLane_ok h hc]; simp only [popcount_eq_countP]
  case clz => rw [exec_clz, execClz]; exact countLane_ok h hc
  case brev => rw [exec_brev, execBrev]; exact intLane1_ok (fun n a => rfl) h hc
  case bfx => rw [exec_bfx, execBfx]; exact aluLane_ok h hc
  case bfi => rw [exec_bfi, execBfi]; exact aluLane_ok h hc
  case icmp => rw [exec_icmp, execIcmp]; exact aluLane_ok h hc
  case sel => rw [exec_sel, execSel]; exact aluLane_ok h hc
  case qlop => rw [exec_qlop, execQlop]; exact aluLane_ok h hc

/-- Settles O26: every floating-point instruction of up to three sources is a `floatLane` of its operation. -/
theorem laneFloatArithmetic : Obligations.LaneFloatArithmetic := by
  unfold Obligations.LaneFloatArithmetic
  intro s w
  refine ⟨?fadd, ?fsub, ?fmul, ?ffma, ?fdiv, ?fsqrt, ?frnd, ?fmin, ?fmax, ?frcp, ?frsq, ?fex2, ?flg2, ?fsin, ?fcos, ?fsinpi, ?fcospi, ?ftanh⟩
  all_goals intro h hc
  case fadd => rw [exec_fadd, execFadd]; exact floatLane_ok h hc
  case fsub => rw [exec_fsub, execFsub]; exact floatLane_ok h hc
  case fmul => rw [exec_fmul, execFmul]; exact floatLane_ok h hc
  case ffma => rw [exec_ffma, execFfma]; exact floatLane_ok h hc
  case fdiv => rw [exec_fdiv, execFdiv]; exact floatLane_ok h hc
  case fsqrt => rw [exec_fsqrt, execFsqrt]; exact floatLane_ok h hc
  case frnd => rw [exec_frnd, execFrnd]; exact floatLane_ok h hc
  case fmin => rw [exec_fmin, execFmin]; exact floatLane_ok h hc
  case fmax => rw [exec_fmax, execFmax]; exact floatLane_ok h hc
  case frcp => rw [exec_frcp, execFrcp]; exact floatLane_ok h hc
  case frsq => rw [exec_frsq, execFrsq]; exact floatLane_ok h hc
  case fex2 => rw [exec_fex2, execFex2]; exact floatLane_ok h hc
  case flg2 => rw [exec_flg2, execFlg2]; exact floatLane_ok h hc
  case fsin => rw [exec_fsin, execFsin]; exact floatLane_ok h hc
  case fcos => rw [exec_fcos, execFcos]; exact floatLane_ok h hc
  case fsinpi => rw [exec_fsinpi, execFsinpi]; exact floatLane_ok h hc
  case fcospi => rw [exec_fcospi, execFcospi]; exact floatLane_ok h hc
  case ftanh => rw [exec_ftanh, execFtanh]; exact floatLane_ok h hc

/-! ### Elements side by side (R115, R116) -/

theorem sideBySide_append (n : Nat) (xs ys : List Nat) :
    sideBySide n (xs ++ ys) = sideBySide n xs + 2 ^ (n * xs.length) * sideBySide n ys := by
  induction xs with
  | nil => simp only [List.nil_append, List.length_nil, sideBySide, Nat.mul_zero, Nat.pow_zero, Nat.one_mul, Nat.zero_add]
  | cons x xs ih =>
    have hpow : 2 ^ (n * (xs.length + 1)) = 2 ^ n * 2 ^ (n * xs.length) := by rw [Nat.mul_succ, Nat.pow_add, Nat.mul_comm]
    rw [List.cons_append, sideBySide, sideBySide, ih, List.length_cons, hpow, Nat.mul_add, Nat.mul_assoc, Nat.add_assoc]

theorem sideBySide_map_range_succ (n : Nat) (f : Nat → Nat) (k : Nat) :
    sideBySide n ((List.range (k + 1)).map f) = sideBySide n ((List.range k).map f) + f k * 2 ^ (n * k) := by
  rw [List.range_succ, List.map_append, sideBySide_append]
  simp [sideBySide, Nat.mul_comm]

/-- Elements added up at their places stand side by side, as UNPACK adds them. -/
theorem foldl_eq_sideBySide (n : Nat) (f : Nat → Nat) (k : Nat) :
    (List.range k).foldl (fun acc i => acc + f i * 2 ^ (n * i)) 0 = sideBySide n ((List.range k).map f) := by
  induction k with
  | zero => rfl
  | succ k ih => rw [sideBySide_map_range_succ, ← ih, List.range_succ, List.foldl_append]; rfl

/-- The elements of two sources added up at their places, as PACK adds them, the second source's from place `per` on. -/
theorem foldl_two_eq_sideBySide (n per : Nat) (f g : Nat → Nat) (k : Nat) :
    (List.range k).foldl (fun acc i => acc + f i * 2 ^ (n * i) + g i * 2 ^ (n * (per + i))) 0
      = sideBySide n ((List.range k).map f) + 2 ^ (n * per) * sideBySide n ((List.range k).map g) := by
  induction k with
  | zero => rfl
  | succ k ih =>
    have hpow : 2 ^ (n * (per + k)) = 2 ^ (n * per) * 2 ^ (n * k) := by rw [Nat.mul_add, Nat.pow_add]
    rw [sideBySide_map_range_succ, sideBySide_map_range_succ, List.range_succ, List.foldl_append, ih, List.foldl_cons, List.foldl_nil,
      hpow, Nat.mul_add, Nat.mul_left_comm (g k)]
    omega

theorem map_elements (x : Word) (type : BitVec 4) (f : Nat → Nat) :
    (elements x type).map f = (List.range (32 / typeBits type)).map fun i => f (elementAt x.toNat (typeBits type) i) :=
  List.map_map

theorem length_elements (x : Word) (type : BitVec 4) : (elements x type).length = 32 / typeBits type := by
  rw [elements, List.length_map, List.length_range]

/-- What PACK writes (R115). -/
theorem packed_eq_sideBySide (n : Nat) (src : BitVec 4) (f : Nat → Nat) (x y : Word) :
    (List.range (32 / typeBits src)).foldl (fun acc i => acc + f (elementAt x.toNat (typeBits src) i) * 2 ^ (n * i)
        + f (elementAt y.toNat (typeBits src) i) * 2 ^ (n * (32 / typeBits src + i))) 0
      = sideBySide n ((elements x src).map f ++ (elements y src).map f) := by
  rw [foldl_two_eq_sideBySide n (32 / typeBits src) (fun i => f (elementAt x.toNat (typeBits src) i)), sideBySide_append, List.length_map,
    length_elements, map_elements, map_elements]

/-- What UNPACK writes (R116). -/
theorem unpacked_eq_sideBySide (n : Nat) (src : BitVec 4) (f : Nat → Nat) (x : Word) :
    (List.range (32 / typeBits src)).foldl (fun acc i => acc + f (elementAt x.toNat (typeBits src) i) * 2 ^ (n * i)) 0
      = sideBySide n ((elements x src).map f) := by
  rw [foldl_eq_sideBySide n fun i => f (elementAt x.toNat (typeBits src) i), map_elements]

/-! ### An encoding read and rounded again (R104, R105, R211) -/

section
variable {f : Fmt} {bits : Nat}

/-- An encoding is its sign and its magnitude. -/
theorem Fmt.pack_sign_magnitude (hb : bits < 2 * f.signBit) : f.pack (bits / f.signBit % 2 == 1) (bits % f.signBit) = bits := by
  have hsplit := Nat.div_add_mod bits f.signBit
  have hsign : bits / f.signBit < 2 := Nat.div_lt_of_lt_mul (by rwa [Nat.mul_comm] at hb)
  rcases Nat.le_one_iff_eq_zero_or_eq_one.mp (Nat.le_of_lt_succ hsign) with h | h
  · rw [h] at hsplit ⊢
    simpa [Fmt.pack] using hsplit
  · rw [h] at hsplit ⊢
    simpa [Fmt.pack] using hsplit

/-- A subnormal magnitude is its own rank: nothing is rounded away. -/
theorem Fmt.rank_subnormal (r : Rnd) (neg : Bool) {m : Nat} (hm : m < 2 ^ f.mbits) : f.rank r neg m f.qmin = m := by
  by_cases h0 : m = 0
  · simp [Fmt.rank, h0]
  · have hlog : m.log2 < f.mbits := (Nat.log2_lt h0).mpr hm
    have hq : max ((m.log2 : Int) + f.qmin - f.mbits) f.qmin = f.qmin := by omega
    simp [Fmt.rank, h0, hq]

/-- A normal magnitude, of exponent field `ex` and fraction `fr`, is its own rank. -/
theorem Fmt.rank_normal (r : Rnd) (neg : Bool) {ex fr : Nat} (hex : ex ≠ 0) (hfr : fr < 2 ^ f.mbits) :
    f.rank r neg (fr + 2 ^ f.mbits) (f.qmin + (ex : Int) - 1) = 2 ^ f.mbits * ex + fr := by
  have h0 : fr + 2 ^ f.mbits ≠ 0 := by omega
  have hlog : (fr + 2 ^ f.mbits).log2 = f.mbits := (Nat.log2_eq_iff h0).mpr ⟨by omega, by omega⟩
  have hq : max (((f.mbits : Nat) : Int) + (f.qmin + (ex : Int) - 1) - f.mbits) f.qmin = f.qmin + (ex : Int) - 1 := by omega
  have hstep : (f.qmin + (ex : Int) - 1 - f.qmin).toNat = ex - 1 := by omega
  obtain ⟨k, rfl⟩ := Nat.exists_eq_succ_of_ne_zero hex
  simp only [Fmt.rank, h0, if_false, hlog, hq, ge_iff_le, Int.le_refl, if_true, hstep, Int.sub_self, Int.toNat_zero, Nat.pow_zero, Nat.mul_one]
  rw [Nat.succ_eq_add_one, Nat.add_sub_cancel, Nat.mul_succ, Nat.mul_comm k]
  omega

variable (hf : f.ieee = true)
include hf

theorem Fmt.read_of_inf_lt (h : f.inf < bits % f.signBit) : f.read bits = .nan := by
  simp [Fmt.read, hf, h]

theorem Fmt.read_of_eq_inf (h : bits % f.signBit = f.inf) : f.read bits = .inf (bits / f.signBit % 2 == 1) := by
  simp [Fmt.read, hf, h]

/-- Below infinity an encoding stands for a finite value whose rank is its magnitude, under every rounding. -/
theorem Fmt.read_of_lt_inf (h : bits % f.signBit < f.inf) :
    ∃ m e, f.read bits = .fin (bits / f.signBit % 2 == 1) m e
      ∧ ∀ r, f.rank r (bits / f.signBit % 2 == 1) m e = bits % f.signBit := by
  have hfr : bits % f.signBit % 2 ^ f.mbits < 2 ^ f.mbits := Nat.mod_lt _ (Nat.two_pow_pos _)
  have hsplit := Nat.div_add_mod (bits % f.signBit) (2 ^ f.mbits)
  by_cases hex : bits % f.signBit / 2 ^ f.mbits = 0
  · have hmag : bits % f.signBit % 2 ^ f.mbits = bits % f.signBit := by rwa [hex, Nat.mul_zero, Nat.zero_add] at hsplit
    refine ⟨bits % f.signBit % 2 ^ f.mbits, f.qmin, ?_, fun r => (Fmt.rank_subnormal r _ hfr).trans hmag⟩
    simp [Fmt.read, hf, hex, Nat.not_lt_of_lt h, Nat.ne_of_lt h]
  · refine ⟨_, _, ?_, fun r => (Fmt.rank_normal r _ hex hfr).trans hsplit⟩
    simp [Fmt.read, hf, hex, Nat.not_lt_of_lt h, Nat.ne_of_lt h]

/-- A value that an IEEE format holds is kept as it is, whatever the rounding; a NaN becomes the canonical one. -/
theorem Fmt.round_read (r : Rnd) (hb : bits < 2 * f.signBit) :
    f.round r false (f.read bits) = if f.isNan bits then f.nan else bits := by
  have hpack := Fmt.pack_sign_magnitude hb
  rcases Nat.lt_trichotomy (bits % f.signBit) f.inf with h | h | h
  · obtain ⟨m, e, hread, hrank⟩ := Fmt.read_of_lt_inf hf h
    have hmax : bits % f.signBit ≤ f.maxFin := by rw [Fmt.maxFin, if_pos hf]; omega
    simp [Fmt.isNan, hread, Fmt.round, hrank, hmax, hpack]
  · have hread := Fmt.read_of_eq_inf hf h
    rw [h] at hpack
    simp [Fmt.isNan, hread, Fmt.round, hf, hpack]
  · have hread := Fmt.read_of_inf_lt hf h
    simp [Fmt.isNan, hread, Fmt.round]

end

/-- Settles O27: comparison, classification and conversion by elements, and the rounding of a value that its format holds. -/
theorem laneFloatConversions : Obligations.LaneFloatConversions := by
  unfold Obligations.LaneFloatConversions
  refine ⟨fun s w => ⟨?fcmp, ?fclass, ?cvt, ?pack, ?unpack⟩,
    fun f r bits hf => Fmt.round_read (by rcases hf with rfl | rfl | rfl | rfl <;> rfl) r⟩
  all_goals intro h hc
  case fcmp => rw [exec_fcmp, execFcmp]; exact aluLane_ok h hc
  case fclass => rw [exec_fclass, execFclass]; exact aluLane_ok h hc
  case cvt => rw [exec_cvt, execCvt]; exact aluLane_ok h hc
  case pack => rw [exec_pack, execPack, aluLane_ok h hc]; simp only [packed_eq_sideBySide]
  case unpack => rw [exec_unpack, execUnpack, aluLane_ok h hc]; simp only [unpacked_eq_sideBySide]

end Sys2Proof.Machine.LaneArithmetic
